-- ==== Sys2Proof/Word.lean ====
section
/-! DEFINITION. The word types of the device and the plainest arithmetic on them: bit fields of a
natural number, two's complement readings of a field, and saturating counters. -/

namespace Sys2Proof

/-- One byte of any memory of the device. -/
abbrev Byte := BitVec 8
/-- One 32-bit register word (R25). -/
abbrev Word := BitVec 32

/-- Bits [hi:lo] of a number. -/
def bits (n hi lo : Nat) : Nat := n / 2 ^ lo % 2 ^ (hi + 1 - lo)

/-- Bit b of a number. -/
def bit (n b : Nat) : Bool := n / 2 ^ b % 2 == 1

/-- A truth value as a one-bit number. -/
def b2n (b : Bool) : Nat := if b then 1 else 0

/-- The number n with bits [hi:lo] replaced by the low bits of v. -/
def putBits (n hi lo v : Nat) : Nat :=
  n % 2 ^ lo + v % 2 ^ (hi + 1 - lo) * 2 ^ lo + n / 2 ^ (hi + 1) * 2 ^ (hi + 1)

/-- The low w bits of a number read as two's complement. -/
def toSigned (w n : Nat) : Int :=
  let m := n % 2 ^ w
  if m < 2 ^ (w - 1) then (m : Int) else (m : Int) - 2 ^ w

/-- The w-bit two's complement form of an integer, wrapping. -/
def ofSigned (w : Nat) (i : Int) : Nat := (i % (2 ^ w : Int)).toNat

/-- An integer held to the closed range from lo to hi. -/
def clampInt (lo hi i : Int) : Int := if i < lo then lo else if hi < i then hi else i

/-- An integer saturated to w-bit two's complement. -/
def satSigned (w : Nat) (i : Int) : Int := clampInt (-(2 ^ (w - 1))) (2 ^ (w - 1) - 1) i

/-- A counter of w bits that stops at its largest value. -/
def satAdd (w n k : Nat) : Nat := min (n + k) (2 ^ w - 1)

end Sys2Proof
end

