-- ==== Sys2Proof/Syntax.lean ====
section
/-! DEFINITION. The commands of the device, one constructor per row of the opcode table, with their
operands. A command is a whole step: an event of the device, a register write that has a row of its
own, a packet, an instruction of a signal core. Facts the device meets and does not decide itself
(a measured offset, a received block, a check's outcome at a unit whose inner arithmetic the spec
leaves open) are operands. -/

namespace Sys2Proof

/-- Who makes a register access or sends a command: the two hosts, Hayward, a signal core of a
physical cluster, or an engine or port named by its Lacework node (R18, R55). -/
inductive Req where
  | hostA
  | hostB
  | hayward
  | core (c : Fin 20) (k : Fin 8)
  | node (n : BitVec 10)
  deriving DecidableEq, Repr

/-- A Lacework packet: the header fields of R89 and its data bytes. HCRC is not held: it is the
CRC of the other bits, and a mismatch is a fact the receiving command carries (R91). -/
structure Packet where
  dest : BitVec 10
  src : BitVec 10
  cmd : BitVec 6
  len : BitVec 8
  tag : BitVec 12
  cls : BitVec 3
  epoch : Bool
  tick : BitVec 12
  addr : BitVec 48
  posted : Bool
  barrier : Bool
  wake : Bool
  prov : Bool
  verify : Bool
  resp : BitVec 3
  xrow : BitVec 3
  la : BitVec 4
  firstBE : BitVec 64
  lastBE : BitVec 64
  inl : BitVec 64
  data : List Byte
  deriving DecidableEq, Repr

/-- A work item's handle: its store entry, die and generation (R340). -/
abbrev Handle := BitVec 32
/-- The measured energy of the 66 power domains over the tick that ends, in nJ (R479). -/
structure LedgerInputs where
  domE : List Nat
  deriving DecidableEq, Repr


/-- A section of an eCPRI message: a C-plane section's type and extensions, or a U-plane section's compression method and
width, first PRB and PRB groups (R203, R204). -/
structure EcpriSect where
  ty : Nat
  exts : List Nat
  meth : Nat
  width : Nat
  start : Nat
  prbs : List (List Byte)
  deriving DecidableEq, Repr

/-- A frame received on an ETH_25 lane that carries eCPRI: whether its frame check and length hold, addresses, tags (the
first, and whether more follow), whether it is carried by EtherType 0xAEFE, revision, C bit and message type, PC_ID or RTC_ID,
SEQ_ID, slot and symbol, sections; of a type 5 message the action, time stamp and compensation; when it arrived after the
last base tick edge (R202 to R205). -/
structure EcpriMsg where
  ok : Bool
  dst : BitVec 48
  src : BitVec 48
  tci : Option (BitVec 16)
  stacked : Bool
  etherOk : Bool
  rev : Nat
  concat : Bool
  ty : BitVec 8
  eaxc : BitVec 16
  seq : BitVec 16
  slot : BitVec 16
  sym : Fin 14
  sects : List EcpriSect
  action : BitVec 8
  ts : Nat
  comp : Int
  into : Nat
  deriving DecidableEq, Repr

/-- What a boot finds: whether the flash can be read, rails good within 100 ms, the channels that find a
working setting, and where VDD_CORE settles (R463, R493, R556). -/
structure BootFacts where
  flash : Bool
  rails : Bool
  dram : List Bool
  vset : Fin 25
  deriving DecidableEq, Repr

/-- One slot of a bundle that a signal core issues (R376, R377): the core, the slot field (0 SX, 1 SY, 2 SM0,
3 SM1, 4 SA, 5 SC), whether it is the first and the last slot of its bundle that is no NOP, the fields DST,
SRC1, SRC2 and MOD (15 bits in the first four slots, 23 in the others), and facts: an uncorrectable error met by
the fetch, one met by the memory access, at an element of a vector access, and a corrected bit. -/
structure SlotOp where
  c : Fin 20
  k : Fin 8
  slot : Fin 6
  first : Bool
  last : Bool
  dst : BitVec 5
  src1 : BitVec 5
  src2 : BitVec 5
  mod : BitVec 23
  fetchUe : Bool
  ue : Option (Fin 128)
  ce : Option (Fin 72)
  deriving DecidableEq, Repr

/-- A TLP of a host: a memory read or write of a BAR (0, 2 and 4 as 0, 1 and 2) at a byte offset, or a write of
the MSI-X control of its configuration space. -/
inductive Tlp where
  | memRd (bar : Fin 3) (off : BitVec 37) (len : Fin 4097)
  | memWr (bar : Fin 3) (off : BitVec 37) (data : List Byte)
  | msix (enable fmask : Bool)
  deriving DecidableEq, Repr

/-- The commands of spec/opcode_table.json, in its order. -/
inductive Instr where
  /-- BASE_TICK_EDGE (R29). The time base reaches a whole multiple of 125,000 ns, and TICK advances by one. -/
  | baseTickEdge (l : LedgerInputs)
  /-- RELEASE_TICK (R34). The edge that begins a work item's release tick occurs; the item becomes READY if its DEPS is 0. -/
  | releaseTick (h : Handle)
  /-- WORK_ITEM_EXPIRY (R36). The edge that begins an unfinished item's due tick occurs, and the item takes its class's expiry action. -/
  | workItemExpiry (h : Handle)
  /-- SPARE_SWAP (R519). At the first edge after preparation, the epoch flips and the fallow cluster takes the fenced cluster's role. -/
  | spareSwap (f : Fin 20) (errs : List (Fin 131072))
  /-- PTP_EVENT_MESSAGE_RX (R46). A PTP event message is received, stamped, and yields an offset measurement. -/
  | ptpEventMessageRx (domain : BitVec 8) (udp valid : Bool) (offset : Int) (want : Int)
  /-- ANNOUNCE_RX (R46). An Announce message is received, updating the UTC offset, leap flags and metadata TLV. -/
  | announceRx (domain : BitVec 8) (udp : Bool) (utc : BitVec 16) (leap61 leap59 : Bool) (tlv : Option (List Byte))
  /-- ANNOUNCE_TIMEOUT (R41). ANNOUNCE_TIMEOUT intervals pass without Announce; the source is lost. -/
  | announceTimeout
  /-- SYNC_TIMEOUT (R41). Three Sync intervals pass without Sync; the source is lost. -/
  | syncTimeout
  /-- PPS_IN_EDGE (R50). An active edge on PPS_IN captures the nanoseconds and may serve as the offset measurement. -/
  | ppsInEdge (into : Nat) (want : Int)
  /-- PPS_IN_ABSENT (R41). PPS_IN is absent for 2 s, raising EV20 and the loss of the source. -/
  | ppsInAbsent
  /-- SYNCE_REF_LOST (R54). SYNCE_LOCK falls, and EV23 is raised. -/
  | synceRefLost
  /-- TTB_CTRL_WRITE (R49). A write to TTB_CTRL, with SyncE field changes refused outside FREERUN and SOURCE changes moving the state. -/
  | ttbCtrlWrite (r : Req) (v : Word)
  /-- HELD_PANEL_START (R41). A panel start held in FREERUN or ACQUIRING proceeds when the state becomes LOCKED. -/
  | heldPanelStart (p : Fin 20)
  /-- STEP_GO (R43). A write of TTB_STEP_CTRL.GO requests a step or is refused while panels run. -/
  | stepGo (r : Req) (v : Word)
  /-- STEP_APPLY (R44). At the next base tick edge, the pending step replaces the time-of-day and recomputes TICK. -/
  | stepApply
  /-- TTB_FRAME_WRITE (R56). A write to TTB_FRAME is held pending, or refused while any panel runs. -/
  | ttbFrameWrite (r : Req) (v : Word)
  /-- FRAME_APPLY (R56). A pending TTB_FRAME value takes effect at the next base tick edge. -/
  | frameApply
  /-- TICK_LO_READ (R55). A read of TTB_TICK_LO latches TTB_TICK_HI for that requester. -/
  | tickLoRead (r : Req)
  /-- TOD_NS_READ (R55). A read of TTB_TOD_NS latches the seconds words for that requester. -/
  | todNsRead (r : Req) (into : Nat)
  /-- PPS_OUT_RISE (R51). PPS_OUT rises at each whole second of the time-of-day. -/
  | ppsOutRise
  /-- PPS_OUT_FALL (R51). PPS_OUT falls OUT_WIDTH_MS milliseconds after it rose. -/
  | ppsOutFall
  /-- STAGE (R68). PKL_CTRL.CMD STAGE fetches a pricking stream into the staging buffer and checks it. -/
  | stage (r : Req) (v : Word) (fetchOk : Bool)
  /-- STAGE_COMPLETE (R606). The fetch and checks of a staged stream complete, setting STAGED or PKL_ERR. -/
  | stageComplete
  /-- REPRICK (R75). PKL_CTRL.CMD REPRICK stops a panel, applies the staged pricking and restarts it. -/
  | reprick (r : Req) (v : Word)
  /-- STOP (R78). PKL_CTRL.CMD STOP requests a panel stop without applying anything. -/
  | stop (r : Req) (v : Word)
  /-- START (R78). PKL_CTRL.CMD START restarts a stopped panel with its definition unchanged. -/
  | start (r : Req) (v : Word)
  /-- DISCARD (R78). PKL_CTRL.CMD DISCARD empties the staging buffer. -/
  | discard (r : Req) (v : Word)
  /-- PANEL_STOP (R74). At the first edge at or after PKL_STOP_TICK satisfying R21, the panel stops and its items expire. -/
  | panelStop (p : Fin 20)
  /-- APPLY_COMPLETE (R75). The apply of a staged pricking completes. -/
  | applyComplete
  /-- PANEL_RESTART (R75). The panel restarts at the first allowed edge at or after PKL_RESTART_TICK. -/
  | panelRestart (p : Fin 20)
  /-- MIGRATION_REQUEST (R79). PKL_MIG_CTRL.GO requests migration of a carrier to a destination panel. -/
  | migrationRequest (r : Req) (v : Word)
  /-- MIGRATION_COPY_START (R80). At E_b − 1, the copy engine starts copying the carrier context block. -/
  | migrationCopyStart
  /-- MIGRATION_SWITCH (R80). At E_b, the carrier's map entry changes to the destination panel. -/
  | migrationSwitch
  /-- MIGRATION_DRAINED (R80). The source no longer carries the carrier; it frees the context block and raises EV5. -/
  | migrationDrained
  /-- PACKET_INJECT (R99). An initiator injects a packet, and the injecting router resolves ADDR and stamps EPOCH. -/
  | packetInject (p : Packet)
  /-- PACKET_RECEIVE (R91). A router or crossing receiver takes a packet, checking HCRC and link ECC. -/
  | packetReceive (n waited : Nat) (crcBad poison : Bool) (ce : Nat) (mce : Option (Fin 160)) (mue : Bool)
      (hchkBad : List (Fin 40960))
  /-- RESPONSE_RECEIVE (R95). An initiator's interface receives a response and completes its request. -/
  | responseReceive (n : Nat) (poison : Bool)
  /-- FENCED_HOLD_TIMEOUT (R17). 250 µs after a FENCED answer with no flip, the held request is injected again. -/
  | fencedHoldTimeout (src : BitVec 10)
  /-- REQUEST_TIMEOUT (R95). A non-posted request has no response within TIMEOUT_US and completes with TARGET_ERR. -/
  | requestTimeout (src : BitVec 10) (tag : BitVec 12)
  /-- BARRIER_RELEASE (R97). A held BARRIER packet is released once earlier requests are answered. -/
  | barrierRelease (src : BitVec 10)
  /-- EPOCH_FLIP (R105). The route epoch flips at a base tick edge. -/
  | epochFlip (written : Bool)
  /-- EPOCH_DRAINED (R106). The non-current epoch's packet count reaches 0 in all routers, and DRAINED rises. -/
  | epochDrained
  /-- HOLD_LIMIT_EXPIRY (R113). A packet held for HOLD_LIMIT_US is released with ASLEEP. -/
  | holdLimitExpiry (m : Fin 64)
  /-- XLINK_FAIL (R115). A crossing link reaches LWK_XLINK_UE_LIMIT poisoned flits in a tick and is marked failed. -/
  | xlinkFail (x : Fin 16)
  /-- STAT_WINDOW_CLOSE (R117). A statistics window closes, and the counters are copied to a snapshot and cleared. -/
  | statWindowClose
  /-- TRACE_ARM (R119). A write of LWK_TRC_CTRL.ARM arms tracing and clears FULL on a rise. -/
  | traceArm (v : Word)
  /-- OPEN (R126). The OPEN header operation opens a FREE tile. -/
  | openTile (t : Fin 40960) (src : BitVec 10) (inl : BitVec 64) (hchkBad : Bool)
  /-- SEAL (R126). The SEAL header operation stores the picot and seals an OPEN tile. -/
  | sealTile (t : Fin 40960) (src : BitVec 10) (inl : BitVec 64) (barrier hchkBad : Bool)
  /-- RELEASE (R126). The RELEASE header operation returns a tile to FREE. -/
  | releaseTile (t : Fin 40960) (src : BitVec 10) (inl : BitVec 64) (hchkBad : Bool)
  /-- MARK_FAULT (R126). MARK with action FAULT sets a SEALED tile FAULTED and counts a picot mismatch. -/
  | markFault (t : Fin 40960) (src : BitVec 10) (gen : BitVec 4) (hchkBad : Bool)
  /-- MARK_CLR_PROV (R126). MARK with action CLR_PROV from the FEC group clears a tile's PROV. -/
  | markClrProv (t : Fin 40960) (src : BitVec 10) (gen : BitVec 4) (hchkBad : Bool)
  /-- PAYLOAD_WRITE (R127). A payload write to an OPEN tile from its WRITER. -/
  | payloadWrite (addr : Fin 167772160) (src : BitVec 10) (prov : Bool) (firstBE lastBE : BitVec 64) (data : List Byte) (hchkBad : List (Fin 40960))
  /-- WHOLE_TILE_READ (R131). A LEN 64 read at a tile base is answered by tile state. -/
  | wholeTileRead (t : Fin 40960) (src : BitVec 10) (verify hchkBad : Bool)
  /-- PARTIAL_READ (R133). Any other payload read, unverified, or verified by the bank when VERIFY is set. -/
  | partialRead (addr : Fin 167772160) (units : Fin 65) (src : BitVec 10) (verify : Bool) (hchkBad : List (Fin 40960))
  /-- HEADER_READ (R125). A read of the header region returns headers as stored. -/
  | headerRead (off : Fin 1310720) (units : Fin 65) (src : BitVec 10) (hchkBad : List (Fin 40960))
  /-- RETIRE_WINDOW_CLOSE (R141). A retirement window closes, and mismatch counts return to 0. -/
  | retireWindowClose
  /-- BANK_RETIRE (R141). At the next base tick edge, a bank that reached RETIRE_LIMIT is retired. -/
  | bankRetire (b : Fin 80)
  /-- LANE_BLOCK_RECEIVE (R155). A radio or twin lane receiver takes a 66-bit block and runs block lock. -/
  | laneBlockReceive (n : Fin 80) (hdr : BitVec 2) (payload : BitVec 64) (held : Bool) (reads : Fin 3) (into : Nat)
  /-- LOSS_OF_SIGNAL (R157). The input stays below 60 mV for 1 µs, and LOS is declared. -/
  | lossOfSignal (n : Fin 80)
  /-- LOS_CLEAR (R157). The input stays above 90 mV for 1 µs, and LOS clears. -/
  | losClear (n : Fin 80)
  /-- RETRAIN (R163). A lane that is UP begins retraining on lost lock or excess invalid headers. -/
  | retrain (n : Fin 80) (unlocked : Bool)
  /-- TRAINING_DONE (R164). 8 clean base ticks with block lock make the lane UP. -/
  | trainingDone (n : Fin 80) (eq : List Nat)
  /-- LANE_FAILED (R164). Training or retraining fails within 50 ms, and the lane is FAILED. -/
  | laneFailed (n : Fin 80)
  /-- RECOVERY_ATTEMPT (R166). RECOVER_S seconds after an attempt, a FAILED lane starts a new attempt. -/
  | recoveryAttempt (n : Fin 80)
  /-- QUAD_PLL_UNLOCK (R169). A quad PLL loses lock, and its lanes drop block lock. -/
  | quadPllUnlock (k : Fin 20)
  /-- LANE_TEST_WRITE (R170). A write of RLN_LANE_TEST starts or stops PRBS31, and is refused on busy lanes. -/
  | laneTestWrite (r : Req) (n : Fin 80) (v : Word)
  /-- TWIN_QUAD_CFG_WRITE (R172). A write to RW fields of quads 16 to 19 takes effect only while their links are disabled. -/
  | twinQuadCfgWrite (k : Fin 4) (w : Fin 3) (v : Word)
  /-- BASIC_FRAME_TX (R174). The frame clock begins a basic frame; the device sends block 0, block 1, payload and fillers. -/
  | basicFrameTx (n : Fin 72) (i : Fin 375)
  /-- ALIGNMENT_BLOCK_RECEIVE (R181). A block 0 position is evaluated by the basic-frame alignment state machine. -/
  | alignmentBlockReceive (n : Fin 72) (v : BitVec 64) (err : Bool) (into : Nat)
  /-- CANDIDATE_BAR_EXPIRY (R182). The bar on a rejected winner's position ends after 16 multiframes. -/
  | candidateBarExpiry (n : Fin 72)
  /-- OVERHEAD_BLOCK_RECEIVE (R193). A block 1 visit drives the pointer state machine and the JC vote. -/
  | overheadBlockReceive (n : Fin 72) (v : BitVec 64) (err : Bool)
  /-- GROUP_FRAME_DELIVERY (R199). A lane group basic frame is delivered as received, rebuilt from parity, or as all ones. -/
  | groupFrameDelivery (g : Fin 18) (i : Fin 375)
  /-- ECPRI_MESSAGE_RX (R202). An eCPRI message is received on an ETH_25 lane and accepted, discarded or answered. -/
  | ecpriMessageRx (n : Fin 64) (m : EcpriMsg)
  /-- TA4_WINDOW_CLOSE (R205). A symbol's uplink window closes; missing PRB groups are written as all ones with AIS. -/
  | ta4WindowClose (n : Fin 64) (c : Fin 64) (slot : BitVec 16) (sym : Fin 14)
  /-- UPLANE_SEND (R206). UP_ADV_US before a symbol's air time, its U-plane messages are sent. -/
  | uplaneSend (n : Fin 64) (cid : Fin 32) (slot : BitVec 16) (sym : Fin 14) (into : Nat)
  /-- CPLANE_SEND (R206). CP_ADV_US before a slot's first U-plane message, its C-plane message is sent. -/
  | cplaneSend (n : Fin 64) (cid : Fin 32) (slot : BitVec 16) (into : Nat)
  /-- UL_FFT (R214). A Fourier engine command OP 1 removes the prefix and transforms the antenna symbols. -/
  | ulFft (e : Fin 32) (n : Nat)
  /-- UL_PRACH_LONG (R225). A Fourier engine command OP 2 extracts a long PRACH preamble. -/
  | ulPrachLong (e : Fin 32) (n : Nat)
  /-- DL_IFFT (R326). A Fourier engine command OP 3 transforms antenna tiles to time domain. -/
  | dlIfft (e : Fin 32)
  /-- AGC_SYMBOL_END (R219). At the end of a symbol, the AGC entry computes the next symbol's gain. -/
  | agcSymbolEnd (q : Fin 4) (e : Fin 512)
  /-- PRE_OCCASION (R227). A preamble engine command for one PRACH occasion. -/
  | preOccasion (p : Fin 4)
  /-- REPETITION_ACCUMULATE (R228). As a repetition's tiles are sealed, the engine adds them into the accumulators. -/
  | repetitionAccumulate (p : Fin 4)
  /-- TRIGGER_EVALUATION (R231). After TRIG_EVERY repetitions, the trigger pipe evaluates and may fire and set the PRACH hold. -/
  | triggerEvaluation (p : Fin 4)
  /-- FINAL_CORRELATION (R234). After the last repetition, the main pipe correlates all antennas and reports detections. -/
  | finalCorrelation (p : Fin 4)
  /-- UL_EST (R248). A matrix engine command estimates channel and covariance and writes products. -/
  | ulEst (m : Fin 4)
  /-- UL_COMB (R255). A matrix engine command combines and demaps into LLR tiles. -/
  | ulComb (m : Fin 4)
  /-- UL_SRS (R262). A matrix engine command writes SRS channel tiles. -/
  | ulSrs (m : Fin 4)
  /-- DL_MOD (R319). A matrix engine command scrambles, modulates and maps codewords to layers. -/
  | dlMod (m : Fin 4)
  /-- DL_PRECODE (R322). A matrix engine command precodes layers onto antennas. -/
  | dlPrecode (m : Fin 4)
  /-- DL_CONVERT (R322). A matrix engine command converts tiles to a container format. -/
  | dlConvert (m : Fin 4)
  /-- DL_WEIGHTS (R321). A matrix engine command computes zero-forcing weights from SRS tiles. -/
  | dlWeights (m : Fin 4)
  /-- PASS_END_RX (R266). A PASS_END doorbell reaches the matrix engine's loop unit. -/
  | passEndRx (m : Fin 4) (src : BitVec 10) (inl : BitVec 64) (into : Nat)
  /-- LDPC_DEC (R280). A decode command OP 1 for one LDPC transport block. -/
  | ldpcDec (q : Fin 4)
  /-- POLAR_DEC (R287). A decode command OP 2 for a polar-coded UCI stream. -/
  | polarDec (q : Fin 4)
  /-- SHORT_DEC (R287). A decode command OP 3 for NR small block codes. -/
  | shortDec (q : Fin 4)
  /-- TURBO_DEC (R287). A decode command OP 4 for an LTE turbo transport block. -/
  | turboDec (q : Fin 4)
  /-- TBCC_DEC (R287). A decode command OP 5 for an LTE tail-biting convolutional stream. -/
  | tbccDec (q : Fin 4)
  /-- LDPC_ENC (R314). An encode command OP 8 on an LDPC encoder. -/
  | ldpcEnc (q : Fin 4)
  /-- POLAR_ENC (R314). An encode command OP 9 on a polar engine. -/
  | polarEnc (q : Fin 4)
  /-- TURBO_ENC (R314). An encode command OP 10 on a turbo engine. -/
  | turboEnc (q : Fin 4)
  /-- TBCC_ENC (R314). An encode command OP 11 on a trellis engine. -/
  | tbccEnc (q : Fin 4)
  /-- CODE_BLOCK_DOORBELL (R278). A code block ready doorbell reaches the FEC group and matches a command or is stored. -/
  | codeBlockDoorbell (q : Fin 4) (src : BitVec 10) (inl : BitVec 64)
  /-- LOOP_END_DOORBELL (R297). A LOOP_END doorbell ends the waiting loop of a command. -/
  | loopEndDoorbell (q : Fin 4) (src : BitVec 10) (inl : BitVec 64)
  /-- DECODE_JOB_START (R279). A free decoder of the right kind takes the first eligible job. -/
  | decodeJobStart (e : Fin 24)
  /-- CODE_BLOCK_DECODED (R283). A decoder finishes a code block, and the check unit writes its bits and PROVISIONAL. -/
  | codeBlockDecoded (e : Fin 24) (edge : Bool)
  /-- CODE_BLOCK_CHECK (R284). The check unit checks a code block's CRC and writes CONFIRM or RETRACT. -/
  | codeBlockCheck (q : Fin 4)
  /-- HELD_RECORD_WRITE (R289). A held completion record is written when ring room appears. -/
  | heldRecordWrite (q : Fin 4)
  /-- DL_SEND_POINT (R308). At a tile's send point, the DMA channel reads it and the framer sends it or zeros. -/
  | dlSendPoint (n : Fin 64) (cid : Fin 32) (i : Fin 384) (slot : BitVec 16) (sym : Fin 14)
  /-- TBC_TABLE_WRITE (R329). A write to a TBCP bank entry, refused for the active or locked bank. -/
  | tbcTableWrite (p b : Fin 2) (i : Fin 1024) (src : BitVec 10) (vs : List Word) (edge : Bool)
  /-- TBC_SWAP_REQ (R330). A write to TBC_SWAP_REQ requests a bank swap, or is refused. -/
  | tbcSwapReq (p : Fin 2) (v : Word) (into : Nat) (edge : Bool)
  /-- SWAP_WINDOW_OPEN (R330). The arm window of a pending swap opens ARM_LEAD before the boundary. -/
  | swapWindowOpen (p : Fin 2)
  /-- TBCP_STROBE (R331). A strobe on TBCPn_STB_N inside an open window makes the swap due. -/
  | tbcpStrobe (p : Fin 2) (into : Nat)
  /-- SWAP_WINDOW_CLOSE (R331). The window closes without a strobe, and SEL changes with NO_STROBE. -/
  | swapWindowClose (p : Fin 2) (edge : Bool)
  /-- TBCP_CLK_LOST (R334). TBCPn_CLK shows no edge for 1 µs, and CLK_OK clears. -/
  | tbcpClkLost (p : Fin 2)
  /-- TBCP_CLK_OK (R334). After 1 µs of regular edges, CLK_OK sets. -/
  | tbcpClkOk (p : Fin 2)
  /-- TBC_CTRL_WRITE (R335). A write to TBC_CTRL enables or disables a port and may discard a pending swap. -/
  | tbcCtrlWrite (p : Fin 2) (v : Word) (edge : Bool)
  /-- TBCP_ADDR_CHANGE (R328). TBCPn_ADDR changes, and DATA is driven from the active bank with ECC correction. -/
  | tbcpAddrChange (p : Fin 2) (addr : Fin 1024) (ecc : Fin 3) (edge : Bool)
  /-- SUBMIT (R341). An ATOM_SWAP to DSP_SUBMIT submits a work item or is refused. -/
  | submit (r : Req) (p : Fin 20) (inl : BitVec 64) (fetchOk : Bool) (idx : Fin 40960)
  /-- HOST_SUBMIT (R341). A host read of DSP_HSUB_GO submits the descriptor and returns the result. -/
  | hostSubmit (r : Req) (fetchOk : Bool) (idx : Fin 40960)
  /-- DEP_DEC (R344). A write of a handle to DSP_DEP_DEC decrements the item's DEPS. -/
  | depDec (v : Word)
  /-- CANCEL (R345). A write of a handle to DSP_CANCEL ends a WAITING or READY item with CANCELLED. -/
  | cancel (v : Word)
  /-- RIPEN_CHECK (R353). Every 128 ns, waiting items ripen by one level per their thresholds. -/
  | ripenCheck (into : Nat)
  /-- BASE_TICK_MIDPOINT (R356). At 62.5 µs into a tick with no floor dispatch, a core is pre-empted for a GLEAN item. -/
  | baseTickMidpoint
  /-- ENGINE_COMPLETION (R352). An engine reports a command's completion status to the Dispatcher. -/
  | engineCompletion (target : Fin 6) (e : Fin 32) (into : Nat)
  /-- CX_DONE_WRITE (R393). Machine-mode code writes CX_DONE, ending the core's item once its stores are answered. -/
  | cxDoneWrite (c : Fin 20) (k : Fin 8) (status : BitVec 16)
  /-- INTERRUPT_ENTRY (R388). A pending enabled interrupt is taken before the oldest uncommitted bundle. -/
  | interruptEntry (c : Fin 20) (k : Fin 8) (n : Fin 5)
  /-- PREEMPTION_ENTRY (R394). An allowed pre-emption squashes bundles, saves a frame and enters the new item. -/
  | preemptionEntry (c : Fin 20) (k : Fin 8)
  /-- FAR_RETRY (R373). A far access answered ASLEEP or TARGET_ERR is retried after 1 µs. -/
  | farRetry (c : Fin 20) (k : Fin 8) (n : Fin 17)
  /-- CP_COMPLETE (R400). A coprocessor operation completes, writing outputs, then the status word, and CPDONE. -/
  | cpComplete (c : Fin 20) (ecc : Fin 4)
  /-- SOFT_INTERRUPT_SET (R386). A write of CX_INT_PEND.SOFT sets or clears a core's SOFT interrupt. -/
  | softInterruptSet (r : Req) (c : Fin 20) (k : Fin 8) (v : Word)
  /-- LD_B (R407). Load a signed byte. -/
  | ldB (i : SlotOp)
  /-- LD_BU (R407). Load an unsigned byte. -/
  | ldBu (i : SlotOp)
  /-- LD_H (R407). Load a signed halfword. -/
  | ldH (i : SlotOp)
  /-- LD_HU (R407). Load an unsigned halfword. -/
  | ldHu (i : SlotOp)
  /-- LD_W (R407). Load a word. -/
  | ldW (i : SlotOp)
  /-- LD_D (R407). Load a doubleword into a register pair. -/
  | ldD (i : SlotOp)
  /-- ST_B (R407). Store a byte. -/
  | stB (i : SlotOp)
  /-- ST_H (R407). Store a halfword. -/
  | stH (i : SlotOp)
  /-- ST_W (R407). Store a word. -/
  | stW (i : SlotOp)
  /-- ST_D (R407). Store a doubleword. -/
  | stD (i : SlotOp)
  /-- CMAC (R407). Complex multiply-accumulate into an accumulator. -/
  | cmac (i : SlotOp)
  /-- CMACJ (R407). Complex multiply by conjugate, accumulated. -/
  | cmacj (i : SlotOp)
  /-- CMUL (R407). Complex multiply written to an accumulator. -/
  | cmul (i : SlotOp)
  /-- CMULJ (R407). Complex multiply by conjugate written to an accumulator. -/
  | cmulj (i : SlotOp)
  /-- MAC2 (R407). Dual real 16×16 multiply-accumulate. -/
  | mac2 (i : SlotOp)
  /-- MPY2 (R407). Dual real 16×16 multiply. -/
  | mpy2 (i : SlotOp)
  /-- MPY32 (R407). 32×32 multiply to an accumulator. -/
  | mpy32 (i : SlotOp)
  /-- ACCMV (R407). Shift, round and saturate an accumulator into a D register. -/
  | accmv (i : SlotOp)
  /-- ACCCLR (R407). Clear an accumulator. -/
  | accclr (i : SlotOp)
  /-- ADD (R407). Add. -/
  | add (i : SlotOp) (imm : Bool)
  /-- ADDS (R407). Add with saturation. -/
  | adds (i : SlotOp) (imm : Bool)
  /-- SUB (R407). Subtract. -/
  | sub (i : SlotOp) (imm : Bool)
  /-- SUBS (R407). Subtract with saturation. -/
  | subs (i : SlotOp) (imm : Bool)
  /-- AND (R407). Bitwise AND. -/
  | and (i : SlotOp) (imm : Bool)
  /-- OR (R407). Bitwise OR. -/
  | or (i : SlotOp) (imm : Bool)
  /-- XOR (R407). Bitwise XOR. -/
  | xor (i : SlotOp) (imm : Bool)
  /-- SHL (R407). Shift left. -/
  | shl (i : SlotOp) (imm : Bool)
  /-- SHR (R407). Logical shift right. -/
  | shr (i : SlotOp) (imm : Bool)
  /-- SAR (R407). Arithmetic shift right. -/
  | sar (i : SlotOp) (imm : Bool)
  /-- MIN (R407). Minimum. -/
  | min (i : SlotOp) (imm : Bool)
  /-- MAX (R407). Maximum. -/
  | max (i : SlotOp) (imm : Bool)
  /-- ABS (R407). Absolute value. -/
  | abs (i : SlotOp) (imm : Bool)
  /-- CLZ (R407). Count leading zeros. -/
  | clz (i : SlotOp) (imm : Bool)
  /-- BREV (R407). Bit reverse. -/
  | brev (i : SlotOp) (imm : Bool)
  /-- PACKH (R407). Pack halfwords. -/
  | packh (i : SlotOp) (imm : Bool)
  /-- CMPEQ (R407). Compare equal into a predicate. -/
  | cmpeq (i : SlotOp)
  /-- CMPLT (R407). Compare signed less-than into a predicate. -/
  | cmplt (i : SlotOp)
  /-- CMPLTU (R407). Compare unsigned less-than into a predicate. -/
  | cmpltu (i : SlotOp)
  /-- SEL (R407). Select by predicate. -/
  | sel (i : SlotOp)
  /-- MOVI (R407). Load a 23-bit immediate. -/
  | movi (i : SlotOp)
  /-- MOVHI (R407). Load bits [31:16] from an immediate. -/
  | movhi (i : SlotOp)
  /-- ADDA (R407). Address arithmetic. -/
  | adda (i : SlotOp)
  /-- MOVA (R407). Move a D register to an A register. -/
  | mova (i : SlotOp)
  /-- MOVD (R407). Move an A register to a D register. -/
  | movd (i : SlotOp)
  /-- MOVB (R407). Move a D register to a base register. -/
  | movb (i : SlotOp)
  /-- MOVL (R407). Move a D register to a length register. -/
  | movl (i : SlotOp)
  /-- MOVN (R407). Move a D register to a modifier register. -/
  | movn (i : SlotOp)
  /-- BR (R382). Branch after three delay slots. -/
  | br (i : SlotOp)
  /-- BRP (R382). Predicated branch. -/
  | brp (i : SlotOp)
  /-- CALL (R407). Branch with link in A15. -/
  | call (i : SlotOp)
  /-- CALLR (R407). Branch to an A register with link. -/
  | callr (i : SlotOp)
  /-- RET (R407). Return to A15. -/
  | ret (i : SlotOp)
  /-- REP (R384). Open a repeat level with an immediate count. -/
  | rep (i : SlotOp)
  /-- REPD (R384). Open a repeat level with a count from a D register. -/
  | repd (i : SlotOp)
  /-- SYSCALL (R386). TRAP with MOD [0] = 0 takes trap SYSCALL. -/
  | syscall (i : SlotOp)
  /-- BREAK (R386). TRAP with MOD [0] = 1 takes trap BREAK. -/
  | breakTrap (i : SlotOp)
  /-- ERET (R385). Return from a trap, honouring CX_DSTATE and CX_VRESUME. -/
  | eret (i : SlotOp)
  /-- WAIT (R393). Wait, receiving a dispatch, a restore or nothing. -/
  | wait (i : SlotOp)
  /-- CSRR (R385). Read a CSR, subject to the privilege check. -/
  | csrr (i : SlotOp)
  /-- CSRW (R385). Write a CSR, subject to the privilege check. -/
  | csrw (i : SlotOp)
  /-- FENCE (R373). Stall until every earlier far store is answered. -/
  | fence (i : SlotOp)
  /-- ISYNC (R375). Make completed instruction-memory writes visible to fetch. -/
  | isync (i : SlotOp)
  /-- CLRPROV (R392). Clear CX_STATUS.PROV in supervisor or machine mode. -/
  | clrprov (i : SlotOp)
  /-- NOP_H (R407). A system no-operation. -/
  | nopH (i : SlotOp)
  /-- CRC_GEN (R401). Coprocessor CRC of N input bits written to OUT. -/
  | crcGen (i : SlotOp) (ap : Fin 16) (w irq : Bool)
  /-- CRC_CHK (R401). Coprocessor CRC check of N − L bits against the last L. -/
  | crcChk (i : SlotOp) (ap : Fin 16) (w irq : Bool)
  /-- GOLD (R401). Coprocessor Gold sequence generation. -/
  | gold (i : SlotOp) (ap : Fin 16) (w irq : Bool)
  /-- SCRAMBLE (R401). Coprocessor XOR of input bits with the Gold sequence. -/
  | scramble (i : SlotOp) (ap : Fin 16) (w irq : Bool)
  /-- INTLV (R401). Coprocessor bit interleave. -/
  | intlv (i : SlotOp) (ap : Fin 16) (w irq : Bool)
  /-- DEINTLV (R401). Coprocessor bit de-interleave. -/
  | deintlv (i : SlotOp) (ap : Fin 16) (w irq : Bool)
  /-- SORT (R401). Coprocessor stable sort of N entries. -/
  | sort (i : SlotOp) (ap : Fin 16) (w irq : Bool)
  /-- TOPK (R401). Coprocessor selection of the k largest entries. -/
  | topk (i : SlotOp) (ap : Fin 16) (w irq : Bool)
  /-- CPWAIT (R398). Stall until every committed coprocessor operation of the core completes. -/
  | cpwait (i : SlotOp)
  /-- VLD (R417). Vector unit-stride load. -/
  | vld (i : SlotOp)
  /-- VLDS (R417). Vector strided load. -/
  | vlds (i : SlotOp)
  /-- VGATH (R417). Vector gather. -/
  | vgath (i : SlotOp)
  /-- VST (R417). Vector unit-stride store. -/
  | vst (i : SlotOp)
  /-- VSTS (R417). Vector strided store. -/
  | vsts (i : SlotOp)
  /-- VSCAT (R417). Vector scatter. -/
  | vscat (i : SlotOp)
  /-- VMUL (R418). Vector multiply. -/
  | vmul (i : SlotOp)
  /-- VMULJ (R418). Vector multiply by conjugate. -/
  | vmulj (i : SlotOp)
  /-- VMAC (R418). Vector multiply-accumulate. -/
  | vmac (i : SlotOp)
  /-- VMACJ (R418). Vector multiply-accumulate by conjugate. -/
  | vmacj (i : SlotOp)
  /-- VMULW (R418). Vector widening multiply into a pair. -/
  | vmulw (i : SlotOp)
  /-- VMULWJ (R418). Vector widening multiply by conjugate. -/
  | vmulwj (i : SlotOp)
  /-- VMACW (R418). Vector widening multiply-accumulate. -/
  | vmacw (i : SlotOp)
  /-- VMACWJ (R418). Vector widening multiply-accumulate by conjugate. -/
  | vmacwj (i : SlotOp)
  /-- VMULS (R418). Vector multiply by a broadcast scalar. -/
  | vmuls (i : SlotOp)
  /-- VMACS (R418). Vector multiply-accumulate by a broadcast scalar. -/
  | vmacs (i : SlotOp)
  /-- VADD (R419). Vector add. -/
  | vadd (i : SlotOp)
  /-- VSUB (R419). Vector subtract. -/
  | vsub (i : SlotOp)
  /-- VMIN (R419). Vector minimum. -/
  | vmin (i : SlotOp)
  /-- VMAX (R419). Vector maximum. -/
  | vmax (i : SlotOp)
  /-- VABS (R419). Vector absolute value. -/
  | vabs (i : SlotOp)
  /-- VNEG (R419). Vector negation. -/
  | vneg (i : SlotOp)
  /-- VCONJ (R419). Vector conjugate. -/
  | vconj (i : SlotOp)
  /-- VPOW (R419). Vector complex power. -/
  | vpow (i : SlotOp)
  /-- VAND (R419). Vector bitwise AND. -/
  | vand (i : SlotOp)
  /-- VOR (R419). Vector bitwise OR. -/
  | vor (i : SlotOp)
  /-- VXOR (R419). Vector bitwise XOR. -/
  | vxor (i : SlotOp)
  /-- VSHL (R419). Vector shift left. -/
  | vshl (i : SlotOp)
  /-- VSAR (R419). Vector arithmetic shift right. -/
  | vsar (i : SlotOp)
  /-- VSHR (R419). Vector logical shift right. -/
  | vshr (i : SlotOp)
  /-- VCMPEQ (R419). Vector compare equal into a predicate. -/
  | vcmpeq (i : SlotOp)
  /-- VCMPLT (R419). Vector compare signed less-than. -/
  | vcmplt (i : SlotOp)
  /-- VCMPLTU (R419). Vector compare unsigned less-than. -/
  | vcmpltu (i : SlotOp)
  /-- VFOLDADD (R419). Sum active elements into a D register. -/
  | vfoldadd (i : SlotOp)
  /-- VFOLDMAX (R419). Largest active element and its index into D registers. -/
  | vfoldmax (i : SlotOp)
  /-- VCLAIM (R413). Claim a vector length from a D register and set the element type. -/
  | vclaim (i : SlotOp)
  /-- VCLAIMI (R413). Claim a vector length from an immediate and set the element type. -/
  | vclaimi (i : SlotOp)
  /-- VMV (R420). Vector move. -/
  | vmv (i : SlotOp)
  /-- VBCAST (R420). Broadcast a D register into active elements. -/
  | vbcast (i : SlotOp)
  /-- VEXT (R420). Extract an element into a D register. -/
  | vext (i : SlotOp)
  /-- VINS (R420). Insert a D register into an element. -/
  | vins (i : SlotOp)
  /-- VSHDN (R420). Shift elements down. -/
  | vshdn (i : SlotOp)
  /-- VSHUP (R420). Shift elements up. -/
  | vshup (i : SlotOp)
  /-- VPERM (R420). Permute elements by index. -/
  | vperm (i : SlotOp)
  /-- VZIP (R420). Interleave two registers into a pair. -/
  | vzip (i : SlotOp)
  /-- VUNZIP (R420). De-interleave a pair into two registers. -/
  | vunzip (i : SlotOp)
  /-- VNARROW (R420). Narrow a double-width pair with shift and rounding. -/
  | vnarrow (i : SlotOp)
  /-- VWIDEN (R420). Sign-extend to a double-width pair. -/
  | vwiden (i : SlotOp)
  /-- VRAMP (R420). Write a ramp of element indexes times IMM8. -/
  | vramp (i : SlotOp)
  /-- VPGRANT (R420). Set a predicate to the granted length. -/
  | vpgrant (i : SlotOp)
  /-- VPLOG (R420). Logical operation on predicates. -/
  | vplog (i : SlotOp)
  /-- DMA_REQUEST_PULSE (R435). A pulse on a selected request line adds 1 to PENDING. -/
  | dmaRequestPulse (line : Fin 512)
  /-- DMA_SWREQ (R434). A write to DMA_SWREQ pulses software request lines. -/
  | dmaSwreq (e : Fin 8) (v : Word)
  /-- BURST (R447). The engine grants a ready channel, which moves one burst. -/
  | burst (e : Fin 8) (units : Fin 65) (ce : Option (Fin 160)) (ue : Bool)
  /-- BARRIER_COMPLETE (R446). The last write's response returns, completing a BARRIER descriptor. -/
  | barrierComplete (e : Fin 8) (c : Fin 32)
  /-- SHADOW_WRITE (R448). A write to a channel shadow register clears COMMIT. -/
  | shadowWrite (e : Fin 8) (c : Fin 32) (i : Fin 3) (v : Word)
  /-- COMMIT (R448). A write of DMA_CH_SH_COMMIT arms the shadows for the next hand-over. -/
  | commitShadow (e : Fin 8) (c : Fin 32) (v : Word)
  /-- CHANNEL_ENABLE (R448). A rise of DMA_CH_CTRL.EN is a hand-over. -/
  | channelEnable (e : Fin 8) (c : Fin 32) (v : Word)
  /-- ABORT (R450). A write of ABORT abandons the active descriptor. -/
  | abortChannel (e : Fin 8) (c : Fin 32)
  /-- TICK_HANDOVER (R448). The channel's tick edge with TICK_EN makes a hand-over. -/
  | tickHandover (e : Fin 8) (c : Fin 32)
  /-- DESCRIPTOR_EXPIRY (R450). The edge beginning DUE ends the descriptor with EXPIRED. -/
  | descriptorExpiry (e : Fin 8) (c : Fin 32)
  /-- DMA_RETRY (R450). A DMA request answered ASLEEP or TARGET_ERR is retried after 1 µs. -/
  | dmaRetry (e : Fin 8) (c : Fin 32) (ce : Option (Fin 160)) (ue : Bool)
  /-- CONTAINER_WINDOW_POP (R444). A RD of a framer container window pops uplink data. -/
  | containerWindowPop (g : Fin 2048) (units : Fin 65) (src : BitVec 10)
  /-- CONTAINER_WINDOW_PUSH (R444). A WR of a framer container window pushes downlink data. -/
  | containerWindowPush (g : Fin 2048) (zero : Bool) (data : List Byte) (src : BitVec 10)
  /-- DRAM_ACCESS (R460). The controller serves a DRAM request by priority. -/
  | dramAccess (k : Fin 6) (ce : Option (Fin 160)) (ue : Bool)
  /-- REFRESH (R461). tREFI elapses, and the subchannel is refreshed, postponed past a granted burst. -/
  | refresh (k : Fin 6) (sub : Fin 2) (postponed : Bool)
  /-- MR4_POLL (R461). Every 16 ms, MR4 is read, and the refresh interval may halve. -/
  | mr4Poll (k : Fin 6) (hot : Bool)
  /-- CALIBRATION (R464). Every CAL_MS or on a temperature change, a channel is calibrated. -/
  | calibration (k : Fin 6) (margin temp : BitVec 8)
  /-- DRAM_RETRAIN (R465). Low margin or repeated uncorrectable errors start channel retraining. -/
  | dramRetrain (k : Fin 6)
  /-- RETRAIN_SLICE (R465). One retraining slice runs per base tick. -/
  | retrainSlice (k : Fin 6) (found : Bool)
  /-- CHANNEL_RETIRE (R466). Retraining that fails within 400 slices retires the channel. -/
  | channelRetire (k : Fin 6)
  /-- REDIRECT_APPLY (R466). At the next edge, the injecting routers redirect the retired channel's blocks. -/
  | redirectApply
  /-- PATROL_SCRUB (R474). The DRAM patrol scrubber reads the next burst of its ranges. -/
  | patrolScrub (b : BitVec 32) (ce : Option (Fin 160)) (ue : Bool)
  /-- CLUSTER_SCRUB (R474). A cluster scrubber reads the next word in an idle port cycle. -/
  | clusterScrub (c : Fin 20) (w : Fin 2097152) (ce : Option (Fin 72)) (ue : Bool)
  /-- PPR_GO (R475). A write of DRC_PPR_CTRL.GO requests soft repair of a row. -/
  | pprGo (r : Req) (v : Word)
  /-- PPR_WINDOW (R475). At the next base tick edge, the quiesced repair window opens. -/
  | pprWindow
  /-- PPR_DONE (R475). The repair completes, the row is written back and held requests are released. -/
  | pprDone (ok : Bool) (bad : List (BitVec 32))
  /-- CT_FREE (R472). A write to DRC_CT_FREE frees a correction table entry. -/
  | ctFree (r : Req) (v : Word)
  /-- GAIN_CALIBRATION (R480). Once per second, Hayward adjusts estimator gains against regulator readings. -/
  | gainCalibration (core sram : Option Int)
  /-- THERMAL_SAMPLE (R488). Every 10 µs, the junction sensors are read and the thermal state decided. -/
  | thermalSample (ts : List (BitVec 12))
  /-- THERMAL_TRIP (R490). A TRIP comparator reaches 115 °C; THERMTRIP_N asserts and clocks stop. -/
  | thermalTrip
  /-- AVS_MEASURE (R493). Every 1 ms, the ring oscillators are counted and VDD_CORE adjusted. -/
  | avsMeasure (osc : List (BitVec 16)) (margin : BitVec 8) (short surplus : Bool)
  /-- PMBUS_POLL (R494). Every 1 ms, READ_VOUT and READ_IOUT are read. -/
  | pmbusPoll (r : Fin 8) (vi : Option (BitVec 16 × BitVec 16))
  /-- STATUS_POLL (R494). Every 10 ms, STATUS_WORD is read. -/
  | statusPoll (r : Fin 8) (w : Option (BitVec 16))
  /-- PMB_ALERT (R494). PMB_ALERT_N asserts, and STATUS_WORD is read. -/
  | pmbAlert (ws : List (Option (BitVec 16)))
  /-- DOZE_ENTRY (R498). After DOZE_IDLE of idleness, the domain enters Doze. -/
  | dozeEntry (m : Fin 64)
  /-- RETAIN_ENTRY (R498). After RETAIN_IDLE in Doze, the domain enters Retain. -/
  | retainEntry (m : Fin 64)
  /-- DOMAIN_RETURN (R501). A wake input returns a domain to Run through its ready steps. -/
  | domainReturn (m : Fin 64)
  /-- WAKE_FAIL (R502). A ready signal does not rise within 10 µs, and the domain is FAILED. -/
  | wakeFail (m : Fin 64)
  /-- DOM_HOLD_WRITE (R499). A write to ELP_DOM_HOLD holds domains in Run as a level wake. -/
  | domHoldWrite (r : Req) (hi : Bool) (v : Word)
  /-- EVENT_PULSE (R505). A unit pulses EVn, setting its pending flag and routing it. -/
  | eventPulse (n : Fin 384)
  /-- EVF_PEND_CLEAR (R505). A W1C write to EVF_PEND clears pending flags, except EV32 while the queue holds records; events of the same cycle are in same (R8). -/
  | evfPendClear (w : Fin 12) (v same : Word)
  /-- EVENT_FORCE (R538). A write to EVF_FORCE raises a pulse of EVn for test. -/
  | eventForce (v : Word)
  /-- MSIX_UNMASK (R506). A host unmasks a vector, and its pending message is sent. -/
  | msixUnmask (h : Fin 2) (v : Fin 384)
  /-- FAULT_RECORD_ENTRY (R510). A unit reports an error, which enters the fault queue and takes its action. -/
  | faultRecordEntry (cls : Fin 8) (kind : Fin 17) (index : BitVec 8) (core : Option (Fin 8)) (nested : Bool) (addr : BitVec 48) (req : BitVec 10) (detail : Word) (event : BitVec 9)
  /-- FLT_POP (R513). A write of a SEQ to FLT_POP removes the matching record. -/
  | fltPop (v : BitVec 16)
  /-- UNFENCE (R536). A write to FLT_UNFENCE requests release of an engine fence. -/
  | unfence (kind i : BitVec 8)
  /-- UNFENCE_APPLY (R536). At the next base tick edge, the fence is released if no record of the unit is queued. -/
  | unfenceApply (kind i : BitVec 8)
  /-- FALLOW_TEST (R517). Every PERIOD_S, Hayward tests the fallow cluster. -/
  | fallowTest (q : Fin 4)
  /-- FALLOW_TEST_DONE (R517). The fallow test completes, setting READY or FAILED. -/
  | fallowTestDone (q : Fin 4) (pass : Bool)
  /-- ROTATION_START (R522). At edge E − 1 of a rotation, Hayward loads and copies the role to the fallow cluster. -/
  | rotationStart (q : Fin 4)
  /-- ROTATION_FLIP (R522). At edge E, the epoch flips and the rotated cluster takes the fallow role. -/
  | rotationFlip
  /-- AON_HEARTBEAT (R523). Every 1 µs, Hayward on die 0 sends the replica a heartbeat. -/
  | aonHeartbeat
  /-- HEARTBEAT_MISSING (R524). No heartbeat for 4 µs, or a missing edge, is detected by the replica. -/
  | heartbeatMissing
  /-- PROMOTION (R524). At the next edge, the replica is promoted and serves the always-on blocks. -/
  | promotion
  /-- TWIN_ENABLE (R530). A write of TWN_CTRL.EN makes the device STANDBY or DISABLED. -/
  | twinEnable (r : Req) (v : Word)
  /-- TWIN_CELL_RX (R526). A twin cell is received and acted on by type. -/
  | twinCellRx
  /-- TWIN_HEARTBEAT_TX (R526). Every 32 basic frames, a group sends a HEARTBEAT cell. -/
  | twinHeartbeatTx (g : Fin 2)
  /-- MIRROR_EPOCH (R528). At each epoch edge, the marked lines are sent as MIRROR cells and a COMMIT. -/
  | mirrorEpoch
  /-- TWIN_HB_OUT_TOGGLE (R533). Every 1 µs, TWIN_HB_OUT toggles. -/
  | twinHbOutToggle
  /-- TWIN_HB_IN_EDGE (R533). An edge arrives on TWIN_HB_IN. -/
  | twinHbInEdge
  /-- HEARTBEAT_LOSS (R533). Neither cells nor pin edges arrive for HB_TIMEOUT_US, and takeover begins. -/
  | heartbeatLoss
  /-- TAKEOVER (R534). A write of TWN_CTRL.TAKEOVER makes a STANDBY device TAKING_OVER. -/
  | takeover (r : Req)
  /-- TAKEOVER_EDGE (R534). At the next base tick edge, the device becomes ACTIVE. -/
  | takeoverEdge
  /-- STEP_DOWN (R535). At the next edge, one of two ACTIVE devices steps down to STANDBY. -/
  | stepDown
  /-- TWN_MSG_POP (R527). A RD of the TWN_MSG window pops message data. -/
  | twnMsgPop (g : Fin 2) (units : Fin 65) (src : BitVec 10)
  /-- TWN_MSG_PUSH (R527). A WR of the TWN_MSG window pushes message data. -/
  | twnMsgPush (g : Fin 2) (data : List Byte) (src : BitVec 10)
  /-- HOST_TLP (R541). An endpoint turns a host TLP into Lacework requests and completes it. -/
  | hostTlp (h : Fin 2) (t : Tlp)
  /-- HOST_ASLEEP_RETRY (R541). A host request answered ASLEEP is retried after 1 µs. -/
  | hostAsleepRetry (h : Fin 2)
  /-- FLR (R542). A Function Level Reset of an endpoint resets its configuration, MSI-X and mailbox. -/
  | flr (h : Fin 2)
  /-- PCIE_LINK_DOWN (R542). A host link goes down. -/
  | pcieLinkDown (h : Fin 2)
  /-- PCIE_LINK_UP (R542). A host link comes up. -/
  | pcieLinkUp (h : Fin 2)
  /-- SEM_ACQUIRE (R544). A LEN 0 RD of HWD_SEM acquires the semaphore or returns 0. -/
  | semAcquire (n : Fin 128) (src : BitVec 10) (core : Fin 8)
  /-- SEM_RELEASE (R544). A LEN 0 WR of 0 from the owner releases the semaphore. -/
  | semRelease (n : Fin 128) (src : BitVec 10) (core : Fin 8) (v : Word)
  /-- SEM_LINK_RELEASE (R545). 10 ms after a host link goes down, its semaphores are released. -/
  | semLinkRelease (h : Fin 2)
  /-- NET_FRAME_RX (R550). A network port receives a frame and queues, drops or diverts it. -/
  | netFrameRx (p : Fin 4) (tci : Option (BitVec 16)) (data : List Byte) (fcsOk : Bool) (into : Nat)
  /-- NET_FRAME_TX (R550). A port sends a whole queued frame from its highest queue. -/
  | netFrameTx (p : Fin 4) (into : Nat)
  /-- NET_QUEUE_POP (R548). A RD of a receive queue window pops units. -/
  | netQueuePop (q : Fin 16) (units : Fin 65) (src : BitVec 10)
  /-- NET_QUEUE_PUSH (R548). A WR of a transmit queue window pushes units. -/
  | netQueuePush (q : Fin 16) (prov : Bool) (data : List Byte) (src : BitVec 10)
  /-- RXQ_IDLE_FILL (R548). A receive queue below 16 units idle for 1 µs fills with idle units. -/
  | rxqIdleFill (q : Fin 16)
  /-- TXTS_POP (R566). A read of NET_TXTS_TAG pops the oldest transmit stamp. -/
  | txtsPop (r : Req) (p : Fin 4)
  /-- NET_LINK_DOWN (R552). A network port's link goes down. -/
  | netLinkDown (p : Fin 4)
  /-- NET_LINK_UP (R566). A network port's link comes up. -/
  | netLinkUp (p : Fin 4)
  /-- POR_RELEASE (R556). POR_N rises, and the boot sequence runs. -/
  | porRelease (mode : Fin 4) (f : BootFacts)
  /-- POR_ASSERT (R583). POR_N is asserted, a power-on reset of PD_AON. -/
  | porAssert
  /-- GET_INFO (R559). The mailbox command returns the firmware version and boot state. -/
  | getInfo (h : Fin 2) (seq : BitVec 8)
  /-- BOOT_HOST (R559). The mailbox command supplies a host boot phase. -/
  | bootHost (h : Fin 2) (seq : BitVec 8) (f : BootFacts)
  /-- KEY_PROGRAM (R559). The mailbox command programs a key slot. -/
  | keyProgram (h : Fin 2) (seq : BitVec 8) (fuseOk : Bool)
  /-- KEY_REVOKE (R559). The mailbox command revokes a key slot. -/
  | keyRevoke (h : Fin 2) (seq : BitVec 8) (fuseOk : Bool)
  /-- SET_MIN_SEC_VER (R559). The mailbox command raises the fused minimum security version. -/
  | setMinSecVer (h : Fin 2) (seq : BitVec 8) (fuseOk : Bool)
  /-- FLASH_SET (R559). The mailbox command writes a new image and pricking set to flash. -/
  | flashSet (h : Fin 2) (seq : BitVec 8) (flashOk : Bool)
  /-- RECORD_READ (R559). The mailbox command copies the flash record to DRAM. -/
  | recordRead (h : Fin 2) (seq : BitVec 8) (flashOk : Bool)
  /-- ESMC_GET (R559). The mailbox command returns received and sent SSM codes. -/
  | esmcGet (h : Fin 2) (seq : BitVec 8)
  /-- ESMC_SET (R559). The mailbox command sets the SSM code sent on ports. -/
  | esmcSet (h : Fin 2) (seq : BitVec 8)
  /-- PREPARE_REMOVAL (R562). The mailbox command takes the device down for removal. -/
  | prepareRemoval (h : Fin 2) (seq : BitVec 8)
  /-- CANCEL_REMOVAL (R563). The mailbox command cancels a removal before step 5. -/
  | cancelRemoval (h : Fin 2) (seq : BitVec 8)
  /-- MAILBOX_RESPONSE (R558). Hayward finishes a command and writes its response, raising EV0 or EV1. -/
  | mailboxResponse
  /-- HAYWARD_WATCHDOG (R560). Hayward is restarted by its watchdog, and a command in progress answers RESTARTED. -/
  | haywardWatchdog
  /-- FLASH_RECORD_WRITE (R557). Hayward writes the older flash record copy after a change or every hour. -/
  | flashRecordWrite (ok : Bool)
  /-- HPM_CLR (R567). A write of CX_HPM_CTL.CLR sets a counter to 0. -/
  | hpmClr (c : Fin 20) (k n : Fin 8)
  /-- CLUSTER_DUMP (R571). At an edge with TICK mod EVERY = 0, the cluster snapshots its counters to the ring. -/
  | clusterDump (c : Fin 20)
  /-- TELEMETRY_RECORD (R576). After each edge with TICK mod 8 = 0, Hayward writes a telemetry record. -/
  | telemetryRecord (part : Bool)
  /-- DEBUG_HALT (R578). A write of CLU_DBG_CTRL.HALT halts or resumes a core. -/
  | debugHalt (r : Req) (c : Fin 20) (v : BitVec 8)
  /-- DEBUG_STEP (R578). A write of CLU_DBG_CTRL.STEP lets a halted core commit one bundle. -/
  | debugStep (r : Req) (c : Fin 20) (v : BitVec 8)
  /-- DEBUG_LOCK (R579). A write of 1 to HWD_DBG.LOCK locks debug and resumes halted cores. -/
  | debugLock
  /-- TAP_RESET (R592). The JTAG port is reset by VDD_AON rise, TRST_N or five TMS-high cycles. -/
  | tapReset
  /-- IDCODE (R593). The JTAG instruction selecting the IDCODE register. -/
  | idcode
  /-- SAMPLE_PRELOAD (R593). The JTAG instruction sampling and preloading the boundary register. -/
  | samplePreload (captured preload : Nat)
  /-- EXTEST (R595). The JTAG instruction driving balls from the boundary register. -/
  | extest
  /-- CLAMP (R595). The JTAG instruction clamping outputs with bypass selected. -/
  | clamp
  /-- HIGHZ (R595). The JTAG instruction placing outputs in high impedance. -/
  | highz
  /-- EXTEST_PULSE (R595). The IEEE 1149.6 EXTEST_PULSE instruction. -/
  | extestPulse
  /-- EXTEST_TRAIN (R595). The IEEE 1149.6 EXTEST_TRAIN instruction. -/
  | extestTrain
  /-- BYPASS (R593). The JTAG instruction selecting the bypass register. -/
  | bypass
  /-- DBG_LWK (R594). At Update-DR of DBG_LWK, a Lacework RD or WR is sent from the always-on node. -/
  | dbgLwk (dr : BitVec 96) (settled : Bool)
  /-- DBG_LWK_CAPTURE (R594). At Capture-DR of DBG_LWK, the response or DONE 0 is loaded. -/
  | dbgLwkCapture (ready : Bool)
  /-- REGISTER_WRITE (R67). A write to a register with no row of its own, discarded and recorded when pricking-owned; same holds the bits that hardware sets in its cycle (R8). -/
  | registerWrite (r : Req) (off : BitVec 26) (v same : Word)
  /-- QUAD_PLL_LOCK (R169). A quad PLL gains lock on its reference, setting its RLN_STATUS.PLL_LOCK bit so that its lanes can regain block lock. -/
  | quadPllLock (k : Fin 20)
  /-- SYNCE_LOCK_GAINED (R48). The PLL locks to REFCLK_NET, and TTB_STATUS.SYNCE_LOCK rises. -/
  | synceLockGained
  /-- LANE_ADAPTATION (R162). While a lane is UP, its receiver changes one CTLE or DFE setting by one step, at most once every 10 µs, updating EYE_MV and ADAPT_LIMIT. -/
  | laneAdaptation (n : Fin 80) (k : Nat) (up : Bool) (eye : BitVec 8) (limit : Bool)
  /-- HI_BER (R552). A network port's PCS asserts or clears its hi_ber condition, which sets cause HI_BER and NET_PORT_STATUS.HI_BER. -/
  | hiBer (p : Fin 4) (on_ : Bool)
  /-- SILENT_PATH_TIMEOUT (R533). One of the two twin heartbeat paths (cells or the TWIN_HB_IN pin) stays silent for HB_TIMEOUT_US, raising LINK_DOWN or PIN_LOST and changing no role. -/
  | silentPathTimeout (pin : Bool)
  deriving DecidableEq, Repr

end Sys2Proof
end

