-- ==== Sys2Proof/Decode.lean ====
section
/-! DEFINITION. Commands that words spell: no row of spec/opcode_table.json gives fields, so no word spells one. -/

namespace Sys2Proof

/-- The command that a word spells by the table's bits: the table gives none. -/
def decodeTableWord (_nbits _w : Nat) : Option Instr := none

end Sys2Proof
end

