-- ==== Sys2Proof/Config.lean ====
section
/-! DEFINITION. What the spec leaves open or fixes only outside its own pages, as constants with no
body: nothing can be proved about their values, so every statement about the device holds for
every choice of them. A plain number argument n is a fresh draw: the device's counter of free
values (State) says which. -/

namespace Sys2Proof.Config

/-- The n-th open value of the device, as a natural number the reader cuts to its width (log entry 4). -/
opaque free : Nat → Nat

/-- The n-th open choice between two outcomes (log entry 4). -/
opaque freeBool : Nat → Bool

/-- A measured duration in nanoseconds or cycles: the model keeps no time inside a base tick (log entry 5). -/
opaque measured : Nat → Nat

/-- The fixed latency in nanoseconds by which a stamp of a mode is corrected, held in silicon (R52; log entry 50). Modes:
0 to 3 of a network port by its rate, 4 to 6 of a radio lane by its MODE, 7 of a TBCP, 8 of PPS_IN. -/
opaque stampLatency : Nat → Int

/-- The numerology a CARRIER section's payload sets, read modulo 5 as the rows of R30: the payload's
layout is given nowhere (log entry 10). -/
opaque carrierNumer : List Byte → Nat

/-- The panel a CARRIER section's payload binds its carrier to (log entry 10). -/
opaque carrierPanel : List Byte → Nat

/-- The quadrant of the FEC group a CHAIN section's payload names, read modulo 4 (log entry 10). -/
opaque chainGroup : List Byte → Nat

/-- The engine kinds a carrier requires, as bits, and the tiles it needs, from its CARRIER section's payload (log entry 10). -/
opaque carrierKinds : List Byte → Nat
opaque carrierTiles : List Byte → Nat

/-- The PRBs of a carrier, from its CARRIER section's payload (log entry 10). -/
opaque carrierPrbs : List Byte → Nat

/-- Where the context block of a carrier lies in a panel's cluster memories: from the CARRIER section's
payload and the panel (log entry 10). -/
opaque contextAddr : List Byte → Nat → Nat

/-- The bytes of a carrier's context block, read modulo 256 KiB plus 1 (log entry 10). -/
opaque contextLen : List Byte → Nat

/-- The numeric result of a signal-processing kernel: its kind, its parameters, its input bytes, and
which part of the result is asked for. The spec gives the formulas and no rounding, so nothing fixes
the result's bits (log entry 11). -/
opaque kernel : Nat → List Nat → List Byte → Nat → Nat

end Sys2Proof.Config
end

