-- ==== Sys2Proof/Machine/Tab.lean ====
section
/-! DEFINITION. A sparse table: a list of key and value pairs in one canonical form. Keys rise
strictly, and no entry equals what an unlisted key reads as. The register file, the memory and
every array of like units are held this way, so that equal contents are equal data. -/

namespace Sys2Proof.Machine

/-- A sparse table from numbers to values. -/
abbrev Tab (α : Type) := List (Nat × α)

variable {α : Type}

/-- The value at key k; an unlisted key reads as dflt k. -/
def tabGet (dflt : Nat → α) : Tab α → Nat → α
  | [], k => dflt k
  | (j, v) :: t, k => if j = k then v else tabGet dflt t k

/-- The table without key k. -/
def tabDel : Tab α → Nat → Tab α
  | [], _ => []
  | (j, v) :: t, k => if j = k then tabDel t k else (j, v) :: tabDel t k

/-- The table with key k bound to v, kept in rising order. -/
def tabIns : Tab α → Nat → α → Tab α
  | [], k, v => [(k, v)]
  | (j, w) :: t, k, v =>
    if k < j then (k, v) :: (j, w) :: t
    else if k = j then (k, v) :: t
    else (j, w) :: tabIns t k v

/-- Writes v at key k in place of what was there: no entry when v is what an unlisted key reads as. -/
def tabSet [DecidableEq α] (dflt : Nat → α) (t : Tab α) (k : Nat) (v : α) : Tab α :=
  if v = dflt k then tabDel t k else tabIns (tabDel t k) k v

/-- Every key of the table is above lo, and keys rise. -/
def tabAbove : Tab α → Nat → Bool
  | [], _ => true
  | (j, _) :: t, lo => decide (lo < j) && tabAbove t j

/-- Keys rise strictly. -/
def tabSorted : Tab α → Bool
  | [] => true
  | (j, _) :: t => tabAbove t j

/-- No entry equals what its key reads as when unlisted. -/
def tabTrim [DecidableEq α] (dflt : Nat → α) : Tab α → Bool
  | [] => true
  | (j, v) :: t => decide (v ≠ dflt j) && tabTrim dflt t

/-- The canonical form. -/
def tabWf [DecidableEq α] (dflt : Nat → α) (t : Tab α) : Bool := tabSorted t && tabTrim dflt t

end Sys2Proof.Machine
end

