-- ==== Sys2Proof/Machine/RegFile.lean ====
section
/-! DEFINITION. The form of the register map: a field of a register, the access codes of R6, and
the rows the block tables are written in. -/

namespace Sys2Proof.Machine

/-- Bits [hi:lo] of the 32-bit register at BAR0 offset reg. -/
structure Fld where
  reg : Nat
  hi : Nat
  lo : Nat
  deriving DecidableEq, Repr

/-- A field lies in its register. -/
def Fld.Ok (f : Fld) : Prop := f.lo ≤ f.hi ∧ f.hi < 32

/-- Two fields share no bit. -/
def Fld.Apart (f g : Fld) : Prop := f.reg ≠ g.reg ∨ f.hi < g.lo ∨ g.hi < f.lo

/-- The access codes of R6. -/
inductive Acc where
  | rw | ro | wo | w1c | rc | rws
  deriving DecidableEq, Repr

/-- A field as a block table gives it: its bits, access code and reset value, and whether the
pricking owns it (reset "P", R7 and R67). -/
structure FieldSpec where
  hi : Nat
  lo : Nat
  acc : Acc
  reset : Nat
  owned : Bool
  deriving DecidableEq, Repr

/-- A field that is not owned by the pricking. -/
def fs (f : Fld) (a : Acc) (r : Nat) : FieldSpec := ⟨f.hi, f.lo, a, r, false⟩

/-- A field whose value comes from the pricking. -/
def fp (f : Fld) (a : Acc) (r : Nat) : FieldSpec := ⟨f.hi, f.lo, a, r, true⟩

/-- A register, or an array of registers with one count and stride per index, widest first. -/
structure RegRow where
  base : Nat
  dims : List (Nat × Nat)
  fields : List FieldSpec
  deriving DecidableEq, Repr

/-- Whether the distance d from the first register of a row is a whole set of indexes. -/
def dimsHit : List (Nat × Nat) → Nat → Bool
  | [], d => d == 0
  | (c, st) :: t, d => decide (d / st < c) && dimsHit t (d % st)

/-- Whether the row holds the register at an offset. -/
def RegRow.holds (r : RegRow) (off : Nat) : Bool :=
  decide (r.base ≤ off) && dimsHit r.dims (off - r.base)

/-- The register word all of whose fields hold their reset values. -/
def RegRow.resetWord (r : RegRow) : Word :=
  BitVec.ofNat 32 (r.fields.foldl (fun n f => putBits n f.hi f.lo f.reset) 0)

end Sys2Proof.Machine
end

