-- ==== Sys2Proof/Machine/Regs.lean ====
section
/-! DEFINITION. The register map of the device: one name per register and per field, at the
BAR0 offsets of R25 and the block tables of the chapters (the rule stands beside each register). -/

namespace Sys2Proof.Machine.R

/-! ### HWD -/
/-- R565: register HWD_ID. -/
def HWD_ID : Nat := 0x0
def HWD_ID_DEVICE : Fld := ⟨HWD_ID, 15, 0⟩
def HWD_ID_REV : Fld := ⟨HWD_ID, 23, 16⟩
def HWD_ID_GRADE : Fld := ⟨HWD_ID, 24, 24⟩
/-- R565: register HWD_FW_VER. -/
def HWD_FW_VER : Nat := 0x4
def HWD_FW_VER_VER : Fld := ⟨HWD_FW_VER, 31, 0⟩
/-- R565: register HWD_BOOT. -/
def HWD_BOOT : Nat := 0x8
def HWD_BOOT_STAGE : Fld := ⟨HWD_BOOT, 3, 0⟩
def HWD_BOOT_MODE : Fld := ⟨HWD_BOOT, 5, 4⟩
def HWD_BOOT_SET : Fld := ⟨HWD_BOOT, 6, 6⟩
def HWD_BOOT_HOST_WAIT : Fld := ⟨HWD_BOOT, 7, 7⟩
def HWD_BOOT_ERR : Fld := ⟨HWD_BOOT, 11, 8⟩
/-- R565: register HWD_EV_CAUSE. -/
def HWD_EV_CAUSE : Nat := 0x10
def HWD_EV_CAUSE_MBX_A : Fld := ⟨HWD_EV_CAUSE, 0, 0⟩
def HWD_EV_CAUSE_MBX_B : Fld := ⟨HWD_EV_CAUSE, 1, 1⟩
def HWD_EV_CAUSE_FLASH_ERR : Fld := ⟨HWD_EV_CAUSE, 2, 2⟩
def HWD_EV_CAUSE_REMOVAL_READY : Fld := ⟨HWD_EV_CAUSE, 3, 3⟩
def HWD_EV_CAUSE_REMOVAL_FAILED : Fld := ⟨HWD_EV_CAUSE, 4, 4⟩
def HWD_EV_CAUSE_LINK_UP : Fld := ⟨HWD_EV_CAUSE, 6, 5⟩
def HWD_EV_CAUSE_LINK_DOWN : Fld := ⟨HWD_EV_CAUSE, 8, 7⟩
def HWD_EV_CAUSE_FLR : Fld := ⟨HWD_EV_CAUSE, 10, 9⟩
def HWD_EV_CAUSE_ACCESS_ERR : Fld := ⟨HWD_EV_CAUSE, 12, 11⟩
def HWD_EV_CAUSE_SEM_RELEASED : Fld := ⟨HWD_EV_CAUSE, 14, 13⟩
def HWD_EV_CAUSE_SEM_FENCED : Fld := ⟨HWD_EV_CAUSE, 15, 15⟩
/-- R565: register HWD_HOST_CTRL. -/
def HWD_HOST_CTRL : Nat := 0x40
def HWD_HOST_CTRL_ERR_MODE : Fld := ⟨HWD_HOST_CTRL, 0, 0⟩
def HWD_HOST_CTRL_ASLEEP_RETRY : Fld := ⟨HWD_HOST_CTRL, 4, 1⟩
/-- R565: register HWD_HOST_ERR. -/
def HWD_HOST_ERR (p : Nat) : Nat := 0x50 + 0x10 * p
def HWD_HOST_ERR_RESP (p : Nat) : Fld := ⟨HWD_HOST_ERR p, 2, 0⟩
def HWD_HOST_ERR_CAUSE (p : Nat) : Fld := ⟨HWD_HOST_ERR p, 6, 3⟩
def HWD_HOST_ERR_WRITE (p : Nat) : Fld := ⟨HWD_HOST_ERR p, 7, 7⟩
def HWD_HOST_ERR_COUNT (p : Nat) : Fld := ⟨HWD_HOST_ERR p, 31, 16⟩
/-- R565: register HWD_HOST_ERR_ADDR_LO. -/
def HWD_HOST_ERR_ADDR_LO (p : Nat) : Nat := 0x54 + 0x10 * p
def HWD_HOST_ERR_ADDR_LO_ADDR (p : Nat) : Fld := ⟨HWD_HOST_ERR_ADDR_LO p, 31, 0⟩
/-- R565: register HWD_HOST_ERR_ADDR_HI. -/
def HWD_HOST_ERR_ADDR_HI (p : Nat) : Nat := 0x58 + 0x10 * p
def HWD_HOST_ERR_ADDR_HI_ADDR (p : Nat) : Fld := ⟨HWD_HOST_ERR_ADDR_HI p, 15, 0⟩
/-- R565: register HWD_STAGE_PAGE. -/
def HWD_STAGE_PAGE : Nat := 0x80
def HWD_STAGE_PAGE_PAGE : Fld := ⟨HWD_STAGE_PAGE, 3, 0⟩
/-- R565: register HWD_MBX_ARG. -/
def HWD_MBX_ARG (p : Nat) (n : Nat) : Nat := 0x100 + 0x100 * p + 0x4 * n
def HWD_MBX_ARG_ARG (p : Nat) (n : Nat) : Fld := ⟨HWD_MBX_ARG p n, 31, 0⟩
/-- R565: register HWD_MBX_CMD. -/
def HWD_MBX_CMD (p : Nat) : Nat := 0x120 + 0x100 * p
def HWD_MBX_CMD_CODE (p : Nat) : Fld := ⟨HWD_MBX_CMD p, 7, 0⟩
def HWD_MBX_CMD_SEQ (p : Nat) : Fld := ⟨HWD_MBX_CMD p, 15, 8⟩
/-- R565: register HWD_MBX_RSP. -/
def HWD_MBX_RSP (p : Nat) : Nat := 0x124 + 0x100 * p
def HWD_MBX_RSP_STATUS (p : Nat) : Fld := ⟨HWD_MBX_RSP p, 2, 0⟩
def HWD_MBX_RSP_BUSY (p : Nat) : Fld := ⟨HWD_MBX_RSP p, 3, 3⟩
def HWD_MBX_RSP_DONE (p : Nat) : Fld := ⟨HWD_MBX_RSP p, 4, 4⟩
def HWD_MBX_RSP_LOST (p : Nat) : Fld := ⟨HWD_MBX_RSP p, 5, 5⟩
def HWD_MBX_RSP_SEQ (p : Nat) : Fld := ⟨HWD_MBX_RSP p, 15, 8⟩
/-- R565: register HWD_MBX_DATA. -/
def HWD_MBX_DATA (p : Nat) (n : Nat) : Nat := 0x140 + 0x100 * p + 0x4 * n
def HWD_MBX_DATA_DATA (p : Nat) (n : Nat) : Fld := ⟨HWD_MBX_DATA p n, 31, 0⟩
/-- R577: register HWD_TLM_CTRL. -/
def HWD_TLM_CTRL : Nat := 0xc00
def HWD_TLM_CTRL_EN : Fld := ⟨HWD_TLM_CTRL, 0, 0⟩
/-- R577: register HWD_TLM_BASE_LO. -/
def HWD_TLM_BASE_LO : Nat := 0xc04
def HWD_TLM_BASE_LO_ADDR : Fld := ⟨HWD_TLM_BASE_LO, 31, 0⟩
/-- R577: register HWD_TLM_BASE_HI. -/
def HWD_TLM_BASE_HI : Nat := 0xc08
def HWD_TLM_BASE_HI_ADDR : Fld := ⟨HWD_TLM_BASE_HI, 15, 0⟩
/-- R577: register HWD_TLM_SIZE. -/
def HWD_TLM_SIZE : Nat := 0xc0c
def HWD_TLM_SIZE_SIZE : Fld := ⟨HWD_TLM_SIZE, 15, 0⟩
/-- R577: register HWD_TLM_WR. -/
def HWD_TLM_WR : Nat := 0xc10
def HWD_TLM_WR_WR : Fld := ⟨HWD_TLM_WR, 15, 0⟩
/-- R577: register HWD_TLM_RD. -/
def HWD_TLM_RD : Nat := 0xc14
def HWD_TLM_RD_RD : Fld := ⟨HWD_TLM_RD, 15, 0⟩
/-- R577: register HWD_TLM_LOST. -/
def HWD_TLM_LOST : Nat := 0xc18
def HWD_TLM_LOST_COUNT : Fld := ⟨HWD_TLM_LOST, 31, 0⟩
/-- R577: register HWD_DBG. -/
def HWD_DBG : Nat := 0xc40
def HWD_DBG_LOCK : Fld := ⟨HWD_DBG, 0, 0⟩
/-- R565: register HWD_SEM. -/
def HWD_SEM (s : Nat) : Nat := 0x1000 + 0x4 * s
def HWD_SEM_SEM (s : Nat) : Fld := ⟨HWD_SEM s, 0, 0⟩
/-- R565: register HWD_SEM_OWNER. -/
def HWD_SEM_OWNER (s : Nat) : Nat := 0x1200 + 0x4 * s
def HWD_SEM_OWNER_OWNER (s : Nat) : Fld := ⟨HWD_SEM_OWNER s, 7, 0⟩
/-- R565: register HWD_STAGE. -/
def HWD_STAGE (w : Nat) : Nat := 0x40000 + 0x4 * w
def HWD_STAGE_DATA (w : Nat) : Fld := ⟨HWD_STAGE w, 31, 0⟩

/-! ### EVF -/
/-- R538: register EVF_PEND. -/
def EVF_PEND (w : Nat) : Nat := 0x100000 + 0x4 * w
def EVF_PEND_PEND (w : Nat) : Fld := ⟨EVF_PEND w, 31, 0⟩
/-- R538: register EVF_NEXT. -/
def EVF_NEXT : Nat := 0x100040
def EVF_NEXT_EV : Fld := ⟨EVF_NEXT, 8, 0⟩
def EVF_NEXT_VALID : Fld := ⟨EVF_NEXT, 31, 31⟩
/-- R538: register EVF_FORCE. -/
def EVF_FORCE : Nat := 0x100044
def EVF_FORCE_EV : Fld := ⟨EVF_FORCE, 8, 0⟩
/-- R538: register EVF_ROUTE. -/
def EVF_ROUTE (n : Nat) : Nat := 0x101000 + 0x4 * n
def EVF_ROUTE_HOST_A (n : Nat) : Fld := ⟨EVF_ROUTE n, 0, 0⟩
def EVF_ROUTE_HOST_B (n : Nat) : Fld := ⟨EVF_ROUTE n, 1, 1⟩
def EVF_ROUTE_CORE_EN (n : Nat) : Fld := ⟨EVF_ROUTE n, 2, 2⟩
def EVF_ROUTE_TGT_LC (n : Nat) : Fld := ⟨EVF_ROUTE n, 7, 3⟩
def EVF_ROUTE_TGT_CORE (n : Nat) : Fld := ⟨EVF_ROUTE n, 10, 8⟩

/-! ### TTB -/
/-- R55: register TTB_CTRL. -/
def TTB_CTRL : Nat := 0x200000
def TTB_CTRL_SOURCE : Fld := ⟨TTB_CTRL, 1, 0⟩
def TTB_CTRL_PROFILE : Fld := ⟨TTB_CTRL, 2, 2⟩
def TTB_CTRL_SERVO_HOST : Fld := ⟨TTB_CTRL, 3, 3⟩
def TTB_CTRL_RUN_UNLOCKED : Fld := ⟨TTB_CTRL, 4, 4⟩
def TTB_CTRL_SYNCE_EN : Fld := ⟨TTB_CTRL, 5, 5⟩
def TTB_CTRL_SYNCE_LANE : Fld := ⟨TTB_CTRL, 8, 6⟩
def TTB_CTRL_PTP_DOMAIN : Fld := ⟨TTB_CTRL, 23, 16⟩
def TTB_CTRL_ANNOUNCE_TIMEOUT : Fld := ⟨TTB_CTRL, 27, 24⟩
/-- R55: register TTB_STATUS. -/
def TTB_STATUS : Nat := 0x200004
def TTB_STATUS_STATE : Fld := ⟨TTB_STATUS, 2, 0⟩
def TTB_STATUS_PPS_IN_PRESENT : Fld := ⟨TTB_STATUS, 3, 3⟩
def TTB_STATUS_SYNCE_LOCK : Fld := ⟨TTB_STATUS, 4, 4⟩
def TTB_STATUS_STEP_PENDING : Fld := ⟨TTB_STATUS, 5, 5⟩
def TTB_STATUS_STEP_REFUSED : Fld := ⟨TTB_STATUS, 6, 6⟩
def TTB_STATUS_SLEW_LIMITED : Fld := ⟨TTB_STATUS, 7, 7⟩
def TTB_STATUS_REFUSED : Fld := ⟨TTB_STATUS, 8, 8⟩
def TTB_STATUS_FRAME_PENDING : Fld := ⟨TTB_STATUS, 9, 9⟩
def TTB_STATUS_OFFSET_NS : Fld := ⟨TTB_STATUS, 31, 16⟩
/-- R56: register TTB_TICK_LO. -/
def TTB_TICK_LO : Nat := 0x200008
def TTB_TICK_LO_TICK_LO : Fld := ⟨TTB_TICK_LO, 31, 0⟩
/-- R56: register TTB_TICK_HI. -/
def TTB_TICK_HI : Nat := 0x20000c
def TTB_TICK_HI_TICK_HI : Fld := ⟨TTB_TICK_HI, 31, 0⟩
/-- R56: register TTB_TOD_NS. -/
def TTB_TOD_NS : Nat := 0x200010
def TTB_TOD_NS_NS : Fld := ⟨TTB_TOD_NS, 31, 0⟩
/-- R56: register TTB_TOD_SEC_LO. -/
def TTB_TOD_SEC_LO : Nat := 0x200014
def TTB_TOD_SEC_LO_SEC_LO : Fld := ⟨TTB_TOD_SEC_LO, 31, 0⟩
/-- R56: register TTB_TOD_SEC_HI. -/
def TTB_TOD_SEC_HI : Nat := 0x200018
def TTB_TOD_SEC_HI_SEC_HI : Fld := ⟨TTB_TOD_SEC_HI, 15, 0⟩
/-- R55: register TTB_FRAME. -/
def TTB_FRAME : Nat := 0x20001c
def TTB_FRAME_FRAME_OFS : Fld := ⟨TTB_FRAME, 6, 0⟩
def TTB_FRAME_SFN_OFS : Fld := ⟨TTB_FRAME, 25, 16⟩
/-- R56: register TTB_FREQ_ADJ. -/
def TTB_FREQ_ADJ : Nat := 0x200020
def TTB_FREQ_ADJ_ADJ : Fld := ⟨TTB_FREQ_ADJ, 31, 0⟩
/-- R56: register TTB_SLEW_LIMIT. -/
def TTB_SLEW_LIMIT : Nat := 0x200024
def TTB_SLEW_LIMIT_LIMIT : Fld := ⟨TTB_SLEW_LIMIT, 20, 0⟩
/-- R56: register TTB_STEP_NS. -/
def TTB_STEP_NS : Nat := 0x200028
def TTB_STEP_NS_NS : Fld := ⟨TTB_STEP_NS, 31, 0⟩
/-- R56: register TTB_STEP_SEC. -/
def TTB_STEP_SEC : Nat := 0x20002c
def TTB_STEP_SEC_SEC : Fld := ⟨TTB_STEP_SEC, 31, 0⟩
/-- R56: register TTB_STEP_CTRL. -/
def TTB_STEP_CTRL : Nat := 0x200030
def TTB_STEP_CTRL_GO : Fld := ⟨TTB_STEP_CTRL, 0, 0⟩
def TTB_STEP_CTRL_FORCE : Fld := ⟨TTB_STEP_CTRL, 1, 1⟩
/-- R56: register TTB_PPS_CTRL. -/
def TTB_PPS_CTRL : Nat := 0x200034
def TTB_PPS_CTRL_OUT_EN : Fld := ⟨TTB_PPS_CTRL, 0, 0⟩
def TTB_PPS_CTRL_OUT_WIDTH_MS : Fld := ⟨TTB_PPS_CTRL, 15, 8⟩
def TTB_PPS_CTRL_IN_EN : Fld := ⟨TTB_PPS_CTRL, 16, 16⟩
def TTB_PPS_CTRL_IN_EDGE : Fld := ⟨TTB_PPS_CTRL, 17, 17⟩
/-- R56: register TTB_PPS_IN_NS. -/
def TTB_PPS_IN_NS : Nat := 0x200038
def TTB_PPS_IN_NS_NS : Fld := ⟨TTB_PPS_IN_NS, 31, 0⟩
/-- R56: register TTB_UTC_OFS. -/
def TTB_UTC_OFS : Nat := 0x20003c
def TTB_UTC_OFS_OFS : Fld := ⟨TTB_UTC_OFS, 15, 0⟩
def TTB_UTC_OFS_LEAP61 : Fld := ⟨TTB_UTC_OFS, 16, 16⟩
def TTB_UTC_OFS_LEAP59 : Fld := ⟨TTB_UTC_OFS, 17, 17⟩

/-! ### PKL -/
/-- R88: register PKL_CTRL. -/
def PKL_CTRL : Nat := 0x300000
def PKL_CTRL_CMD : Fld := ⟨PKL_CTRL, 2, 0⟩
def PKL_CTRL_PANEL : Fld := ⟨PKL_CTRL, 12, 8⟩
def PKL_CTRL_FORCE : Fld := ⟨PKL_CTRL, 13, 13⟩
/-- R88: register PKL_STATUS. -/
def PKL_STATUS : Nat := 0x300004
def PKL_STATUS_BUSY : Fld := ⟨PKL_STATUS, 0, 0⟩
def PKL_STATUS_STAGED : Fld := ⟨PKL_STATUS, 1, 1⟩
def PKL_STATUS_STAGED_KIND : Fld := ⟨PKL_STATUS, 2, 2⟩
def PKL_STATUS_STAGED_PANEL : Fld := ⟨PKL_STATUS, 7, 3⟩
def PKL_STATUS_ERR : Fld := ⟨PKL_STATUS, 8, 8⟩
def PKL_STATUS_RESTART_LATE : Fld := ⟨PKL_STATUS, 9, 9⟩
def PKL_STATUS_OPEN : Fld := ⟨PKL_STATUS, 10, 10⟩
def PKL_STATUS_REQ : Fld := ⟨PKL_STATUS, 13, 11⟩
/-- R88: register PKL_ERR. -/
def PKL_ERR : Nat := 0x300008
def PKL_ERR_CODE : Fld := ⟨PKL_ERR, 7, 0⟩
def PKL_ERR_DETAIL : Fld := ⟨PKL_ERR, 15, 8⟩
def PKL_ERR_SECTION : Fld := ⟨PKL_ERR, 27, 16⟩
def PKL_ERR_REQ : Fld := ⟨PKL_ERR, 30, 28⟩
/-- R88: register PKL_SRC_LO. -/
def PKL_SRC_LO : Nat := 0x30000c
def PKL_SRC_LO_ADDR_LO : Fld := ⟨PKL_SRC_LO, 31, 0⟩
/-- R88: register PKL_SRC_HI. -/
def PKL_SRC_HI : Nat := 0x300010
def PKL_SRC_HI_ADDR_HI : Fld := ⟨PKL_SRC_HI, 15, 0⟩
/-- R88: register PKL_LEN. -/
def PKL_LEN : Nat := 0x300014
def PKL_LEN_LEN : Fld := ⟨PKL_LEN, 22, 0⟩
/-- R88: register PKL_STOP_TICK. -/
def PKL_STOP_TICK : Nat := 0x300018
def PKL_STOP_TICK_TICK : Fld := ⟨PKL_STOP_TICK, 31, 0⟩
/-- R88: register PKL_RESTART_TICK. -/
def PKL_RESTART_TICK : Nat := 0x30001c
def PKL_RESTART_TICK_TICK : Fld := ⟨PKL_RESTART_TICK, 31, 0⟩
/-- R88: register PKL_ACTIVE_ID. -/
def PKL_ACTIVE_ID : Nat := 0x300020
def PKL_ACTIVE_ID_ID : Fld := ⟨PKL_ACTIVE_ID, 31, 0⟩
/-- R88: register PKL_PANEL_DEF. -/
def PKL_PANEL_DEF : Nat := 0x300024
def PKL_PANEL_DEF_DEF : Fld := ⟨PKL_PANEL_DEF, 19, 0⟩
/-- R88: register PKL_PANEL_RUN. -/
def PKL_PANEL_RUN : Nat := 0x300028
def PKL_PANEL_RUN_RUN : Fld := ⟨PKL_PANEL_RUN, 19, 0⟩
/-- R88: register PKL_PANEL_ID. -/
def PKL_PANEL_ID : Nat := 0x30002c
def PKL_PANEL_ID_ID : Fld := ⟨PKL_PANEL_ID, 31, 0⟩
/-- R88: register PKL_PANEL_SEL. -/
def PKL_PANEL_SEL : Nat := 0x300030
def PKL_PANEL_SEL_PANEL : Fld := ⟨PKL_PANEL_SEL, 4, 0⟩
/-- R88: register PKL_KEY_STATUS. -/
def PKL_KEY_STATUS : Nat := 0x300034
def PKL_KEY_STATUS_PROG : Fld := ⟨PKL_KEY_STATUS, 3, 0⟩
def PKL_KEY_STATUS_REVOKED : Fld := ⟨PKL_KEY_STATUS, 7, 4⟩
def PKL_KEY_STATUS_MIN_SEC_VER : Fld := ⟨PKL_KEY_STATUS, 13, 8⟩
/-- R88: register PKL_MIG_CTRL. -/
def PKL_MIG_CTRL : Nat := 0x300040
def PKL_MIG_CTRL_GO : Fld := ⟨PKL_MIG_CTRL, 0, 0⟩
def PKL_MIG_CTRL_CARRIER : Fld := ⟨PKL_MIG_CTRL, 13, 8⟩
def PKL_MIG_CTRL_DEST : Fld := ⟨PKL_MIG_CTRL, 20, 16⟩
/-- R88: register PKL_MIG_TICK. -/
def PKL_MIG_TICK : Nat := 0x300044
def PKL_MIG_TICK_E : Fld := ⟨PKL_MIG_TICK, 31, 0⟩
/-- R88: register PKL_MIG_STATUS. -/
def PKL_MIG_STATUS : Nat := 0x300048
def PKL_MIG_STATUS_STATE : Fld := ⟨PKL_MIG_STATUS, 1, 0⟩
def PKL_MIG_STATUS_RESULT : Fld := ⟨PKL_MIG_STATUS, 15, 8⟩
def PKL_MIG_STATUS_DEFERRED : Fld := ⟨PKL_MIG_STATUS, 19, 16⟩
/-- R88: register PKL_CARRIER_MAP. -/
def PKL_CARRIER_MAP (n : Nat) : Nat := 0x300100 + 0x4 * n
def PKL_CARRIER_MAP_PANEL (n : Nat) : Fld := ⟨PKL_CARRIER_MAP n, 4, 0⟩
def PKL_CARRIER_MAP_VALID (n : Nat) : Fld := ⟨PKL_CARRIER_MAP n, 5, 5⟩

/-! ### ELP -/
/-- R504: register ELP_CTRL. -/
def ELP_CTRL : Nat := 0x400000
def ELP_CTRL_EV_SHED_ALL : Fld := ⟨ELP_CTRL, 0, 0⟩
def ELP_CTRL_AVS_EN : Fld := ⟨ELP_CTRL, 1, 1⟩
def ELP_CTRL_THERM_SOFT : Fld := ⟨ELP_CTRL, 15, 8⟩
def ELP_CTRL_THERM_HYST : Fld := ⟨ELP_CTRL, 19, 16⟩
def ELP_CTRL_MIG_ECLASS : Fld := ⟨ELP_CTRL, 27, 24⟩
/-- R504: register ELP_ENVELOPE. -/
def ELP_ENVELOPE : Nat := 0x400004
def ELP_ENVELOPE_ENV : Fld := ⟨ELP_ENVELOPE, 9, 0⟩
/-- R504: register ELP_BUDGET. -/
def ELP_BUDGET : Nat := 0x400008
def ELP_BUDGET_D_UJ : Fld := ⟨ELP_BUDGET, 15, 0⟩
def ELP_BUDGET_LIMIT : Fld := ⟨ELP_BUDGET, 17, 16⟩
def ELP_BUDGET_LEVEL : Fld := ⟨ELP_BUDGET, 21, 18⟩
def ELP_BUDGET_TSTATE : Fld := ⟨ELP_BUDGET, 23, 22⟩
def ELP_BUDGET_MAND_OVER : Fld := ⟨ELP_BUDGET, 24, 24⟩
/-- R504: register ELP_TICK_E. -/
def ELP_TICK_E : Nat := 0x40000c
def ELP_TICK_E_E : Fld := ⟨ELP_TICK_E, 15, 0⟩
def ELP_TICK_E_G : Fld := ⟨ELP_TICK_E, 31, 16⟩
/-- R504: register ELP_MFORE. -/
def ELP_MFORE : Nat := 0x400010
def ELP_MFORE_MHAT : Fld := ⟨ELP_MFORE, 15, 0⟩
def ELP_MFORE_FLOOR : Fld := ⟨ELP_MFORE, 31, 16⟩
/-- R504: register ELP_EV_CAUSE. -/
def ELP_EV_CAUSE : Nat := 0x400014
def ELP_EV_CAUSE_SOFT_ON : Fld := ⟨ELP_EV_CAUSE, 0, 0⟩
def ELP_EV_CAUSE_SOFT_OFF : Fld := ⟨ELP_EV_CAUSE, 1, 1⟩
def ELP_EV_CAUSE_STRETCH_ON : Fld := ⟨ELP_EV_CAUSE, 2, 2⟩
def ELP_EV_CAUSE_STRETCH_OFF : Fld := ⟨ELP_EV_CAUSE, 3, 3⟩
def ELP_EV_CAUSE_SHED_ON : Fld := ⟨ELP_EV_CAUSE, 4, 4⟩
def ELP_EV_CAUSE_SHED_OFF : Fld := ⟨ELP_EV_CAUSE, 5, 5⟩
def ELP_EV_CAUSE_MAND_OVER : Fld := ⟨ELP_EV_CAUSE, 6, 6⟩
def ELP_EV_CAUSE_WEAR_OUT : Fld := ⟨ELP_EV_CAUSE, 7, 7⟩
def ELP_EV_CAUSE_WEAR_OK : Fld := ⟨ELP_EV_CAUSE, 8, 8⟩
def ELP_EV_CAUSE_PMB_WARN : Fld := ⟨ELP_EV_CAUSE, 9, 9⟩
def ELP_EV_CAUSE_PMB_FAULT : Fld := ⟨ELP_EV_CAUSE, 10, 10⟩
def ELP_EV_CAUSE_PMB_NACK : Fld := ⟨ELP_EV_CAUSE, 11, 11⟩
def ELP_EV_CAUSE_WAKE_FAIL : Fld := ⟨ELP_EV_CAUSE, 12, 12⟩
def ELP_EV_CAUSE_AVS_LIMIT : Fld := ⟨ELP_EV_CAUSE, 13, 13⟩
/-- R504: register ELP_TRIP. -/
def ELP_TRIP : Nat := 0x400018
def ELP_TRIP_TRIPPED : Fld := ⟨ELP_TRIP, 0, 0⟩
/-- R504: register ELP_KIND. -/
def ELP_KIND (k : Nat) : Nat := 0x400020 + 0x4 * k
def ELP_KIND_GRANTED (k : Nat) : Fld := ⟨ELP_KIND k, 15, 0⟩
def ELP_KIND_REFUSED (k : Nat) : Fld := ⟨ELP_KIND k, 31, 16⟩
/-- R504: register ELP_SHED_STAGE. -/
def ELP_SHED_STAGE (s : Nat) : Nat := 0x400040 + 0x4 * s
def ELP_SHED_STAGE_STAGE (s : Nat) : Fld := ⟨ELP_SHED_STAGE s, 31, 0⟩
/-- R504: register ELP_TEMP. -/
def ELP_TEMP (n : Nat) : Nat := 0x400080 + 0x4 * n
def ELP_TEMP_TEMP (n : Nat) : Fld := ⟨ELP_TEMP n, 11, 0⟩
/-- R504: register ELP_TEMP_MAX. -/
def ELP_TEMP_MAX : Nat := 0x4000c0
def ELP_TEMP_MAX_TEMP : Fld := ⟨ELP_TEMP_MAX, 11, 0⟩
def ELP_TEMP_MAX_SENSOR : Fld := ⟨ELP_TEMP_MAX, 15, 12⟩
/-- R504: register ELP_WEAR_OPS. -/
def ELP_WEAR_OPS : Nat := 0x400100
def ELP_WEAR_OPS_SEC : Fld := ⟨ELP_WEAR_OPS, 31, 0⟩
/-- R504: register ELP_WEAR_ABOVE. -/
def ELP_WEAR_ABOVE : Nat := 0x400104
def ELP_WEAR_ABOVE_T10MS : Fld := ⟨ELP_WEAR_ABOVE, 31, 0⟩
/-- R504: register ELP_WEAR_BAL. -/
def ELP_WEAR_BAL : Nat := 0x400108
def ELP_WEAR_BAL_SEC : Fld := ⟨ELP_WEAR_BAL, 31, 0⟩
/-- R504: register ELP_AVS. -/
def ELP_AVS : Nat := 0x400110
def ELP_AVS_VSET : Fld := ⟨ELP_AVS, 4, 0⟩
def ELP_AVS_MARGIN : Fld := ⟨ELP_AVS, 23, 16⟩
/-- R504: register ELP_AGE_SEL. -/
def ELP_AGE_SEL : Nat := 0x400114
def ELP_AGE_SEL_OSC : Fld := ⟨ELP_AGE_SEL, 5, 0⟩
/-- R504: register ELP_AGE_DATA. -/
def ELP_AGE_DATA : Nat := 0x400118
def ELP_AGE_DATA_COUNT : Fld := ⟨ELP_AGE_DATA, 15, 0⟩
/-- R504: register ELP_PMB_STATUS. -/
def ELP_PMB_STATUS (r : Nat) : Nat := 0x400140 + 0x10 * r
def ELP_PMB_STATUS_STATUS_WORD (r : Nat) : Fld := ⟨ELP_PMB_STATUS r, 15, 0⟩
def ELP_PMB_STATUS_PRESENT (r : Nat) : Fld := ⟨ELP_PMB_STATUS r, 16, 16⟩
/-- R504: register ELP_PMB_V. -/
def ELP_PMB_V (r : Nat) : Nat := 0x400144 + 0x10 * r
def ELP_PMB_V_MV (r : Nat) : Fld := ⟨ELP_PMB_V r, 15, 0⟩
/-- R504: register ELP_PMB_I. -/
def ELP_PMB_I (r : Nat) : Nat := 0x400148 + 0x10 * r
def ELP_PMB_I_DA (r : Nat) : Fld := ⟨ELP_PMB_I r, 15, 0⟩
/-- R504: register ELP_DOM_HOLD_LO. -/
def ELP_DOM_HOLD_LO : Nat := 0x400300
def ELP_DOM_HOLD_LO_HOLD : Fld := ⟨ELP_DOM_HOLD_LO, 31, 0⟩
/-- R504: register ELP_DOM_HOLD_HI. -/
def ELP_DOM_HOLD_HI : Nat := 0x400304
def ELP_DOM_HOLD_HI_HOLD : Fld := ⟨ELP_DOM_HOLD_HI, 31, 0⟩
/-- R504: register ELP_DOM_STATE. -/
def ELP_DOM_STATE (d : Nat) : Nat := 0x400400 + 0x10 * d
def ELP_DOM_STATE_STATE (d : Nat) : Fld := ⟨ELP_DOM_STATE d, 2, 0⟩
def ELP_DOM_STATE_INIT (d : Nat) : Fld := ⟨ELP_DOM_STATE d, 3, 3⟩
def ELP_DOM_STATE_POLICY (d : Nat) : Fld := ⟨ELP_DOM_STATE d, 5, 4⟩
/-- R504: register ELP_DOM_E. -/
def ELP_DOM_E (d : Nat) : Nat := 0x400404 + 0x10 * d
def ELP_DOM_E_NJ (d : Nat) : Fld := ⟨ELP_DOM_E d, 23, 0⟩
/-- R504: register ELP_DOM_CNT. -/
def ELP_DOM_CNT (d : Nat) : Nat := 0x400408 + 0x10 * d
def ELP_DOM_CNT_ENTRIES (d : Nat) : Fld := ⟨ELP_DOM_CNT d, 31, 0⟩
/-- R504: register ELP_WAKE. -/
def ELP_WAKE (d : Nat) (s : Nat) : Nat := 0x400c00 + 0x10 * d + 0x4 * s
def ELP_WAKE_EV (d : Nat) (s : Nat) : Fld := ⟨ELP_WAKE d s, 8, 0⟩
def ELP_WAKE_FAST (d : Nat) (s : Nat) : Fld := ⟨ELP_WAKE d s, 9, 9⟩
def ELP_WAKE_EN (d : Nat) (s : Nat) : Fld := ⟨ELP_WAKE d s, 10, 10⟩

/-! ### FLT -/
/-- R536: register FLT_CTRL. -/
def FLT_CTRL : Nat := 0x500000
def FLT_CTRL_ESC_EN : Fld := ⟨FLT_CTRL, 0, 0⟩
/-- R536: register FLT_STATUS. -/
def FLT_STATUS : Nat := 0x500004
def FLT_STATUS_COUNT : Fld := ⟨FLT_STATUS, 6, 0⟩
def FLT_STATUS_FULL : Fld := ⟨FLT_STATUS, 7, 7⟩
def FLT_STATUS_POP_MISS : Fld := ⟨FLT_STATUS, 8, 8⟩
/-- R536: register FLT_LOST. -/
def FLT_LOST : Nat := 0x500008
def FLT_LOST_COUNT : Fld := ⟨FLT_LOST, 31, 0⟩
/-- R536: register FLT_EV_CAUSE. -/
def FLT_EV_CAUSE : Nat := 0x50000c
def FLT_EV_CAUSE_PROMOTED : Fld := ⟨FLT_EV_CAUSE, 0, 0⟩
def FLT_EV_CAUSE_REPLICA_LOST : Fld := ⟨FLT_EV_CAUSE, 1, 1⟩
def FLT_EV_CAUSE_WATCHDOG : Fld := ⟨FLT_EV_CAUSE, 2, 2⟩
def FLT_EV_CAUSE_SWAP_DONE : Fld := ⟨FLT_EV_CAUSE, 3, 3⟩
def FLT_EV_CAUSE_ROT_DONE : Fld := ⟨FLT_EV_CAUSE, 4, 4⟩
def FLT_EV_CAUSE_RECURRENCE : Fld := ⟨FLT_EV_CAUSE, 5, 5⟩
def FLT_EV_CAUSE_OVERFLOW : Fld := ⟨FLT_EV_CAUSE, 6, 6⟩
def FLT_EV_CAUSE_FENCE : Fld := ⟨FLT_EV_CAUSE, 7, 7⟩
def FLT_EV_CAUSE_SPARE : Fld := ⟨FLT_EV_CAUSE, 8, 8⟩
def FLT_EV_CAUSE_TAKEOVER : Fld := ⟨FLT_EV_CAUSE, 9, 9⟩
def FLT_EV_CAUSE_DEADLINE : Fld := ⟨FLT_EV_CAUSE, 10, 10⟩
def FLT_EV_CAUSE_ACCESS : Fld := ⟨FLT_EV_CAUSE, 11, 11⟩
def FLT_EV_CAUSE_BUS : Fld := ⟨FLT_EV_CAUSE, 12, 12⟩
def FLT_EV_CAUSE_FALLOW_FAIL : Fld := ⟨FLT_EV_CAUSE, 13, 13⟩
def FLT_EV_CAUSE_ROT_DEFER : Fld := ⟨FLT_EV_CAUSE, 14, 14⟩
/-- R536: register FLT_HEAD. -/
def FLT_HEAD (n : Nat) : Nat := 0x500010 + 0x4 * n
def FLT_HEAD_WORD (n : Nat) : Fld := ⟨FLT_HEAD n, 31, 0⟩
/-- R536: register FLT_POP. -/
def FLT_POP : Nat := 0x500030
def FLT_POP_SEQ : Fld := ⟨FLT_POP, 15, 0⟩
/-- R536: register FLT_UNFENCE. -/
def FLT_UNFENCE : Nat := 0x500034
def FLT_UNFENCE_KIND : Fld := ⟨FLT_UNFENCE, 7, 0⟩
def FLT_UNFENCE_INDEX : Fld := ⟨FLT_UNFENCE, 15, 8⟩
/-- R536: register FLT_PEEK_IDX. -/
def FLT_PEEK_IDX : Nat := 0x500038
def FLT_PEEK_IDX_IDX : Fld := ⟨FLT_PEEK_IDX, 5, 0⟩
/-- R536: register FLT_PEEK. -/
def FLT_PEEK (n : Nat) : Nat := 0x500040 + 0x4 * n
def FLT_PEEK_WORD (n : Nat) : Fld := ⟨FLT_PEEK n, 31, 0⟩
/-- R536: register FLT_SPARED. -/
def FLT_SPARED : Nat := 0x5000c0
def FLT_SPARED_CL : Fld := ⟨FLT_SPARED, 19, 0⟩
/-- R536: register FLT_LCMAP. -/
def FLT_LCMAP (l : Nat) : Nat := 0x500100 + 0x4 * l
def FLT_LCMAP_PHYS (l : Nat) : Fld := ⟨FLT_LCMAP l, 4, 0⟩
/-- R536: register FLT_FALLOW. -/
def FLT_FALLOW (q : Nat) : Nat := 0x500180 + 0x4 * q
def FLT_FALLOW_STATE (q : Nat) : Fld := ⟨FLT_FALLOW q, 1, 0⟩
def FLT_FALLOW_PHYS (q : Nat) : Fld := ⟨FLT_FALLOW q, 6, 2⟩
def FLT_FALLOW_PASSES (q : Nat) : Fld := ⟨FLT_FALLOW q, 15, 8⟩
/-- R536: register FLT_FALLOW_CTRL. -/
def FLT_FALLOW_CTRL : Nat := 0x500190
def FLT_FALLOW_CTRL_PERIOD_S : Fld := ⟨FLT_FALLOW_CTRL, 15, 0⟩
/-- R536: register FLT_ROT. -/
def FLT_ROT : Nat := 0x500194
def FLT_ROT_PERIOD_H : Fld := ⟨FLT_ROT, 7, 0⟩
def FLT_ROT_EARLY_S : Fld := ⟨FLT_ROT, 23, 8⟩
/-- R536: register FLT_ROT_STATUS. -/
def FLT_ROT_STATUS : Nat := 0x500198
def FLT_ROT_STATUS_STATE : Fld := ⟨FLT_ROT_STATUS, 1, 0⟩
def FLT_ROT_STATUS_QUAD : Fld := ⟨FLT_ROT_STATUS, 3, 2⟩
def FLT_ROT_STATUS_DEFERRED : Fld := ⟨FLT_ROT_STATUS, 7, 4⟩
/-- R536: register FLT_SWAP_STATUS. -/
def FLT_SWAP_STATUS : Nat := 0x50019c
def FLT_SWAP_STATUS_OLD : Fld := ⟨FLT_SWAP_STATUS, 4, 0⟩
def FLT_SWAP_STATUS_NEW : Fld := ⟨FLT_SWAP_STATUS, 9, 5⟩
def FLT_SWAP_STATUS_LC : Fld := ⟨FLT_SWAP_STATUS, 14, 10⟩
def FLT_SWAP_STATUS_COPY_SKIPPED : Fld := ⟨FLT_SWAP_STATUS, 15, 15⟩
def FLT_SWAP_STATUS_COPY_ERR : Fld := ⟨FLT_SWAP_STATUS, 31, 16⟩
/-- R536: register FLT_ROLE_LO. -/
def FLT_ROLE_LO (l : Nat) : Nat := 0x500200 + 0x10 * l
def FLT_ROLE_LO_ADDR (l : Nat) : Fld := ⟨FLT_ROLE_LO l, 31, 0⟩
/-- R536: register FLT_ROLE_HI. -/
def FLT_ROLE_HI (l : Nat) : Nat := 0x500204 + 0x10 * l
def FLT_ROLE_HI_ADDR (l : Nat) : Fld := ⟨FLT_ROLE_HI l, 15, 0⟩
def FLT_ROLE_HI_COUNT (l : Nat) : Fld := ⟨FLT_ROLE_HI l, 21, 16⟩
/-- R536: register FLT_REPLAY_LO. -/
def FLT_REPLAY_LO (q : Nat) : Nat := 0x500400 + 0x10 * q
def FLT_REPLAY_LO_ADDR (q : Nat) : Fld := ⟨FLT_REPLAY_LO q, 31, 0⟩
/-- R536: register FLT_REPLAY_HI. -/
def FLT_REPLAY_HI (q : Nat) : Nat := 0x500404 + 0x10 * q
def FLT_REPLAY_HI_ADDR (q : Nat) : Fld := ⟨FLT_REPLAY_HI q, 15, 0⟩
def FLT_REPLAY_HI_COUNT (q : Nat) : Fld := ⟨FLT_REPLAY_HI q, 19, 16⟩

/-! ### LWK -/
/-- R121: register LWK_CTRL. -/
def LWK_CTRL : Nat := 0x600000
def LWK_CTRL_TIMEOUT_US : Fld := ⟨LWK_CTRL, 15, 0⟩
def LWK_CTRL_HOLD_LIMIT_US : Fld := ⟨LWK_CTRL, 23, 16⟩
/-- R121: register LWK_EPOCH. -/
def LWK_EPOCH : Nat := 0x600004
def LWK_EPOCH_CUR : Fld := ⟨LWK_EPOCH, 0, 0⟩
def LWK_EPOCH_DRAINED : Fld := ⟨LWK_EPOCH, 1, 1⟩
def LWK_EPOCH_DEFERRED : Fld := ⟨LWK_EPOCH, 15, 8⟩
def LWK_EPOCH_FLIPS : Fld := ⟨LWK_EPOCH, 31, 16⟩
/-- R121: register LWK_OLD_INFLIGHT. -/
def LWK_OLD_INFLIGHT : Nat := 0x600008
def LWK_OLD_INFLIGHT_COUNT : Fld := ⟨LWK_OLD_INFLIGHT, 15, 0⟩
/-- R121: register LWK_ERR. -/
def LWK_ERR : Nat := 0x60000c
def LWK_ERR_HDR_CRC : Fld := ⟨LWK_ERR, 0, 0⟩
def LWK_ERR_LINK_UE : Fld := ⟨LWK_ERR, 1, 1⟩
def LWK_ERR_TIMEOUT : Fld := ⟨LWK_ERR, 2, 2⟩
def LWK_ERR_INJ_DECODE : Fld := ⟨LWK_ERR, 3, 3⟩
def LWK_ERR_HOLD_OVF : Fld := ⟨LWK_ERR, 4, 4⟩
def LWK_ERR_HOLD_EXPIRED : Fld := ⟨LWK_ERR, 5, 5⟩
def LWK_ERR_PROV_REFUSED : Fld := ⟨LWK_ERR, 6, 6⟩
def LWK_ERR_XLINK_FAIL : Fld := ⟨LWK_ERR, 7, 7⟩
/-- R121: register LWK_ERR_HDR. -/
def LWK_ERR_HDR (n : Nat) : Nat := 0x600010 + 0x4 * n
def LWK_ERR_HDR_HDR (n : Nat) : Fld := ⟨LWK_ERR_HDR n, 31, 0⟩
/-- R121: register LWK_ECC_CE. -/
def LWK_ECC_CE : Nat := 0x600020
def LWK_ECC_CE_COUNT : Fld := ⟨LWK_ECC_CE, 31, 0⟩
/-- R121: register LWK_XLINK. -/
def LWK_XLINK : Nat := 0x600024
def LWK_XLINK_FAILED : Fld := ⟨LWK_XLINK, 15, 0⟩
/-- R121: register LWK_XLINK_UE_LIMIT. -/
def LWK_XLINK_UE_LIMIT : Nat := 0x600028
def LWK_XLINK_UE_LIMIT_LIMIT : Fld := ⟨LWK_XLINK_UE_LIMIT, 7, 0⟩
/-- R121: register LWK_ARB. -/
def LWK_ARB : Nat := 0x600030
def LWK_ARB_W_WORK : Fld := ⟨LWK_ARB, 3, 0⟩
def LWK_ARB_W_HOST : Fld := ⟨LWK_ARB, 7, 4⟩
def LWK_ARB_W_MGMT : Fld := ⟨LWK_ARB, 11, 8⟩
def LWK_ARB_W_GLEAN : Fld := ⟨LWK_ARB, 15, 12⟩
def LWK_ARB_AGE_LIMIT : Fld := ⟨LWK_ARB, 23, 16⟩
/-- R121: register LWK_STAT_CTRL. -/
def LWK_STAT_CTRL : Nat := 0x600100
def LWK_STAT_CTRL_WIN : Fld := ⟨LWK_STAT_CTRL, 7, 0⟩
def LWK_STAT_CTRL_HIST_SHIFT : Fld := ⟨LWK_STAT_CTRL, 11, 8⟩
def LWK_STAT_CTRL_SEQ : Fld := ⟨LWK_STAT_CTRL, 31, 16⟩
/-- R121: register LWK_STAT_IDX. -/
def LWK_STAT_IDX : Nat := 0x600104
def LWK_STAT_IDX_NODE : Fld := ⟨LWK_STAT_IDX, 9, 0⟩
/-- R121: register LWK_STAT_BYTES_LO. -/
def LWK_STAT_BYTES_LO : Nat := 0x600108
def LWK_STAT_BYTES_LO_BYTES : Fld := ⟨LWK_STAT_BYTES_LO, 31, 0⟩
/-- R121: register LWK_STAT_BYTES_HI. -/
def LWK_STAT_BYTES_HI : Nat := 0x60010c
def LWK_STAT_BYTES_HI_BYTES : Fld := ⟨LWK_STAT_BYTES_HI, 15, 0⟩
/-- R121: register LWK_STAT_PKTS. -/
def LWK_STAT_PKTS : Nat := 0x600110
def LWK_STAT_PKTS_PKTS : Fld := ⟨LWK_STAT_PKTS, 31, 0⟩
/-- R121: register LWK_STAT_NP. -/
def LWK_STAT_NP : Nat := 0x600114
def LWK_STAT_NP_NP : Fld := ⟨LWK_STAT_NP, 31, 0⟩
/-- R575: register LWK_STAT_TGT_BYTES_LO. -/
def LWK_STAT_TGT_BYTES_LO : Nat := 0x600118
def LWK_STAT_TGT_BYTES_LO_BYTES : Fld := ⟨LWK_STAT_TGT_BYTES_LO, 31, 0⟩
/-- R575: register LWK_STAT_TGT_BYTES_HI. -/
def LWK_STAT_TGT_BYTES_HI : Nat := 0x60011c
def LWK_STAT_TGT_BYTES_HI_BYTES : Fld := ⟨LWK_STAT_TGT_BYTES_HI, 15, 0⟩
/-- R575: register LWK_STAT_TGT_PKTS. -/
def LWK_STAT_TGT_PKTS : Nat := 0x600120
def LWK_STAT_TGT_PKTS_PKTS : Fld := ⟨LWK_STAT_TGT_PKTS, 31, 0⟩
/-- R121: register LWK_STAT_HIST. -/
def LWK_STAT_HIST (n : Nat) : Nat := 0x600140 + 0x4 * n
def LWK_STAT_HIST_COUNT (n : Nat) : Fld := ⟨LWK_STAT_HIST n, 31, 0⟩
/-- R121: register LWK_TRC_CTRL. -/
def LWK_TRC_CTRL : Nat := 0x600200
def LWK_TRC_CTRL_ARM : Fld := ⟨LWK_TRC_CTRL, 0, 0⟩
def LWK_TRC_CTRL_MODE : Fld := ⟨LWK_TRC_CTRL, 1, 1⟩
/-- R121: register LWK_TRC_STATUS. -/
def LWK_TRC_STATUS : Nat := 0x600204
def LWK_TRC_STATUS_WRPTR : Fld := ⟨LWK_TRC_STATUS, 10, 0⟩
def LWK_TRC_STATUS_FULL : Fld := ⟨LWK_TRC_STATUS, 11, 11⟩
def LWK_TRC_STATUS_WRAPPED : Fld := ⟨LWK_TRC_STATUS, 12, 12⟩
/-- R121: register LWK_PRB_CFG. -/
def LWK_PRB_CFG (p : Nat) : Nat := 0x600400 + 0x40 * p
def LWK_PRB_CFG_EN (p : Nat) : Fld := ⟨LWK_PRB_CFG p, 0, 0⟩
def LWK_PRB_CFG_TRACE (p : Nat) : Fld := ⟨LWK_PRB_CFG p, 1, 1⟩
def LWK_PRB_CFG_LOCATION (p : Nat) : Fld := ⟨LWK_PRB_CFG p, 14, 8⟩
def LWK_PRB_CFG_INPUT (p : Nat) : Fld := ⟨LWK_PRB_CFG p, 19, 16⟩
/-- R121: register LWK_PRB_MATCH. -/
def LWK_PRB_MATCH (p : Nat) (n : Nat) : Nat := 0x600404 + 0x40 * p + 0x4 * n
def LWK_PRB_MATCH_MATCH (p : Nat) (n : Nat) : Fld := ⟨LWK_PRB_MATCH p n, 31, 0⟩
/-- R121: register LWK_PRB_MASK. -/
def LWK_PRB_MASK (p : Nat) (n : Nat) : Nat := 0x600414 + 0x40 * p + 0x4 * n
def LWK_PRB_MASK_MASK (p : Nat) (n : Nat) : Fld := ⟨LWK_PRB_MASK p n, 31, 0⟩
/-- R121: register LWK_PRB_COUNT. -/
def LWK_PRB_COUNT (p : Nat) : Nat := 0x600424 + 0x40 * p
def LWK_PRB_COUNT_COUNT (p : Nat) : Fld := ⟨LWK_PRB_COUNT p, 31, 0⟩
/-- R121: register LWK_TRC_BUF. -/
def LWK_TRC_BUF (w : Nat) : Nat := 0x610000 + 0x4 * w
def LWK_TRC_BUF_DATA (w : Nat) : Fld := ⟨LWK_TRC_BUF w, 31, 0⟩
/-- R121: register LWK_RT. -/
def LWK_RT (i : Nat) (e : Nat) (w : Nat) : Nat := 0x700000 + 0x100 * i + 0x80 * e + 0x4 * w
def LWK_RT_ENTRY (i : Nat) (e : Nat) (w : Nat) : Fld := ⟨LWK_RT i e w, 31, 0⟩
/-- R368: register DSP_CTRL. -/
def DSP_CTRL : Nat := 0x780000
def DSP_CTRL_EV_EXPIRY : Fld := ⟨DSP_CTRL, 0, 0⟩
def DSP_CTRL_EV_URGENT : Fld := ⟨DSP_CTRL, 1, 1⟩
def DSP_CTRL_HOLDOFF_WARN_US : Fld := ⟨DSP_CTRL, 15, 8⟩
/-- R368: register DSP_EV_CAUSE. -/
def DSP_EV_CAUSE (d : Nat) : Nat := 0x780010 + 0x4 * d
def DSP_EV_CAUSE_OVERRUN (d : Nat) : Fld := ⟨DSP_EV_CAUSE d, 0, 0⟩
def DSP_EV_CAUSE_REFUSED (d : Nat) : Fld := ⟨DSP_EV_CAUSE d, 1, 1⟩
def DSP_EV_CAUSE_FULL (d : Nat) : Fld := ⟨DSP_EV_CAUSE d, 2, 2⟩
def DSP_EV_CAUSE_EXPIRED (d : Nat) : Fld := ⟨DSP_EV_CAUSE d, 3, 3⟩
def DSP_EV_CAUSE_RING_LOST (d : Nat) : Fld := ⟨DSP_EV_CAUSE d, 4, 4⟩
def DSP_EV_CAUSE_URGENT (d : Nat) : Fld := ⟨DSP_EV_CAUSE d, 5, 5⟩
def DSP_EV_CAUSE_DEFERRED (d : Nat) : Fld := ⟨DSP_EV_CAUSE d, 6, 6⟩
def DSP_EV_CAUSE_STALE (d : Nat) : Fld := ⟨DSP_EV_CAUSE d, 7, 7⟩
def DSP_EV_CAUSE_HOLDOFF (d : Nat) : Fld := ⟨DSP_EV_CAUSE d, 8, 8⟩
def DSP_EV_CAUSE_REDISPATCH (d : Nat) : Fld := ⟨DSP_EV_CAUSE d, 9, 9⟩
def DSP_EV_CAUSE_TOP_RIPE (d : Nat) : Fld := ⟨DSP_EV_CAUSE d, 10, 10⟩
/-- R368: register DSP_ERR. -/
def DSP_ERR : Nat := 0x780020
def DSP_ERR_CODE : Fld := ⟨DSP_ERR, 7, 0⟩
def DSP_ERR_PANEL : Fld := ⟨DSP_ERR, 12, 8⟩
def DSP_ERR_REQ : Fld := ⟨DSP_ERR, 15, 13⟩
/-- R368: register DSP_DEP_DEC. -/
def DSP_DEP_DEC : Nat := 0x780030
def DSP_DEP_DEC_HANDLE : Fld := ⟨DSP_DEP_DEC, 31, 0⟩
/-- R368: register DSP_CANCEL. -/
def DSP_CANCEL : Nat := 0x780034
def DSP_CANCEL_HANDLE : Fld := ⟨DSP_CANCEL, 31, 0⟩
/-- R368: register DSP_HSUB_LO. -/
def DSP_HSUB_LO : Nat := 0x780040
def DSP_HSUB_LO_ADDR : Fld := ⟨DSP_HSUB_LO, 31, 0⟩
/-- R368: register DSP_HSUB_HI. -/
def DSP_HSUB_HI : Nat := 0x780044
def DSP_HSUB_HI_ADDR : Fld := ⟨DSP_HSUB_HI, 15, 0⟩
def DSP_HSUB_HI_PANEL : Fld := ⟨DSP_HSUB_HI, 20, 16⟩
/-- R368: register DSP_HSUB_GO. -/
def DSP_HSUB_GO : Nat := 0x780048
def DSP_HSUB_GO_RESULT : Fld := ⟨DSP_HSUB_GO, 31, 0⟩
/-- R368: register DSP_CNT_DISPATCH. -/
def DSP_CNT_DISPATCH (d : Nat) : Nat := 0x780100 + 0x40 * d
def DSP_CNT_DISPATCH_COUNT (d : Nat) : Fld := ⟨DSP_CNT_DISPATCH d, 31, 0⟩
/-- R368: register DSP_CNT_PREEMPT. -/
def DSP_CNT_PREEMPT (d : Nat) : Nat := 0x780104 + 0x40 * d
def DSP_CNT_PREEMPT_COUNT (d : Nat) : Fld := ⟨DSP_CNT_PREEMPT d, 31, 0⟩
/-- R368: register DSP_CNT_RIPEN. -/
def DSP_CNT_RIPEN (d : Nat) : Nat := 0x780108 + 0x40 * d
def DSP_CNT_RIPEN_COUNT (d : Nat) : Fld := ⟨DSP_CNT_RIPEN d, 31, 0⟩
/-- R368: register DSP_CNT_URGENT. -/
def DSP_CNT_URGENT (d : Nat) : Nat := 0x78010c + 0x40 * d
def DSP_CNT_URGENT_COUNT (d : Nat) : Fld := ⟨DSP_CNT_URGENT d, 31, 0⟩
/-- R368: register DSP_CNT_EXPIRED. -/
def DSP_CNT_EXPIRED (d : Nat) : Nat := 0x780110 + 0x40 * d
def DSP_CNT_EXPIRED_COUNT (d : Nat) : Fld := ⟨DSP_CNT_EXPIRED d, 31, 0⟩
/-- R368: register DSP_CNT_DEFER. -/
def DSP_CNT_DEFER (d : Nat) : Nat := 0x780114 + 0x40 * d
def DSP_CNT_DEFER_COUNT (d : Nat) : Fld := ⟨DSP_CNT_DEFER d, 31, 0⟩
/-- R368: register DSP_CNT_STALE. -/
def DSP_CNT_STALE (d : Nat) : Nat := 0x780118 + 0x40 * d
def DSP_CNT_STALE_COUNT (d : Nat) : Fld := ⟨DSP_CNT_STALE d, 31, 0⟩
/-- R368: register DSP_CNT_REDISPATCH. -/
def DSP_CNT_REDISPATCH (d : Nat) : Nat := 0x78011c + 0x40 * d
def DSP_CNT_REDISPATCH_COUNT (d : Nat) : Fld := ⟨DSP_CNT_REDISPATCH d, 31, 0⟩
/-- R368: register DSP_CNT_FLOOR. -/
def DSP_CNT_FLOOR (d : Nat) : Nat := 0x780120 + 0x40 * d
def DSP_CNT_FLOOR_COUNT (d : Nat) : Fld := ⟨DSP_CNT_FLOOR d, 31, 0⟩
/-- R368: register DSP_CNT_HOLDOFF_MAX. -/
def DSP_CNT_HOLDOFF_MAX (d : Nat) : Nat := 0x780124 + 0x40 * d
def DSP_CNT_HOLDOFF_MAX_NS (d : Nat) : Fld := ⟨DSP_CNT_HOLDOFF_MAX d, 31, 0⟩
/-- R368: register DSP_CNT_RING_LOST. -/
def DSP_CNT_RING_LOST (d : Nat) : Nat := 0x780128 + 0x40 * d
def DSP_CNT_RING_LOST_COUNT (d : Nat) : Fld := ⟨DSP_CNT_RING_LOST d, 31, 0⟩
/-- R368: register DSP_PANEL_STATUS. -/
def DSP_PANEL_STATUS (p : Nat) : Nat := 0x781008 + 0x100 * p
def DSP_PANEL_STATUS_ITEMS (p : Nat) : Fld := ⟨DSP_PANEL_STATUS p, 12, 0⟩
def DSP_PANEL_STATUS_READY (p : Nat) : Fld := ⟨DSP_PANEL_STATUS p, 25, 13⟩
def DSP_PANEL_STATUS_TOP (p : Nat) : Fld := ⟨DSP_PANEL_STATUS p, 29, 26⟩
/-- R368: register DSP_FLOOR. -/
def DSP_FLOOR (p : Nat) : Nat := 0x78100c + 0x100 * p
def DSP_FLOOR_CREDIT_NS (p : Nat) : Fld := ⟨DSP_FLOOR p, 17, 0⟩
/-- R368: register DSP_RIPEN. -/
def DSP_RIPEN (p : Nat) (n : Nat) : Nat := 0x781010 + 0x100 * p + 0x4 * n
def DSP_RIPEN_LVL_LO (p : Nat) (n : Nat) : Fld := ⟨DSP_RIPEN p n, 15, 0⟩
def DSP_RIPEN_LVL_HI (p : Nat) (n : Nat) : Fld := ⟨DSP_RIPEN p n, 31, 16⟩
/-- R368: register DSP_NEST. -/
def DSP_NEST (p : Nat) : Nat := 0x78102c + 0x100 * p
def DSP_NEST_NEST (p : Nat) : Fld := ⟨DSP_NEST p, 2, 0⟩
/-- R368: register DSP_RING_BASE_LO. -/
def DSP_RING_BASE_LO (p : Nat) : Nat := 0x781030 + 0x100 * p
def DSP_RING_BASE_LO_ADDR (p : Nat) : Fld := ⟨DSP_RING_BASE_LO p, 31, 0⟩
/-- R368: register DSP_RING_BASE_HI. -/
def DSP_RING_BASE_HI (p : Nat) : Nat := 0x781034 + 0x100 * p
def DSP_RING_BASE_HI_ADDR (p : Nat) : Fld := ⟨DSP_RING_BASE_HI p, 15, 0⟩
/-- R368: register DSP_RING_SIZE. -/
def DSP_RING_SIZE (p : Nat) : Nat := 0x781038 + 0x100 * p
def DSP_RING_SIZE_SIZE (p : Nat) : Fld := ⟨DSP_RING_SIZE p, 15, 0⟩
/-- R368: register DSP_RING_WR. -/
def DSP_RING_WR (p : Nat) : Nat := 0x78103c + 0x100 * p
def DSP_RING_WR_WR (p : Nat) : Fld := ⟨DSP_RING_WR p, 15, 0⟩
/-- R368: register DSP_RING_RD. -/
def DSP_RING_RD (p : Nat) : Nat := 0x781040 + 0x100 * p
def DSP_RING_RD_RD (p : Nat) : Fld := ⟨DSP_RING_RD p, 15, 0⟩
/-- R368: register DSP_OLDEST_WAIT. -/
def DSP_OLDEST_WAIT (p : Nat) : Nat := 0x781044 + 0x100 * p
def DSP_OLDEST_WAIT_US (p : Nat) : Fld := ⟨DSP_OLDEST_WAIT p, 31, 0⟩

/-! ### RLN -/
/-- R172: register RLN_CTRL. -/
def RLN_CTRL : Nat := 0x800000
def RLN_CTRL_REFR_FREQ : Fld := ⟨RLN_CTRL, 0, 0⟩
def RLN_CTRL_RETRAIN_BAD_LIMIT : Fld := ⟨RLN_CTRL, 15, 8⟩
def RLN_CTRL_RETRAIN_TICKS : Fld := ⟨RLN_CTRL, 19, 16⟩
def RLN_CTRL_RECOVER_S : Fld := ⟨RLN_CTRL, 31, 24⟩
/-- R172: register RLN_STATUS. -/
def RLN_STATUS : Nat := 0x800004
def RLN_STATUS_PLL_LOCK : Fld := ⟨RLN_STATUS, 19, 0⟩
/-- R172: register RLN_QUAD_CFG. -/
def RLN_QUAD_CFG (k : Nat) : Nat := 0x800100 + 0x10 * k
def RLN_QUAD_CFG_MODE (k : Nat) : Fld := ⟨RLN_QUAD_CFG k, 1, 0⟩
def RLN_QUAD_CFG_REFSEL (k : Nat) : Fld := ⟨RLN_QUAD_CFG k, 2, 2⟩
def RLN_QUAD_CFG_RSFEC (k : Nat) : Fld := ⟨RLN_QUAD_CFG k, 3, 3⟩
def RLN_QUAD_CFG_LANE_EN (k : Nat) : Fld := ⟨RLN_QUAD_CFG k, 7, 4⟩
def RLN_QUAD_CFG_TX_INV (k : Nat) : Fld := ⟨RLN_QUAD_CFG k, 11, 8⟩
def RLN_QUAD_CFG_RX_INV (k : Nat) : Fld := ⟨RLN_QUAD_CFG k, 15, 12⟩
/-- R172: register RLN_QUAD_TXEQ. -/
def RLN_QUAD_TXEQ (k : Nat) : Nat := 0x800104 + 0x10 * k
def RLN_QUAD_TXEQ_TX_PRE0 (k : Nat) : Fld := ⟨RLN_QUAD_TXEQ k, 2, 0⟩
def RLN_QUAD_TXEQ_TX_POST0 (k : Nat) : Fld := ⟨RLN_QUAD_TXEQ k, 7, 3⟩
def RLN_QUAD_TXEQ_TX_PRE1 (k : Nat) : Fld := ⟨RLN_QUAD_TXEQ k, 10, 8⟩
def RLN_QUAD_TXEQ_TX_POST1 (k : Nat) : Fld := ⟨RLN_QUAD_TXEQ k, 15, 11⟩
def RLN_QUAD_TXEQ_TX_PRE2 (k : Nat) : Fld := ⟨RLN_QUAD_TXEQ k, 18, 16⟩
def RLN_QUAD_TXEQ_TX_POST2 (k : Nat) : Fld := ⟨RLN_QUAD_TXEQ k, 23, 19⟩
def RLN_QUAD_TXEQ_TX_PRE3 (k : Nat) : Fld := ⟨RLN_QUAD_TXEQ k, 26, 24⟩
def RLN_QUAD_TXEQ_TX_POST3 (k : Nat) : Fld := ⟨RLN_QUAD_TXEQ k, 31, 27⟩
/-- R172: register RLN_QUAD_SWING. -/
def RLN_QUAD_SWING (k : Nat) : Nat := 0x800108 + 0x10 * k
def RLN_QUAD_SWING_SWING (k : Nat) : Fld := ⟨RLN_QUAD_SWING k, 3, 0⟩
/-- R172: register RLN_LANE_STATUS. -/
def RLN_LANE_STATUS (n : Nat) : Nat := 0x810000 + 0x40 * n
def RLN_LANE_STATUS_STATE (n : Nat) : Fld := ⟨RLN_LANE_STATUS n, 2, 0⟩
def RLN_LANE_STATUS_BLOCK_LOCK (n : Nat) : Fld := ⟨RLN_LANE_STATUS n, 3, 3⟩
def RLN_LANE_STATUS_LOS (n : Nat) : Fld := ⟨RLN_LANE_STATUS n, 4, 4⟩
def RLN_LANE_STATUS_ADAPT_LIMIT (n : Nat) : Fld := ⟨RLN_LANE_STATUS n, 5, 5⟩
def RLN_LANE_STATUS_EYE_MV (n : Nat) : Fld := ⟨RLN_LANE_STATUS n, 23, 16⟩
/-- R172: register RLN_LANE_EV_CAUSE. -/
def RLN_LANE_EV_CAUSE (n : Nat) : Nat := 0x810004 + 0x40 * n
def RLN_LANE_EV_CAUSE_LOCK_LOST (n : Nat) : Fld := ⟨RLN_LANE_EV_CAUSE n, 0, 0⟩
def RLN_LANE_EV_CAUSE_LOCK_GAINED (n : Nat) : Fld := ⟨RLN_LANE_EV_CAUSE n, 1, 1⟩
def RLN_LANE_EV_CAUSE_RETRAIN (n : Nat) : Fld := ⟨RLN_LANE_EV_CAUSE n, 2, 2⟩
def RLN_LANE_EV_CAUSE_FAILED (n : Nat) : Fld := ⟨RLN_LANE_EV_CAUSE n, 3, 3⟩
def RLN_LANE_EV_CAUSE_RECOVERED (n : Nat) : Fld := ⟨RLN_LANE_EV_CAUSE n, 4, 4⟩
def RLN_LANE_EV_CAUSE_LINK_DOWN (n : Nat) : Fld := ⟨RLN_LANE_EV_CAUSE n, 5, 5⟩
def RLN_LANE_EV_CAUSE_LOS (n : Nat) : Fld := ⟨RLN_LANE_EV_CAUSE n, 6, 6⟩
def RLN_LANE_EV_CAUSE_FIFO_OVF (n : Nat) : Fld := ⟨RLN_LANE_EV_CAUSE n, 7, 7⟩
def RLN_LANE_EV_CAUSE_EB_ERR (n : Nat) : Fld := ⟨RLN_LANE_EV_CAUSE n, 8, 8⟩
/-- R172: register RLN_LANE_CNT_BADHDR. -/
def RLN_LANE_CNT_BADHDR (n : Nat) : Nat := 0x810008 + 0x40 * n
def RLN_LANE_CNT_BADHDR_COUNT (n : Nat) : Fld := ⟨RLN_LANE_CNT_BADHDR n, 31, 0⟩
/-- R172: register RLN_LANE_CNT_CODEERR. -/
def RLN_LANE_CNT_CODEERR (n : Nat) : Nat := 0x81000c + 0x40 * n
def RLN_LANE_CNT_CODEERR_COUNT (n : Nat) : Fld := ⟨RLN_LANE_CNT_CODEERR n, 31, 0⟩
/-- R172: register RLN_LANE_CNT_LOCKLOSS. -/
def RLN_LANE_CNT_LOCKLOSS (n : Nat) : Nat := 0x810010 + 0x40 * n
def RLN_LANE_CNT_LOCKLOSS_COUNT (n : Nat) : Fld := ⟨RLN_LANE_CNT_LOCKLOSS n, 15, 0⟩
/-- R172: register RLN_LANE_CNT_RETRAIN. -/
def RLN_LANE_CNT_RETRAIN (n : Nat) : Nat := 0x810014 + 0x40 * n
def RLN_LANE_CNT_RETRAIN_COUNT (n : Nat) : Fld := ⟨RLN_LANE_CNT_RETRAIN n, 15, 0⟩
/-- R172: register RLN_LANE_CNT_FILLER. -/
def RLN_LANE_CNT_FILLER (n : Nat) : Nat := 0x810018 + 0x40 * n
def RLN_LANE_CNT_FILLER_COUNT (n : Nat) : Fld := ⟨RLN_LANE_CNT_FILLER n, 31, 0⟩
/-- R172: register RLN_LANE_TEST. -/
def RLN_LANE_TEST (n : Nat) : Nat := 0x810020 + 0x40 * n
def RLN_LANE_TEST_GEN (n : Nat) : Fld := ⟨RLN_LANE_TEST n, 0, 0⟩
def RLN_LANE_TEST_CHECK (n : Nat) : Fld := ⟨RLN_LANE_TEST n, 1, 1⟩
def RLN_LANE_TEST_CHK_LOCK (n : Nat) : Fld := ⟨RLN_LANE_TEST n, 2, 2⟩
/-- R172: register RLN_LANE_PRBS_ERR. -/
def RLN_LANE_PRBS_ERR (n : Nat) : Nat := 0x810024 + 0x40 * n
def RLN_LANE_PRBS_ERR_COUNT (n : Nat) : Fld := ⟨RLN_LANE_PRBS_ERR n, 31, 0⟩

/-! ### FIL -/
/-- R208: register FIL_CTRL. -/
def FIL_CTRL : Nat := 0xa00000
def FIL_CTRL_ERRBLK_AIS : Fld := ⟨FIL_CTRL, 0, 0⟩
def FIL_CTRL_RDI_TX : Fld := ⟨FIL_CTRL, 1, 1⟩
def FIL_CTRL_TA4_MIN : Fld := ⟨FIL_CTRL, 15, 8⟩
def FIL_CTRL_TA4_MAX : Fld := ⟨FIL_CTRL, 23, 16⟩
/-- R208: register FIL_ETH_TX. -/
def FIL_ETH_TX : Nat := 0xa00004
def FIL_ETH_TX_UP_ADV_US : Fld := ⟨FIL_ETH_TX, 7, 0⟩
def FIL_ETH_TX_CP_ADV_US : Fld := ⟨FIL_ETH_TX, 15, 8⟩
/-- R208: register FIL_LANE_STATUS. -/
def FIL_LANE_STATUS (n : Nat) : Nat := 0xa10000 + 0x100 * n
def FIL_LANE_STATUS_BF_STATE (n : Nat) : Fld := ⟨FIL_LANE_STATUS n, 1, 0⟩
def FIL_LANE_STATUS_MF_SYNC (n : Nat) : Fld := ⟨FIL_LANE_STATUS n, 2, 2⟩
def FIL_LANE_STATUS_ALIGNED (n : Nat) : Fld := ⟨FIL_LANE_STATUS n, 3, 3⟩
def FIL_LANE_STATUS_AIS (n : Nat) : Fld := ⟨FIL_LANE_STATUS n, 4, 4⟩
def FIL_LANE_STATUS_RDI_RX (n : Nat) : Fld := ⟨FIL_LANE_STATUS n, 5, 5⟩
def FIL_LANE_STATUS_CANDS (n : Nat) : Fld := ⟨FIL_LANE_STATUS n, 8, 6⟩
def FIL_LANE_STATUS_SFN (n : Nat) : Fld := ⟨FIL_LANE_STATUS n, 25, 16⟩
def FIL_LANE_STATUS_MFN (n : Nat) : Fld := ⟨FIL_LANE_STATUS n, 30, 26⟩
/-- R208: register FIL_LANE_EV_CAUSE. -/
def FIL_LANE_EV_CAUSE (n : Nat) : Nat := 0xa10004 + 0x100 * n
def FIL_LANE_EV_CAUSE_BF_LOSS (n : Nat) : Fld := ⟨FIL_LANE_EV_CAUSE n, 0, 0⟩
def FIL_LANE_EV_CAUSE_BF_GAIN (n : Nat) : Fld := ⟨FIL_LANE_EV_CAUSE n, 1, 1⟩
def FIL_LANE_EV_CAUSE_MF_LOSS (n : Nat) : Fld := ⟨FIL_LANE_EV_CAUSE n, 2, 2⟩
def FIL_LANE_EV_CAUSE_MF_GAIN (n : Nat) : Fld := ⟨FIL_LANE_EV_CAUSE n, 3, 3⟩
def FIL_LANE_EV_CAUSE_FALSE_ALIGN (n : Nat) : Fld := ⟨FIL_LANE_EV_CAUSE n, 4, 4⟩
def FIL_LANE_EV_CAUSE_RDI_ON (n : Nat) : Fld := ⟨FIL_LANE_EV_CAUSE n, 5, 5⟩
def FIL_LANE_EV_CAUSE_RDI_OFF (n : Nat) : Fld := ⟨FIL_LANE_EV_CAUSE n, 6, 6⟩
def FIL_LANE_EV_CAUSE_LOP (n : Nat) : Fld := ⟨FIL_LANE_EV_CAUSE n, 7, 7⟩
def FIL_LANE_EV_CAUSE_PTR_JUMP (n : Nat) : Fld := ⟨FIL_LANE_EV_CAUSE n, 8, 8⟩
def FIL_LANE_EV_CAUSE_ETH_LOST (n : Nat) : Fld := ⟨FIL_LANE_EV_CAUSE n, 9, 9⟩
def FIL_LANE_EV_CAUSE_ETH_UNSUPP (n : Nat) : Fld := ⟨FIL_LANE_EV_CAUSE n, 10, 10⟩
/-- R208: register FIL_LANE_CNT_AWERR. -/
def FIL_LANE_CNT_AWERR (n : Nat) : Nat := 0xa10008 + 0x100 * n
def FIL_LANE_CNT_AWERR_COUNT (n : Nat) : Fld := ⟨FIL_LANE_CNT_AWERR n, 31, 0⟩
/-- R208: register FIL_LANE_CNT_OHERR. -/
def FIL_LANE_CNT_OHERR (n : Nat) : Nat := 0xa1000c + 0x100 * n
def FIL_LANE_CNT_OHERR_COUNT (n : Nat) : Fld := ⟨FIL_LANE_CNT_OHERR n, 31, 0⟩
/-- R208: register FIL_LANE_CNT_ERRBLK. -/
def FIL_LANE_CNT_ERRBLK (n : Nat) : Nat := 0xa10010 + 0x100 * n
def FIL_LANE_CNT_ERRBLK_COUNT (n : Nat) : Fld := ⟨FIL_LANE_CNT_ERRBLK n, 31, 0⟩
/-- R208: register FIL_LANE_CNT_JUST. -/
def FIL_LANE_CNT_JUST (n : Nat) : Nat := 0xa10014 + 0x100 * n
def FIL_LANE_CNT_JUST_INC (n : Nat) : Fld := ⟨FIL_LANE_CNT_JUST n, 15, 0⟩
def FIL_LANE_CNT_JUST_DEC (n : Nat) : Fld := ⟨FIL_LANE_CNT_JUST n, 31, 16⟩
/-- R208: register FIL_LANE_CNT_AISBF. -/
def FIL_LANE_CNT_AISBF (n : Nat) : Nat := 0xa10018 + 0x100 * n
def FIL_LANE_CNT_AISBF_COUNT (n : Nat) : Fld := ⟨FIL_LANE_CNT_AISBF n, 31, 0⟩
/-- R208: register FIL_LANE_DELAY. -/
def FIL_LANE_DELAY (n : Nat) : Nat := 0xa1001c + 0x100 * n
def FIL_LANE_DELAY_NS (n : Nat) : Fld := ⟨FIL_LANE_DELAY n, 31, 0⟩
/-- R208: register FIL_LANE_ETH_RX. -/
def FIL_LANE_ETH_RX (n : Nat) : Nat := 0xa10020 + 0x100 * n
def FIL_LANE_ETH_RX_COUNT (n : Nat) : Fld := ⟨FIL_LANE_ETH_RX n, 31, 0⟩
/-- R208: register FIL_LANE_ETH_DROP. -/
def FIL_LANE_ETH_DROP (n : Nat) : Nat := 0xa10024 + 0x100 * n
def FIL_LANE_ETH_DROP_COUNT (n : Nat) : Fld := ⟨FIL_LANE_ETH_DROP n, 31, 0⟩
/-- R208: register FIL_LANE_ETH_UNSUPP. -/
def FIL_LANE_ETH_UNSUPP (n : Nat) : Nat := 0xa10028 + 0x100 * n
def FIL_LANE_ETH_UNSUPP_COUNT (n : Nat) : Fld := ⟨FIL_LANE_ETH_UNSUPP n, 31, 0⟩
/-- R208: register FIL_CTR_STATUS. -/
def FIL_CTR_STATUS (n : Nat) (c : Nat) : Nat := 0xa10080 + 0x100 * n + 0x4 * c
def FIL_CTR_STATUS_PTR (n : Nat) (c : Nat) : Fld := ⟨FIL_CTR_STATUS n c, 15, 0⟩
def FIL_CTR_STATUS_PSTATE (n : Nat) (c : Nat) : Fld := ⟨FIL_CTR_STATUS n c, 17, 16⟩
def FIL_CTR_STATUS_VALID (n : Nat) (c : Nat) : Fld := ⟨FIL_CTR_STATUS n c, 18, 18⟩
def FIL_CTR_STATUS_DIR (n : Nat) (c : Nat) : Fld := ⟨FIL_CTR_STATUS n c, 19, 19⟩
/-- R208: register FIL_GRP_STATUS. -/
def FIL_GRP_STATUS (g : Nat) : Nat := 0xa30000 + 0x40 * g
def FIL_GRP_STATUS_STATE (g : Nat) : Fld := ⟨FIL_GRP_STATUS g, 2, 0⟩
def FIL_GRP_STATUS_USABLE (g : Nat) : Fld := ⟨FIL_GRP_STATUS g, 11, 3⟩
def FIL_GRP_STATUS_LOST (g : Nat) : Fld := ⟨FIL_GRP_STATUS g, 14, 12⟩
def FIL_GRP_STATUS_SKEW (g : Nat) : Fld := ⟨FIL_GRP_STATUS g, 23, 16⟩
/-- R208: register FIL_GRP_EV_CAUSE. -/
def FIL_GRP_EV_CAUSE (g : Nat) : Nat := 0xa30004 + 0x40 * g
def FIL_GRP_EV_CAUSE_DEGRADED (g : Nat) : Fld := ⟨FIL_GRP_EV_CAUSE g, 0, 0⟩
def FIL_GRP_EV_CAUSE_DOWN (g : Nat) : Fld := ⟨FIL_GRP_EV_CAUSE g, 1, 1⟩
def FIL_GRP_EV_CAUSE_RESTORED (g : Nat) : Fld := ⟨FIL_GRP_EV_CAUSE g, 2, 2⟩
def FIL_GRP_EV_CAUSE_SKEW (g : Nat) : Fld := ⟨FIL_GRP_EV_CAUSE g, 3, 3⟩
def FIL_GRP_EV_CAUSE_MISWIRED (g : Nat) : Fld := ⟨FIL_GRP_EV_CAUSE g, 4, 4⟩
/-- R208: register FIL_GRP_CNT_RECON. -/
def FIL_GRP_CNT_RECON (g : Nat) : Nat := 0xa30008 + 0x40 * g
def FIL_GRP_CNT_RECON_COUNT (g : Nat) : Fld := ⟨FIL_GRP_CNT_RECON g, 31, 0⟩
/-- R208: register FIL_GRP_CNT_AISBF. -/
def FIL_GRP_CNT_AISBF (g : Nat) : Nat := 0xa3000c + 0x40 * g
def FIL_GRP_CNT_AISBF_COUNT (g : Nat) : Fld := ⟨FIL_GRP_CNT_AISBF g, 31, 0⟩

/-! ### NET -/
/-- R566: register NET_CTRL. -/
def NET_CTRL : Nat := 0xc00000
def NET_CTRL_MODE : Fld := ⟨NET_CTRL, 1, 0⟩
def NET_CTRL_PORT_EN : Fld := ⟨NET_CTRL, 11, 8⟩
def NET_CTRL_PTP_PORTS : Fld := ⟨NET_CTRL, 15, 12⟩
/-- R566: register NET_PORT_STATUS. -/
def NET_PORT_STATUS (p : Nat) : Nat := 0xc00100 + 0x40 * p
def NET_PORT_STATUS_LINK (p : Nat) : Fld := ⟨NET_PORT_STATUS p, 0, 0⟩
def NET_PORT_STATUS_HI_BER (p : Nat) : Fld := ⟨NET_PORT_STATUS p, 1, 1⟩
def NET_PORT_STATUS_TXTS_COUNT (p : Nat) : Fld := ⟨NET_PORT_STATUS p, 7, 3⟩
/-- R566: register NET_PORT_EV_CAUSE. -/
def NET_PORT_EV_CAUSE (p : Nat) : Nat := 0xc00104 + 0x40 * p
def NET_PORT_EV_CAUSE_LINK_DOWN (p : Nat) : Fld := ⟨NET_PORT_EV_CAUSE p, 0, 0⟩
def NET_PORT_EV_CAUSE_LINK_UP (p : Nat) : Fld := ⟨NET_PORT_EV_CAUSE p, 1, 1⟩
def NET_PORT_EV_CAUSE_RX_DROP (p : Nat) : Fld := ⟨NET_PORT_EV_CAUSE p, 2, 2⟩
def NET_PORT_EV_CAUSE_TX_DROP (p : Nat) : Fld := ⟨NET_PORT_EV_CAUSE p, 3, 3⟩
def NET_PORT_EV_CAUSE_TXTS_OVF (p : Nat) : Fld := ⟨NET_PORT_EV_CAUSE p, 4, 4⟩
def NET_PORT_EV_CAUSE_HI_BER (p : Nat) : Fld := ⟨NET_PORT_EV_CAUSE p, 5, 5⟩
/-- R566: register NET_RXQ. -/
def NET_RXQ (p : Nat) : Nat := 0xc00108 + 0x40 * p
def NET_RXQ_MAP (p : Nat) : Fld := ⟨NET_RXQ p, 23, 0⟩
/-- R566: register NET_TXTS_TAG. -/
def NET_TXTS_TAG (p : Nat) : Nat := 0xc0010c + 0x40 * p
def NET_TXTS_TAG_TAG (p : Nat) : Fld := ⟨NET_TXTS_TAG p, 31, 0⟩
/-- R566: register NET_TXTS_NS. -/
def NET_TXTS_NS (p : Nat) : Nat := 0xc00110 + 0x40 * p
def NET_TXTS_NS_NS (p : Nat) : Fld := ⟨NET_TXTS_NS p, 31, 0⟩
/-- R566: register NET_TXTS_SEC_LO. -/
def NET_TXTS_SEC_LO (p : Nat) : Nat := 0xc00114 + 0x40 * p
def NET_TXTS_SEC_LO_SEC (p : Nat) : Fld := ⟨NET_TXTS_SEC_LO p, 31, 0⟩
/-- R566: register NET_TXTS_SEC_HI. -/
def NET_TXTS_SEC_HI (p : Nat) : Nat := 0xc00118 + 0x40 * p
def NET_TXTS_SEC_HI_SEC (p : Nat) : Fld := ⟨NET_TXTS_SEC_HI p, 15, 0⟩
/-- R566: register NET_CNT_RX. -/
def NET_CNT_RX (p : Nat) : Nat := 0xc00120 + 0x40 * p
def NET_CNT_RX_COUNT (p : Nat) : Fld := ⟨NET_CNT_RX p, 31, 0⟩
/-- R566: register NET_CNT_TX. -/
def NET_CNT_TX (p : Nat) : Nat := 0xc00124 + 0x40 * p
def NET_CNT_TX_COUNT (p : Nat) : Fld := ⟨NET_CNT_TX p, 31, 0⟩
/-- R566: register NET_CNT_RX_DROP. -/
def NET_CNT_RX_DROP (p : Nat) : Nat := 0xc00128 + 0x40 * p
def NET_CNT_RX_DROP_COUNT (p : Nat) : Fld := ⟨NET_CNT_RX_DROP p, 31, 0⟩
/-- R566: register NET_CNT_TX_DROP. -/
def NET_CNT_TX_DROP (p : Nat) : Nat := 0xc0012c + 0x40 * p
def NET_CNT_TX_DROP_COUNT (p : Nat) : Fld := ⟨NET_CNT_TX_DROP p, 31, 0⟩
/-- R566: register NET_CNT_FCS. -/
def NET_CNT_FCS (p : Nat) : Nat := 0xc00130 + 0x40 * p
def NET_CNT_FCS_COUNT (p : Nat) : Fld := ⟨NET_CNT_FCS p, 31, 0⟩
/-- R566: register NET_TXQ_PORT. -/
def NET_TXQ_PORT (d : Nat) : Nat := 0xc00200 + 0x20 * d
def NET_TXQ_PORT_MAP (d : Nat) : Fld := ⟨NET_TXQ_PORT d, 15, 0⟩
/-- R566: register NET_Q_EV_CAUSE. -/
def NET_Q_EV_CAUSE (d : Nat) : Nat := 0xc00204 + 0x20 * d
def NET_Q_EV_CAUSE_TXQ_ERR (d : Nat) : Fld := ⟨NET_Q_EV_CAUSE d, 0, 0⟩
/-- R566: register NET_QWIN. -/
def NET_QWIN (d : Nat) (i : Nat) : Nat := 0xc80000 + 0x10000 * d + 0x1000 * i
def NET_QWIN_DATA (d : Nat) (i : Nat) : Fld := ⟨NET_QWIN d i, 31, 0⟩

/-! ### TWN -/
/-- R537: register TWN_CTRL. -/
def TWN_CTRL : Nat := 0xd00000
def TWN_CTRL_EN : Fld := ⟨TWN_CTRL, 0, 0⟩
def TWN_CTRL_LEVEL : Fld := ⟨TWN_CTRL, 2, 1⟩
def TWN_CTRL_SIDE : Fld := ⟨TWN_CTRL, 3, 3⟩
def TWN_CTRL_TAKEOVER : Fld := ⟨TWN_CTRL, 4, 4⟩
def TWN_CTRL_LINK_EN : Fld := ⟨TWN_CTRL, 5, 5⟩
def TWN_CTRL_HB_TIMEOUT_US : Fld := ⟨TWN_CTRL, 15, 8⟩
def TWN_CTRL_SB_PCP : Fld := ⟨TWN_CTRL, 18, 16⟩
/-- R537: register TWN_STATUS. -/
def TWN_STATUS : Nat := 0xd00004
def TWN_STATUS_ROLE : Fld := ⟨TWN_STATUS, 1, 0⟩
def TWN_STATUS_PEER_ROLE : Fld := ⟨TWN_STATUS, 3, 2⟩
def TWN_STATUS_HB_OK : Fld := ⟨TWN_STATUS, 4, 4⟩
def TWN_STATUS_PIN_OK : Fld := ⟨TWN_STATUS, 5, 5⟩
def TWN_STATUS_SYNC : Fld := ⟨TWN_STATUS, 6, 6⟩
def TWN_STATUS_LINK_UP : Fld := ⟨TWN_STATUS, 7, 7⟩
def TWN_STATUS_G0_STATE : Fld := ⟨TWN_STATUS, 10, 8⟩
def TWN_STATUS_G1_STATE : Fld := ⟨TWN_STATUS, 13, 11⟩
def TWN_STATUS_LAG_TICKS : Fld := ⟨TWN_STATUS, 23, 16⟩
/-- R537: register TWN_EV_CAUSE. -/
def TWN_EV_CAUSE : Nat := 0xd00008
def TWN_EV_CAUSE_LINK_DOWN : Fld := ⟨TWN_EV_CAUSE, 0, 0⟩
def TWN_EV_CAUSE_LINK_UP : Fld := ⟨TWN_EV_CAUSE, 1, 1⟩
def TWN_EV_CAUSE_GRP_DEGRADED : Fld := ⟨TWN_EV_CAUSE, 2, 2⟩
def TWN_EV_CAUSE_HB_LOST : Fld := ⟨TWN_EV_CAUSE, 3, 3⟩
def TWN_EV_CAUSE_PIN_LOST : Fld := ⟨TWN_EV_CAUSE, 4, 4⟩
def TWN_EV_CAUSE_TAKING_OVER : Fld := ⟨TWN_EV_CAUSE, 5, 5⟩
def TWN_EV_CAUSE_ACTIVE : Fld := ⟨TWN_EV_CAUSE, 6, 6⟩
def TWN_EV_CAUSE_STEP_DOWN : Fld := ⟨TWN_EV_CAUSE, 7, 7⟩
def TWN_EV_CAUSE_LAG : Fld := ⟨TWN_EV_CAUSE, 8, 8⟩
def TWN_EV_CAUSE_STAGE_OVF : Fld := ⟨TWN_EV_CAUSE, 9, 9⟩
def TWN_EV_CAUSE_RESYNC : Fld := ⟨TWN_EV_CAUSE, 10, 10⟩
def TWN_EV_CAUSE_SYNC_OK : Fld := ⟨TWN_EV_CAUSE, 11, 11⟩
def TWN_EV_CAUSE_BAD_CELL : Fld := ⟨TWN_EV_CAUSE, 12, 12⟩
def TWN_EV_CAUSE_MSG : Fld := ⟨TWN_EV_CAUSE, 13, 13⟩
/-- R537: register TWN_ACTIVE_SINCE_LO. -/
def TWN_ACTIVE_SINCE_LO : Nat := 0xd00010
def TWN_ACTIVE_SINCE_LO_TICK : Fld := ⟨TWN_ACTIVE_SINCE_LO, 31, 0⟩
/-- R537: register TWN_ACTIVE_SINCE_HI. -/
def TWN_ACTIVE_SINCE_HI : Nat := 0xd00014
def TWN_ACTIVE_SINCE_HI_TICK : Fld := ⟨TWN_ACTIVE_SINCE_HI, 31, 0⟩
/-- R537: register TWN_LAST_COMMIT. -/
def TWN_LAST_COMMIT : Nat := 0xd00018
def TWN_LAST_COMMIT_TICK : Fld := ⟨TWN_LAST_COMMIT, 31, 0⟩
/-- R537: register TWN_STAGE_LO. -/
def TWN_STAGE_LO : Nat := 0xd00020
def TWN_STAGE_LO_ADDR : Fld := ⟨TWN_STAGE_LO, 31, 0⟩
/-- R537: register TWN_STAGE_HI. -/
def TWN_STAGE_HI : Nat := 0xd00024
def TWN_STAGE_HI_ADDR : Fld := ⟨TWN_STAGE_HI, 15, 0⟩
/-- R537: register TWN_STAGE_SIZE. -/
def TWN_STAGE_SIZE : Nat := 0xd00028
def TWN_STAGE_SIZE_MIB : Fld := ⟨TWN_STAGE_SIZE, 7, 0⟩
/-- R537: register TWN_CNT_TX. -/
def TWN_CNT_TX : Nat := 0xd00040
def TWN_CNT_TX_COUNT : Fld := ⟨TWN_CNT_TX, 31, 0⟩
/-- R537: register TWN_CNT_RX. -/
def TWN_CNT_RX : Nat := 0xd00044
def TWN_CNT_RX_COUNT : Fld := ⟨TWN_CNT_RX, 31, 0⟩
/-- R537: register TWN_CNT_BAD. -/
def TWN_CNT_BAD : Nat := 0xd00048
def TWN_CNT_BAD_COUNT : Fld := ⟨TWN_CNT_BAD, 31, 0⟩
/-- R537: register TWN_CNT_RESYNC. -/
def TWN_CNT_RESYNC : Nat := 0xd0004c
def TWN_CNT_RESYNC_COUNT : Fld := ⟨TWN_CNT_RESYNC, 31, 0⟩
/-- R537: register TWN_MIRROR_LO. -/
def TWN_MIRROR_LO (r : Nat) : Nat := 0xd00100 + 0x10 * r
def TWN_MIRROR_LO_ADDR (r : Nat) : Fld := ⟨TWN_MIRROR_LO r, 31, 0⟩
/-- R537: register TWN_MIRROR_HI. -/
def TWN_MIRROR_HI (r : Nat) : Nat := 0xd00104 + 0x10 * r
def TWN_MIRROR_HI_ADDR (r : Nat) : Fld := ⟨TWN_MIRROR_HI r, 15, 0⟩
/-- R537: register TWN_MIRROR_LEN. -/
def TWN_MIRROR_LEN (r : Nat) : Nat := 0xd00108 + 0x10 * r
def TWN_MIRROR_LEN_LINES (r : Nat) : Fld := ⟨TWN_MIRROR_LEN r, 19, 0⟩
def TWN_MIRROR_LEN_EN (r : Nat) : Fld := ⟨TWN_MIRROR_LEN r, 20, 20⟩
/-- R537: register TWN_MSG. -/
def TWN_MSG (d : Nat) : Nat := 0xd80000 + 0x1000 * d
def TWN_MSG_DATA (d : Nat) : Fld := ⟨TWN_MSG d, 31, 0⟩

/-! ### TBC -/
/-- R337: register TBC_CTRL. -/
def TBC_CTRL (p : Nat) : Nat := 0xe00000 + 0x100 * p
def TBC_CTRL_EN (p : Nat) : Fld := ⟨TBC_CTRL p, 0, 0⟩
def TBC_CTRL_EV_SWAP (p : Nat) : Fld := ⟨TBC_CTRL p, 1, 1⟩
def TBC_CTRL_CARRIER (p : Nat) : Fld := ⟨TBC_CTRL p, 13, 8⟩
/-- R337: register TBC_TIMING. -/
def TBC_TIMING (p : Nat) : Nat := 0xe00004 + 0x100 * p
def TBC_TIMING_ARM_LEAD (p : Nat) : Fld := ⟨TBC_TIMING p, 11, 0⟩
def TBC_TIMING_STB_WAIT (p : Nat) : Fld := ⟨TBC_TIMING p, 27, 16⟩
/-- R337: register TBC_SWAP_REQ. -/
def TBC_SWAP_REQ (p : Nat) : Nat := 0xe00008 + 0x100 * p
def TBC_SWAP_REQ_SLOT (p : Nat) : Fld := ⟨TBC_SWAP_REQ p, 15, 0⟩
def TBC_SWAP_REQ_SYMBOL (p : Nat) : Fld := ⟨TBC_SWAP_REQ p, 19, 16⟩
/-- R337: register TBC_STATUS. -/
def TBC_STATUS (p : Nat) : Nat := 0xe0000c + 0x100 * p
def TBC_STATUS_SEL (p : Nat) : Fld := ⟨TBC_STATUS p, 0, 0⟩
def TBC_STATUS_PENDING (p : Nat) : Fld := ⟨TBC_STATUS p, 1, 1⟩
def TBC_STATUS_CLK_OK (p : Nat) : Fld := ⟨TBC_STATUS p, 2, 2⟩
def TBC_STATUS_WIN_OPEN (p : Nat) : Fld := ⟨TBC_STATUS p, 3, 3⟩
/-- R337: register TBC_EV_CAUSE. -/
def TBC_EV_CAUSE (p : Nat) : Nat := 0xe00010 + 0x100 * p
def TBC_EV_CAUSE_SWAP (p : Nat) : Fld := ⟨TBC_EV_CAUSE p, 0, 0⟩
def TBC_EV_CAUSE_LATE (p : Nat) : Fld := ⟨TBC_EV_CAUSE p, 1, 1⟩
def TBC_EV_CAUSE_BUSY (p : Nat) : Fld := ⟨TBC_EV_CAUSE p, 2, 2⟩
def TBC_EV_CAUSE_NO_STROBE (p : Nat) : Fld := ⟨TBC_EV_CAUSE p, 3, 3⟩
def TBC_EV_CAUSE_LATE_WRITE (p : Nat) : Fld := ⟨TBC_EV_CAUSE p, 4, 4⟩
def TBC_EV_CAUSE_CLK_LOST (p : Nat) : Fld := ⟨TBC_EV_CAUSE p, 5, 5⟩
def TBC_EV_CAUSE_CLK_OK (p : Nat) : Fld := ⟨TBC_EV_CAUSE p, 6, 6⟩
def TBC_EV_CAUSE_ECC_UE (p : Nat) : Fld := ⟨TBC_EV_CAUSE p, 7, 7⟩
/-- R337: register TBC_LAST_SWAP. -/
def TBC_LAST_SWAP (p : Nat) : Nat := 0xe00014 + 0x100 * p
def TBC_LAST_SWAP_SLOT (p : Nat) : Fld := ⟨TBC_LAST_SWAP p, 15, 0⟩
def TBC_LAST_SWAP_SYMBOL (p : Nat) : Fld := ⟨TBC_LAST_SWAP p, 19, 16⟩
def TBC_LAST_SWAP_SEL (p : Nat) : Fld := ⟨TBC_LAST_SWAP p, 20, 20⟩
def TBC_LAST_SWAP_NO_STROBE (p : Nat) : Fld := ⟨TBC_LAST_SWAP p, 21, 21⟩
/-- R337: register TBC_SWAP_TS_NS. -/
def TBC_SWAP_TS_NS (p : Nat) : Nat := 0xe00018 + 0x100 * p
def TBC_SWAP_TS_NS_NS (p : Nat) : Fld := ⟨TBC_SWAP_TS_NS p, 31, 0⟩
/-- R337: register TBC_SWAP_TS_SEC. -/
def TBC_SWAP_TS_SEC (p : Nat) : Nat := 0xe0001c + 0x100 * p
def TBC_SWAP_TS_SEC_SEC (p : Nat) : Fld := ⟨TBC_SWAP_TS_SEC p, 31, 0⟩
/-- R337: register TBC_CNT_SWAP. -/
def TBC_CNT_SWAP (p : Nat) : Nat := 0xe00020 + 0x100 * p
def TBC_CNT_SWAP_COUNT (p : Nat) : Fld := ⟨TBC_CNT_SWAP p, 31, 0⟩
/-- R337: register TBC_CNT_STB. -/
def TBC_CNT_STB (p : Nat) : Nat := 0xe00024 + 0x100 * p
def TBC_CNT_STB_COUNT (p : Nat) : Fld := ⟨TBC_CNT_STB p, 31, 0⟩
/-- R337: register TBC_CNT_STB_UNUSED. -/
def TBC_CNT_STB_UNUSED (p : Nat) : Nat := 0xe00028 + 0x100 * p
def TBC_CNT_STB_UNUSED_COUNT (p : Nat) : Fld := ⟨TBC_CNT_STB_UNUSED p, 31, 0⟩
/-- R337: register TBC_CNT_ECC_CE. -/
def TBC_CNT_ECC_CE (p : Nat) : Nat := 0xe0002c + 0x100 * p
def TBC_CNT_ECC_CE_COUNT (p : Nat) : Fld := ⟨TBC_CNT_ECC_CE p, 31, 0⟩
/-- R337: register TBC_CNT_LATE_WRITE. -/
def TBC_CNT_LATE_WRITE (p : Nat) : Nat := 0xe00030 + 0x100 * p
def TBC_CNT_LATE_WRITE_COUNT (p : Nat) : Fld := ⟨TBC_CNT_LATE_WRITE p, 31, 0⟩
/-- R337: register TBC_TABLE. -/
def TBC_TABLE (p : Nat) (b : Nat) (i : Nat) : Nat := 0xe10000 + 0x8000 * p + 0x1000 * b + 0x4 * i
def TBC_TABLE_ENTRY (p : Nat) (b : Nat) (i : Nat) : Fld := ⟨TBC_TABLE p b i, 31, 0⟩

/-! ### DMA -/
/-- R453: register DMA_ENG_CTRL. -/
def DMA_ENG_CTRL (e : Nat) : Nat := 0x1000000 + 0x80000 * e
def DMA_ENG_CTRL_ASLEEP_RETRY (e : Nat) : Fld := ⟨DMA_ENG_CTRL e, 3, 0⟩
def DMA_ENG_CTRL_MODE (e : Nat) : Fld := ⟨DMA_ENG_CTRL e, 4, 4⟩
/-- R453: register DMA_ENG_STATUS. -/
def DMA_ENG_STATUS (e : Nat) : Nat := 0x1000004 + 0x80000 * e
def DMA_ENG_STATUS_FENCED (e : Nat) : Fld := ⟨DMA_ENG_STATUS e, 0, 0⟩
def DMA_ENG_STATUS_GRANT (e : Nat) : Fld := ⟨DMA_ENG_STATUS e, 5, 1⟩
/-- R453: register DMA_ENG_EV_PEND. -/
def DMA_ENG_EV_PEND (e : Nat) : Nat := 0x1000008 + 0x80000 * e
def DMA_ENG_EV_PEND_CH (e : Nat) : Fld := ⟨DMA_ENG_EV_PEND e, 31, 0⟩
/-- R453: register DMA_SWREQ. -/
def DMA_SWREQ (e : Nat) : Nat := 0x100000c + 0x80000 * e
def DMA_SWREQ_LINE (e : Nat) : Fld := ⟨DMA_SWREQ e, 7, 0⟩
/-- R453: register DMA_CH_CTRL. -/
def DMA_CH_CTRL (e : Nat) (c : Nat) : Nat := 0x1001000 + 0x80000 * e + 0x100 * c
def DMA_CH_CTRL_EN (e : Nat) (c : Nat) : Fld := ⟨DMA_CH_CTRL e c, 0, 0⟩
def DMA_CH_CTRL_HALT_ON_ERR (e : Nat) (c : Nat) : Fld := ⟨DMA_CH_CTRL e c, 1, 1⟩
def DMA_CH_CTRL_WAKE (e : Nat) (c : Nat) : Fld := ⟨DMA_CH_CTRL e c, 2, 2⟩
def DMA_CH_CTRL_ABORT (e : Nat) (c : Nat) : Fld := ⟨DMA_CH_CTRL e c, 3, 3⟩
/-- R453: register DMA_CH_STATUS. -/
def DMA_CH_STATUS (e : Nat) (c : Nat) : Nat := 0x1001004 + 0x80000 * e + 0x100 * c
def DMA_CH_STATUS_STATE (e : Nat) (c : Nat) : Fld := ⟨DMA_CH_STATUS e c, 2, 0⟩
def DMA_CH_STATUS_COMMIT_MISSED (e : Nat) (c : Nat) : Fld := ⟨DMA_CH_STATUS e c, 3, 3⟩
def DMA_CH_STATUS_PROV (e : Nat) (c : Nat) : Fld := ⟨DMA_CH_STATUS e c, 4, 4⟩
def DMA_CH_STATUS_UNVER (e : Nat) (c : Nat) : Fld := ⟨DMA_CH_STATUS e c, 5, 5⟩
def DMA_CH_STATUS_PENDING (e : Nat) (c : Nat) : Fld := ⟨DMA_CH_STATUS e c, 15, 8⟩
def DMA_CH_STATUS_HOCOUNT (e : Nat) (c : Nat) : Fld := ⟨DMA_CH_STATUS e c, 31, 16⟩
/-- R453: register DMA_CH_EV_CAUSE. -/
def DMA_CH_EV_CAUSE (e : Nat) (c : Nat) : Nat := 0x1001008 + 0x80000 * e + 0x100 * c
def DMA_CH_EV_CAUSE_DONE (e : Nat) (c : Nat) : Fld := ⟨DMA_CH_EV_CAUSE e c, 0, 0⟩
def DMA_CH_EV_CAUSE_ERROR (e : Nat) (c : Nat) : Fld := ⟨DMA_CH_EV_CAUSE e c, 1, 1⟩
def DMA_CH_EV_CAUSE_EXPIRED (e : Nat) (c : Nat) : Fld := ⟨DMA_CH_EV_CAUSE e c, 2, 2⟩
def DMA_CH_EV_CAUSE_REQ_OVF (e : Nat) (c : Nat) : Fld := ⟨DMA_CH_EV_CAUSE e c, 3, 3⟩
def DMA_CH_EV_CAUSE_COMMIT_MISSED (e : Nat) (c : Nat) : Fld := ⟨DMA_CH_EV_CAUSE e c, 4, 4⟩
def DMA_CH_EV_CAUSE_FENCED (e : Nat) (c : Nat) : Fld := ⟨DMA_CH_EV_CAUSE e c, 5, 5⟩
def DMA_CH_EV_CAUSE_PROV_REFUSED (e : Nat) (c : Nat) : Fld := ⟨DMA_CH_EV_CAUSE e c, 6, 6⟩
def DMA_CH_EV_CAUSE_ABANDONED (e : Nat) (c : Nat) : Fld := ⟨DMA_CH_EV_CAUSE e c, 7, 7⟩
/-- R453: register DMA_CH_ERR. -/
def DMA_CH_ERR (e : Nat) (c : Nat) : Nat := 0x100100c + 0x80000 * e + 0x100 * c
def DMA_CH_ERR_RESP (e : Nat) (c : Nat) : Fld := ⟨DMA_CH_ERR e c, 2, 0⟩
def DMA_CH_ERR_CODE (e : Nat) (c : Nat) : Fld := ⟨DMA_CH_ERR e c, 11, 8⟩
/-- R453: register DMA_CH_SH_DESC_LO. -/
def DMA_CH_SH_DESC_LO (e : Nat) (c : Nat) : Nat := 0x1001010 + 0x80000 * e + 0x100 * c
def DMA_CH_SH_DESC_LO_ADDR (e : Nat) (c : Nat) : Fld := ⟨DMA_CH_SH_DESC_LO e c, 31, 0⟩
/-- R453: register DMA_CH_SH_DESC_HI. -/
def DMA_CH_SH_DESC_HI (e : Nat) (c : Nat) : Nat := 0x1001014 + 0x80000 * e + 0x100 * c
def DMA_CH_SH_DESC_HI_ADDR (e : Nat) (c : Nat) : Fld := ⟨DMA_CH_SH_DESC_HI e c, 15, 0⟩
/-- R453: register DMA_CH_SH_CFG. -/
def DMA_CH_SH_CFG (e : Nat) (c : Nat) : Nat := 0x1001018 + 0x80000 * e + 0x100 * c
def DMA_CH_SH_CFG_REQSEL (e : Nat) (c : Nat) : Fld := ⟨DMA_CH_SH_CFG e c, 8, 0⟩
def DMA_CH_SH_CFG_REQ_EN (e : Nat) (c : Nat) : Fld := ⟨DMA_CH_SH_CFG e c, 9, 9⟩
def DMA_CH_SH_CFG_PRIO (e : Nat) (c : Nat) : Fld := ⟨DMA_CH_SH_CFG e c, 12, 10⟩
def DMA_CH_SH_CFG_TICK_EN (e : Nat) (c : Nat) : Fld := ⟨DMA_CH_SH_CFG e c, 13, 13⟩
def DMA_CH_SH_CFG_BASETICK (e : Nat) (c : Nat) : Fld := ⟨DMA_CH_SH_CFG e c, 14, 14⟩
def DMA_CH_SH_CFG_CARRIER (e : Nat) (c : Nat) : Fld := ⟨DMA_CH_SH_CFG e c, 20, 15⟩
def DMA_CH_SH_CFG_RT (e : Nat) (c : Nat) : Fld := ⟨DMA_CH_SH_CFG e c, 21, 21⟩
/-- R453: register DMA_CH_SH_COMMIT. -/
def DMA_CH_SH_COMMIT (e : Nat) (c : Nat) : Nat := 0x100101c + 0x80000 * e + 0x100 * c
def DMA_CH_SH_COMMIT_COMMIT (e : Nat) (c : Nat) : Fld := ⟨DMA_CH_SH_COMMIT e c, 0, 0⟩
/-- R453: register DMA_CH_DESC_LO. -/
def DMA_CH_DESC_LO (e : Nat) (c : Nat) : Nat := 0x1001020 + 0x80000 * e + 0x100 * c
def DMA_CH_DESC_LO_ADDR (e : Nat) (c : Nat) : Fld := ⟨DMA_CH_DESC_LO e c, 31, 0⟩
/-- R453: register DMA_CH_DESC_HI. -/
def DMA_CH_DESC_HI (e : Nat) (c : Nat) : Nat := 0x1001024 + 0x80000 * e + 0x100 * c
def DMA_CH_DESC_HI_ADDR (e : Nat) (c : Nat) : Fld := ⟨DMA_CH_DESC_HI e c, 15, 0⟩
/-- R453: register DMA_CH_CFG. -/
def DMA_CH_CFG (e : Nat) (c : Nat) : Nat := 0x1001028 + 0x80000 * e + 0x100 * c
def DMA_CH_CFG_REQSEL (e : Nat) (c : Nat) : Fld := ⟨DMA_CH_CFG e c, 8, 0⟩
def DMA_CH_CFG_REQ_EN (e : Nat) (c : Nat) : Fld := ⟨DMA_CH_CFG e c, 9, 9⟩
def DMA_CH_CFG_PRIO (e : Nat) (c : Nat) : Fld := ⟨DMA_CH_CFG e c, 12, 10⟩
def DMA_CH_CFG_TICK_EN (e : Nat) (c : Nat) : Fld := ⟨DMA_CH_CFG e c, 13, 13⟩
def DMA_CH_CFG_BASETICK (e : Nat) (c : Nat) : Fld := ⟨DMA_CH_CFG e c, 14, 14⟩
def DMA_CH_CFG_CARRIER (e : Nat) (c : Nat) : Fld := ⟨DMA_CH_CFG e c, 20, 15⟩
def DMA_CH_CFG_RT (e : Nat) (c : Nat) : Fld := ⟨DMA_CH_CFG e c, 21, 21⟩
/-- R453: register DMA_CH_REMAIN. -/
def DMA_CH_REMAIN (e : Nat) (c : Nat) : Nat := 0x100102c + 0x80000 * e + 0x100 * c
def DMA_CH_REMAIN_BYTES (e : Nat) (c : Nat) : Fld := ⟨DMA_CH_REMAIN e c, 23, 0⟩
/-- R453: register DMA_CH_CNT_DESC. -/
def DMA_CH_CNT_DESC (e : Nat) (c : Nat) : Nat := 0x1001030 + 0x80000 * e + 0x100 * c
def DMA_CH_CNT_DESC_COUNT (e : Nat) (c : Nat) : Fld := ⟨DMA_CH_CNT_DESC e c, 31, 0⟩
/-- R453: register DMA_CH_CNT_BURST. -/
def DMA_CH_CNT_BURST (e : Nat) (c : Nat) : Nat := 0x1001034 + 0x80000 * e + 0x100 * c
def DMA_CH_CNT_BURST_COUNT (e : Nat) (c : Nat) : Fld := ⟨DMA_CH_CNT_BURST e c, 31, 0⟩

/-! ### DRC -/
/-- R478: register DRC_CTRL. -/
def DRC_CTRL : Nat := 0x1400000
def DRC_CTRL_REF_MODE : Fld := ⟨DRC_CTRL, 0, 0⟩
def DRC_CTRL_CAL_MS : Fld := ⟨DRC_CTRL, 15, 8⟩
def DRC_CTRL_CAL_DTEMP : Fld := ⟨DRC_CTRL, 19, 16⟩
def DRC_CTRL_UE_RETRAIN : Fld := ⟨DRC_CTRL, 23, 20⟩
def DRC_CTRL_MARGIN_MIN : Fld := ⟨DRC_CTRL, 31, 24⟩
/-- R478: register DRC_MAP. -/
def DRC_MAP : Nat := 0x1400004
def DRC_MAP_CHAN_EN : Fld := ⟨DRC_MAP, 5, 0⟩
def DRC_MAP_GRAIN : Fld := ⟨DRC_MAP, 11, 8⟩
def DRC_MAP_RESERVE_EN : Fld := ⟨DRC_MAP, 12, 12⟩
def DRC_MAP_RETIRED : Fld := ⟨DRC_MAP, 21, 16⟩
def DRC_MAP_REDIRECT : Fld := ⟨DRC_MAP, 26, 24⟩
/-- R478: register DRC_CAP. -/
def DRC_CAP : Nat := 0x1400008
def DRC_CAP_USABLE : Fld := ⟨DRC_CAP, 9, 0⟩
def DRC_CAP_FITTED : Fld := ⟨DRC_CAP, 19, 10⟩
def DRC_CAP_ORG : Fld := ⟨DRC_CAP, 21, 20⟩
def DRC_CAP_SPEED : Fld := ⟨DRC_CAP, 23, 22⟩
def DRC_CAP_RDIMM : Fld := ⟨DRC_CAP, 24, 24⟩
/-- R478: register DRC_QOS. -/
def DRC_QOS : Nat := 0x140000c
def DRC_QOS_PRIO : Fld := ⟨DRC_QOS, 23, 0⟩
/-- R478: register DRC_SCRUB. -/
def DRC_SCRUB : Nat := 0x1400010
def DRC_SCRUB_EN : Fld := ⟨DRC_SCRUB, 0, 0⟩
def DRC_SCRUB_PERIOD_H : Fld := ⟨DRC_SCRUB, 15, 8⟩
/-- R478: register DRC_CT_OVF. -/
def DRC_CT_OVF : Nat := 0x1400014
def DRC_CT_OVF_COUNT : Fld := ⟨DRC_CT_OVF, 15, 0⟩
/-- R478: register DRC_CL_SCRUB. -/
def DRC_CL_SCRUB : Nat := 0x1400018
def DRC_CL_SCRUB_EN : Fld := ⟨DRC_CL_SCRUB, 19, 0⟩
def DRC_CL_SCRUB_PERIOD_DS : Fld := ⟨DRC_CL_SCRUB, 31, 24⟩
/-- R478: register DRC_CT_FREE. -/
def DRC_CT_FREE : Nat := 0x140001c
def DRC_CT_FREE_ENTRY : Fld := ⟨DRC_CT_FREE, 4, 0⟩
def DRC_CT_FREE_TABLE : Fld := ⟨DRC_CT_FREE, 5, 5⟩
def DRC_CT_FREE_CLUSTER : Fld := ⟨DRC_CT_FREE, 10, 6⟩
/-- R478: register DRC_SCRUB_BASE. -/
def DRC_SCRUB_BASE (r : Nat) : Nat := 0x1400020 + 0x8 * r
def DRC_SCRUB_BASE_MIB (r : Nat) : Fld := ⟨DRC_SCRUB_BASE r, 16, 0⟩
/-- R478: register DRC_SCRUB_LIMIT. -/
def DRC_SCRUB_LIMIT (r : Nat) : Nat := 0x1400024 + 0x8 * r
def DRC_SCRUB_LIMIT_MIB (r : Nat) : Fld := ⟨DRC_SCRUB_LIMIT r, 16, 0⟩
/-- R478: register DRC_PPR_ADDR_LO. -/
def DRC_PPR_ADDR_LO : Nat := 0x1400040
def DRC_PPR_ADDR_LO_ADDR : Fld := ⟨DRC_PPR_ADDR_LO, 31, 0⟩
/-- R478: register DRC_PPR_ADDR_HI. -/
def DRC_PPR_ADDR_HI : Nat := 0x1400044
def DRC_PPR_ADDR_HI_ADDR : Fld := ⟨DRC_PPR_ADDR_HI, 15, 0⟩
/-- R478: register DRC_PPR_CTRL. -/
def DRC_PPR_CTRL : Nat := 0x1400048
def DRC_PPR_CTRL_GO : Fld := ⟨DRC_PPR_CTRL, 0, 0⟩
/-- R478: register DRC_PPR_STATUS. -/
def DRC_PPR_STATUS : Nat := 0x140004c
def DRC_PPR_STATUS_STATE : Fld := ⟨DRC_PPR_STATUS, 1, 0⟩
def DRC_PPR_STATUS_RESULT : Fld := ⟨DRC_PPR_STATUS, 4, 2⟩
def DRC_PPR_STATUS_BANK : Fld := ⟨DRC_PPR_STATUS, 12, 8⟩
def DRC_PPR_STATUS_ROW : Fld := ⟨DRC_PPR_STATUS, 28, 13⟩
/-- R478: register DRC_CH_STATUS. -/
def DRC_CH_STATUS (k : Nat) : Nat := 0x1400100 + 0x40 * k
def DRC_CH_STATUS_STATE (k : Nat) : Fld := ⟨DRC_CH_STATUS k, 2, 0⟩
def DRC_CH_STATUS_REF2X (k : Nat) : Fld := ⟨DRC_CH_STATUS k, 3, 3⟩
def DRC_CH_STATUS_TEMP (k : Nat) : Fld := ⟨DRC_CH_STATUS k, 15, 8⟩
def DRC_CH_STATUS_MARGIN (k : Nat) : Fld := ⟨DRC_CH_STATUS k, 23, 16⟩
/-- R478: register DRC_CH_EV_CAUSE. -/
def DRC_CH_EV_CAUSE (k : Nat) : Nat := 0x1400104 + 0x40 * k
def DRC_CH_EV_CAUSE_CE_THRESH (k : Nat) : Fld := ⟨DRC_CH_EV_CAUSE k, 0, 0⟩
def DRC_CH_EV_CAUSE_PERSISTENT (k : Nat) : Fld := ⟨DRC_CH_EV_CAUSE k, 1, 1⟩
def DRC_CH_EV_CAUSE_UE (k : Nat) : Fld := ⟨DRC_CH_EV_CAUSE k, 2, 2⟩
def DRC_CH_EV_CAUSE_SCRUB_UE (k : Nat) : Fld := ⟨DRC_CH_EV_CAUSE k, 3, 3⟩
def DRC_CH_EV_CAUSE_RETRAIN (k : Nat) : Fld := ⟨DRC_CH_EV_CAUSE k, 8, 8⟩
def DRC_CH_EV_CAUSE_RECOVERED (k : Nat) : Fld := ⟨DRC_CH_EV_CAUSE k, 9, 9⟩
def DRC_CH_EV_CAUSE_RETIRED (k : Nat) : Fld := ⟨DRC_CH_EV_CAUSE k, 10, 10⟩
def DRC_CH_EV_CAUSE_PPR_DONE (k : Nat) : Fld := ⟨DRC_CH_EV_CAUSE k, 11, 11⟩
def DRC_CH_EV_CAUSE_CT_OVF (k : Nat) : Fld := ⟨DRC_CH_EV_CAUSE k, 12, 12⟩
/-- R478: register DRC_CH_CNT_CE. -/
def DRC_CH_CNT_CE (k : Nat) : Nat := 0x1400108 + 0x40 * k
def DRC_CH_CNT_CE_COUNT (k : Nat) : Fld := ⟨DRC_CH_CNT_CE k, 31, 0⟩
/-- R478: register DRC_CH_CNT_UE. -/
def DRC_CH_CNT_UE (k : Nat) : Nat := 0x140010c + 0x40 * k
def DRC_CH_CNT_UE_COUNT (k : Nat) : Fld := ⟨DRC_CH_CNT_UE k, 31, 0⟩
/-- R478: register DRC_CH_CNT_REF_POST. -/
def DRC_CH_CNT_REF_POST (k : Nat) : Nat := 0x1400110 + 0x40 * k
def DRC_CH_CNT_REF_POST_COUNT (k : Nat) : Fld := ⟨DRC_CH_CNT_REF_POST k, 31, 0⟩
/-- R478: register DRC_CH_CNT_CAL. -/
def DRC_CH_CNT_CAL (k : Nat) : Nat := 0x1400114 + 0x40 * k
def DRC_CH_CNT_CAL_COUNT (k : Nat) : Fld := ⟨DRC_CH_CNT_CAL k, 31, 0⟩
/-- R478: register DRC_CH_CNT_REWRITE. -/
def DRC_CH_CNT_REWRITE (k : Nat) : Nat := 0x1400118 + 0x40 * k
def DRC_CH_CNT_REWRITE_COUNT (k : Nat) : Fld := ⟨DRC_CH_CNT_REWRITE k, 31, 0⟩
/-- R478: register DRC_CT_W0. -/
def DRC_CT_W0 (n : Nat) : Nat := 0x1401000 + 0x10 * n
def DRC_CT_W0_ADDR_LO (n : Nat) : Fld := ⟨DRC_CT_W0 n, 31, 0⟩
/-- R478: register DRC_CT_W1. -/
def DRC_CT_W1 (n : Nat) : Nat := 0x1401004 + 0x10 * n
def DRC_CT_W1_ADDR_HI (n : Nat) : Fld := ⟨DRC_CT_W1 n, 15, 0⟩
def DRC_CT_W1_CHANNEL (n : Nat) : Fld := ⟨DRC_CT_W1 n, 18, 16⟩
def DRC_CT_W1_SUBCH (n : Nat) : Fld := ⟨DRC_CT_W1 n, 19, 19⟩
def DRC_CT_W1_POS (n : Nat) : Fld := ⟨DRC_CT_W1 n, 27, 20⟩
/-- R478: register DRC_CT_W2. -/
def DRC_CT_W2 (n : Nat) : Nat := 0x1401008 + 0x10 * n
def DRC_CT_W2_STATE (n : Nat) : Fld := ⟨DRC_CT_W2 n, 1, 0⟩
def DRC_CT_W2_REWRITES (n : Nat) : Fld := ⟨DRC_CT_W2 n, 3, 2⟩
def DRC_CT_W2_WRITTEN (n : Nat) : Fld := ⟨DRC_CT_W2 n, 4, 4⟩
def DRC_CT_W2_COUNT (n : Nat) : Fld := ⟨DRC_CT_W2 n, 19, 8⟩
/-- R478: register DRC_CT_W3. -/
def DRC_CT_W3 (n : Nat) : Nat := 0x140100c + 0x10 * n
def DRC_CT_W3_TICK (n : Nat) : Fld := ⟨DRC_CT_W3 n, 31, 0⟩
/-- R478: register DRC_CLCT_W0. -/
def DRC_CLCT_W0 (c : Nat) (n : Nat) : Nat := 0x1402000 + 0x100 * c + 0x10 * n
def DRC_CLCT_W0_ADDR_LO (c : Nat) (n : Nat) : Fld := ⟨DRC_CLCT_W0 c n, 31, 0⟩
/-- R478: register DRC_CLCT_W1. -/
def DRC_CLCT_W1 (c : Nat) (n : Nat) : Nat := 0x1402004 + 0x100 * c + 0x10 * n
def DRC_CLCT_W1_ADDR_HI (c : Nat) (n : Nat) : Fld := ⟨DRC_CLCT_W1 c n, 15, 0⟩
def DRC_CLCT_W1_CHANNEL (c : Nat) (n : Nat) : Fld := ⟨DRC_CLCT_W1 c n, 18, 16⟩
def DRC_CLCT_W1_SUBCH (c : Nat) (n : Nat) : Fld := ⟨DRC_CLCT_W1 c n, 19, 19⟩
def DRC_CLCT_W1_POS (c : Nat) (n : Nat) : Fld := ⟨DRC_CLCT_W1 c n, 27, 20⟩
/-- R478: register DRC_CLCT_W2. -/
def DRC_CLCT_W2 (c : Nat) (n : Nat) : Nat := 0x1402008 + 0x100 * c + 0x10 * n
def DRC_CLCT_W2_STATE (c : Nat) (n : Nat) : Fld := ⟨DRC_CLCT_W2 c n, 1, 0⟩
def DRC_CLCT_W2_REWRITES (c : Nat) (n : Nat) : Fld := ⟨DRC_CLCT_W2 c n, 3, 2⟩
def DRC_CLCT_W2_WRITTEN (c : Nat) (n : Nat) : Fld := ⟨DRC_CLCT_W2 c n, 4, 4⟩
def DRC_CLCT_W2_COUNT (c : Nat) (n : Nat) : Fld := ⟨DRC_CLCT_W2 c n, 19, 8⟩
/-- R478: register DRC_CLCT_W3. -/
def DRC_CLCT_W3 (c : Nat) (n : Nat) : Nat := 0x140200c + 0x100 * c + 0x10 * n
def DRC_CLCT_W3_TICK (c : Nat) (n : Nat) : Fld := ⟨DRC_CLCT_W3 c n, 31, 0⟩
/-- R478: register DRC_CLCT_OVF. -/
def DRC_CLCT_OVF (c : Nat) : Nat := 0x1402080 + 0x100 * c
def DRC_CLCT_OVF_COUNT (c : Nat) : Fld := ⟨DRC_CLCT_OVF c, 15, 0⟩
/-- R478: register DRC_UE_LOG_A. -/
def DRC_UE_LOG_A (n : Nat) : Nat := 0x1404000 + 0x8 * n
def DRC_UE_LOG_A_ADDR (n : Nat) : Fld := ⟨DRC_UE_LOG_A n, 31, 0⟩
/-- R478: register DRC_UE_LOG_B. -/
def DRC_UE_LOG_B (n : Nat) : Nat := 0x1404004 + 0x8 * n
def DRC_UE_LOG_B_ADDR (n : Nat) : Fld := ⟨DRC_UE_LOG_B n, 15, 0⟩
def DRC_UE_LOG_B_SOURCE (n : Nat) : Fld := ⟨DRC_UE_LOG_B n, 23, 16⟩
def DRC_UE_LOG_B_SCRUB (n : Nat) : Fld := ⟨DRC_UE_LOG_B n, 24, 24⟩
/-- R478: register DRC_UE_PTR. -/
def DRC_UE_PTR : Nat := 0x1404040
def DRC_UE_PTR_NEXT : Fld := ⟨DRC_UE_PTR, 2, 0⟩
def DRC_UE_PTR_WRAPPED : Fld := ⟨DRC_UE_PTR, 3, 3⟩

/-! ### HTH -/
/-- R146: register HTH_CTRL. -/
def HTH_CTRL : Nat := 0x1800000
def HTH_CTRL_HOST_VERIFY : Fld := ⟨HTH_CTRL, 0, 0⟩
def HTH_CTRL_RETIRE_LIMIT : Fld := ⟨HTH_CTRL, 15, 8⟩
/-- R146: register HTH_STATUS. -/
def HTH_STATUS : Nat := 0x1800004
def HTH_STATUS_RETIRED : Fld := ⟨HTH_STATUS, 6, 0⟩
def HTH_STATUS_HEADROOM : Fld := ⟨HTH_STATUS, 11, 8⟩
/-- R146: register HTH_RETIRE. -/
def HTH_RETIRE : Nat := 0x1800008
def HTH_RETIRE_WIN : Fld := ⟨HTH_RETIRE, 15, 0⟩
/-- R146: register HTH_CNT_MISMATCH. -/
def HTH_CNT_MISMATCH : Nat := 0x1800010
def HTH_CNT_MISMATCH_COUNT : Fld := ⟨HTH_CNT_MISMATCH, 31, 0⟩
/-- R146: register HTH_CNT_AIS. -/
def HTH_CNT_AIS : Nat := 0x1800014
def HTH_CNT_AIS_COUNT : Fld := ⟨HTH_CNT_AIS, 31, 0⟩
/-- R146: register HTH_CNT_FORCED. -/
def HTH_CNT_FORCED : Nat := 0x1800018
def HTH_CNT_FORCED_COUNT : Fld := ⟨HTH_CNT_FORCED, 31, 0⟩
/-- R146: register HTH_CNT_REFUSED. -/
def HTH_CNT_REFUSED : Nat := 0x180001c
def HTH_CNT_REFUSED_COUNT : Fld := ⟨HTH_CNT_REFUSED, 31, 0⟩
/-- R146: register HTH_CNT_UNVERIFIED. -/
def HTH_CNT_UNVERIFIED : Nat := 0x1800020
def HTH_CNT_UNVERIFIED_COUNT : Fld := ⟨HTH_CNT_UNVERIFIED, 31, 0⟩
/-- R146: register HTH_LOG_PTR. -/
def HTH_LOG_PTR : Nat := 0x1800040
def HTH_LOG_PTR_NEXT : Fld := ⟨HTH_LOG_PTR, 3, 0⟩
def HTH_LOG_PTR_WRAPPED : Fld := ⟨HTH_LOG_PTR, 4, 4⟩
/-- R146: register HTH_LOG_A. -/
def HTH_LOG_A (n : Nat) : Nat := 0x1800080 + 0x8 * n
def HTH_LOG_A_BANK (n : Nat) : Fld := ⟨HTH_LOG_A n, 6, 0⟩
def HTH_LOG_A_TILE (n : Nat) : Fld := ⟨HTH_LOG_A n, 15, 7⟩
def HTH_LOG_A_CAUSE (n : Nat) : Fld := ⟨HTH_LOG_A n, 19, 16⟩
def HTH_LOG_A_NODE (n : Nat) : Fld := ⟨HTH_LOG_A n, 29, 20⟩
/-- R146: register HTH_LOG_B. -/
def HTH_LOG_B (n : Nat) : Nat := 0x1800084 + 0x8 * n
def HTH_LOG_B_TICK (n : Nat) : Fld := ⟨HTH_LOG_B n, 31, 0⟩
/-- R146: register HTH_BANK_STATE. -/
def HTH_BANK_STATE (n : Nat) : Nat := 0x1800100 + 0x4 * n
def HTH_BANK_STATE_STATE (n : Nat) : Fld := ⟨HTH_BANK_STATE n, 1, 0⟩
def HTH_BANK_STATE_PANEL (n : Nat) : Fld := ⟨HTH_BANK_STATE n, 6, 2⟩
def HTH_BANK_STATE_FAULTS (n : Nat) : Fld := ⟨HTH_BANK_STATE n, 15, 8⟩
/-- R146: register HTH_EV_CAUSE. -/
def HTH_EV_CAUSE (g : Nat) : Nat := 0x1800300 + 0x4 * g
def HTH_EV_CAUSE_MISMATCH (g : Nat) : Fld := ⟨HTH_EV_CAUSE g, 0, 0⟩
def HTH_EV_CAUSE_RETIRED (g : Nat) : Fld := ⟨HTH_EV_CAUSE g, 1, 1⟩
def HTH_EV_CAUSE_NO_HEADROOM (g : Nat) : Fld := ⟨HTH_EV_CAUSE g, 2, 2⟩

/-! ### CLU -/
/-- R409: register CX_STATUS. -/
def CX_STATUS (c : Nat) (k : Nat) : Nat := 0x2000000 + 0x80000 * c + 0x1000 * k
def CX_STATUS_PRIV (c : Nat) (k : Nat) : Fld := ⟨CX_STATUS c k, 1, 0⟩
def CX_STATUS_IE (c : Nat) (k : Nat) : Fld := ⟨CX_STATUS c k, 2, 2⟩
def CX_STATUS_EPRIV (c : Nat) (k : Nat) : Fld := ⟨CX_STATUS c k, 4, 3⟩
def CX_STATUS_EIE (c : Nat) (k : Nat) : Fld := ⟨CX_STATUS c k, 5, 5⟩
def CX_STATUS_SPRIV (c : Nat) (k : Nat) : Fld := ⟨CX_STATUS c k, 6, 6⟩
def CX_STATUS_DS (c : Nat) (k : Nat) : Fld := ⟨CX_STATUS c k, 7, 7⟩
def CX_STATUS_REPD (c : Nat) (k : Nat) : Fld := ⟨CX_STATUS c k, 9, 8⟩
def CX_STATUS_UNVER (c : Nat) (k : Nat) : Fld := ⟨CX_STATUS c k, 10, 10⟩
def CX_STATUS_PROV (c : Nat) (k : Nat) : Fld := ⟨CX_STATUS c k, 11, 11⟩
def CX_STATUS_VLIVE (c : Nat) (k : Nat) : Fld := ⟨CX_STATUS c k, 12, 12⟩
def CX_STATUS_MCHK (c : Nat) (k : Nat) : Fld := ⟨CX_STATUS c k, 13, 13⟩
def CX_STATUS_IDLE (c : Nat) (k : Nat) : Fld := ⟨CX_STATUS c k, 14, 14⟩
/-- R409: register CX_CPEN. -/
def CX_CPEN (c : Nat) (k : Nat) : Nat := 0x2000004 + 0x80000 * c + 0x1000 * k
def CX_CPEN_CP0_U (c : Nat) (k : Nat) : Fld := ⟨CX_CPEN c k, 0, 0⟩
def CX_CPEN_CP0_S (c : Nat) (k : Nat) : Fld := ⟨CX_CPEN c k, 1, 1⟩
def CX_CPEN_CP0_M (c : Nat) (k : Nat) : Fld := ⟨CX_CPEN c k, 2, 2⟩
def CX_CPEN_CP1_U (c : Nat) (k : Nat) : Fld := ⟨CX_CPEN c k, 4, 4⟩
def CX_CPEN_CP1_S (c : Nat) (k : Nat) : Fld := ⟨CX_CPEN c k, 5, 5⟩
def CX_CPEN_CP1_M (c : Nat) (k : Nat) : Fld := ⟨CX_CPEN c k, 6, 6⟩
/-- R409: register CX_CAUSE. -/
def CX_CAUSE (c : Nat) (k : Nat) : Nat := 0x2000008 + 0x80000 * c + 0x1000 * k
def CX_CAUSE_CODE (c : Nat) (k : Nat) : Fld := ⟨CX_CAUSE c k, 4, 0⟩
def CX_CAUSE_DETAIL (c : Nat) (k : Nat) : Fld := ⟨CX_CAUSE c k, 11, 8⟩
def CX_CAUSE_INT (c : Nat) (k : Nat) : Fld := ⟨CX_CAUSE c k, 31, 31⟩
/-- R409: register CX_EPC. -/
def CX_EPC (c : Nat) (k : Nat) : Nat := 0x200000c + 0x80000 * c + 0x1000 * k
def CX_EPC_PC (c : Nat) (k : Nat) : Fld := ⟨CX_EPC c k, 16, 0⟩
/-- R409: register CX_EADDR_LO. -/
def CX_EADDR_LO (c : Nat) (k : Nat) : Nat := 0x2000010 + 0x80000 * c + 0x1000 * k
def CX_EADDR_LO_ADDR (c : Nat) (k : Nat) : Fld := ⟨CX_EADDR_LO c k, 31, 0⟩
/-- R409: register CX_EADDR_HI. -/
def CX_EADDR_HI (c : Nat) (k : Nat) : Nat := 0x2000014 + 0x80000 * c + 0x1000 * k
def CX_EADDR_HI_ADDR (c : Nat) (k : Nat) : Fld := ⟨CX_EADDR_HI c k, 15, 0⟩
/-- R409: register CX_DSTATE. -/
def CX_DSTATE (c : Nat) (k : Nat) : Nat := 0x2000018 + 0x80000 * c + 0x1000 * k
def CX_DSTATE_N (c : Nat) (k : Nat) : Fld := ⟨CX_DSTATE c k, 1, 0⟩
def CX_DSTATE_TGT (c : Nat) (k : Nat) : Fld := ⟨CX_DSTATE c k, 18, 2⟩
/-- R409: register CX_TROUTE. -/
def CX_TROUTE (c : Nat) (k : Nat) : Nat := 0x200001c + 0x80000 * c + 0x1000 * k
def CX_TROUTE_ROUTE (c : Nat) (k : Nat) : Fld := ⟨CX_TROUTE c k, 31, 0⟩
/-- R409: register CX_MVBASE. -/
def CX_MVBASE (c : Nat) (k : Nat) : Nat := 0x2000020 + 0x80000 * c + 0x1000 * k
def CX_MVBASE_BASE (c : Nat) (k : Nat) : Fld := ⟨CX_MVBASE c k, 16, 0⟩
/-- R409: register CX_SAVE_BASE. -/
def CX_SAVE_BASE (c : Nat) (k : Nat) : Nat := 0x2000024 + 0x80000 * c + 0x1000 * k
def CX_SAVE_BASE_ADDR (c : Nat) (k : Nat) : Fld := ⟨CX_SAVE_BASE c k, 31, 10⟩
/-- R409: register CX_DHANDLE. -/
def CX_DHANDLE (c : Nat) (k : Nat) : Nat := 0x2000030 + 0x80000 * c + 0x1000 * k
def CX_DHANDLE_HANDLE (c : Nat) (k : Nat) : Fld := ⟨CX_DHANDLE c k, 31, 0⟩
/-- R409: register CX_DENTRY. -/
def CX_DENTRY (c : Nat) (k : Nat) : Nat := 0x2000034 + 0x80000 * c + 0x1000 * k
def CX_DENTRY_ENTRY (c : Nat) (k : Nat) : Fld := ⟨CX_DENTRY c k, 16, 0⟩
/-- R409: register CX_DARG_LO. -/
def CX_DARG_LO (c : Nat) (k : Nat) : Nat := 0x2000038 + 0x80000 * c + 0x1000 * k
def CX_DARG_LO_ARG (c : Nat) (k : Nat) : Fld := ⟨CX_DARG_LO c k, 31, 0⟩
/-- R409: register CX_DARG_HI. -/
def CX_DARG_HI (c : Nat) (k : Nat) : Nat := 0x200003c + 0x80000 * c + 0x1000 * k
def CX_DARG_HI_ARG (c : Nat) (k : Nat) : Fld := ⟨CX_DARG_HI c k, 15, 0⟩
/-- R409: register CX_DONE. -/
def CX_DONE (c : Nat) (k : Nat) : Nat := 0x2000040 + 0x80000 * c + 0x1000 * k
def CX_DONE_STATUS (c : Nat) (k : Nat) : Fld := ⟨CX_DONE c k, 15, 0⟩
/-- R409: register CX_DINFO. -/
def CX_DINFO (c : Nat) (k : Nat) : Nat := 0x2000044 + 0x80000 * c + 0x1000 * k
def CX_DINFO_CLASS (c : Nat) (k : Nat) : Fld := ⟨CX_DINFO c k, 2, 0⟩
def CX_DINFO_CARRIER (c : Nat) (k : Nat) : Fld := ⟨CX_DINFO c k, 8, 3⟩
/-- R409: register CX_FWIN. -/
def CX_FWIN (c : Nat) (k : Nat) (w : Nat) : Nat := 0x2000050 + 0x80000 * c + 0x1000 * k + 0x4 * w
def CX_FWIN_BASE (c : Nat) (k : Nat) (w : Nat) : Fld := ⟨CX_FWIN c k w, 18, 0⟩
/-- R409: register CX_INT_EN. -/
def CX_INT_EN (c : Nat) (k : Nat) : Nat := 0x2000060 + 0x80000 * c + 0x1000 * k
def CX_INT_EN_EN (c : Nat) (k : Nat) : Fld := ⟨CX_INT_EN c k, 4, 0⟩
/-- R409: register CX_INT_PEND. -/
def CX_INT_PEND (c : Nat) (k : Nat) : Nat := 0x2000064 + 0x80000 * c + 0x1000 * k
def CX_INT_PEND_PEND (c : Nat) (k : Nat) : Fld := ⟨CX_INT_PEND c k, 3, 0⟩
def CX_INT_PEND_SOFT (c : Nat) (k : Nat) : Fld := ⟨CX_INT_PEND c k, 4, 4⟩
/-- R409: register CX_LOOP. -/
def CX_LOOP (c : Nat) (k : Nat) (n : Nat) : Nat := 0x2000070 + 0x80000 * c + 0x1000 * k + 0x4 * n
def CX_LOOP_COUNT (c : Nat) (k : Nat) (n : Nat) : Fld := ⟨CX_LOOP c k n, 15, 0⟩
def CX_LOOP_END (c : Nat) (k : Nat) (n : Nat) : Fld := ⟨CX_LOOP c k n, 25, 16⟩
/-- R409: register CX_SV_CAUSE. -/
def CX_SV_CAUSE (c : Nat) (k : Nat) : Nat := 0x2000100 + 0x80000 * c + 0x1000 * k
def CX_SV_CAUSE_CODE (c : Nat) (k : Nat) : Fld := ⟨CX_SV_CAUSE c k, 4, 0⟩
def CX_SV_CAUSE_DETAIL (c : Nat) (k : Nat) : Fld := ⟨CX_SV_CAUSE c k, 11, 8⟩
def CX_SV_CAUSE_INT (c : Nat) (k : Nat) : Fld := ⟨CX_SV_CAUSE c k, 31, 31⟩
/-- R409: register CX_SV_PC. -/
def CX_SV_PC (c : Nat) (k : Nat) : Nat := 0x2000104 + 0x80000 * c + 0x1000 * k
def CX_SV_PC_PC (c : Nat) (k : Nat) : Fld := ⟨CX_SV_PC c k, 16, 0⟩
/-- R409: register CX_SVBASE. -/
def CX_SVBASE (c : Nat) (k : Nat) : Nat := 0x2000108 + 0x80000 * c + 0x1000 * k
def CX_SVBASE_BASE (c : Nat) (k : Nat) : Fld := ⟨CX_SVBASE c k, 16, 0⟩
/-- R409: register CX_SV_EADDR_LO. -/
def CX_SV_EADDR_LO (c : Nat) (k : Nat) : Nat := 0x200010c + 0x80000 * c + 0x1000 * k
def CX_SV_EADDR_LO_ADDR (c : Nat) (k : Nat) : Fld := ⟨CX_SV_EADDR_LO c k, 31, 0⟩
/-- R409: register CX_SV_EADDR_HI. -/
def CX_SV_EADDR_HI (c : Nat) (k : Nat) : Nat := 0x2000110 + 0x80000 * c + 0x1000 * k
def CX_SV_EADDR_HI_ADDR (c : Nat) (k : Nat) : Fld := ⟨CX_SV_EADDR_HI c k, 15, 0⟩
/-- R569: register CX_CNTEN. -/
def CX_CNTEN (c : Nat) (k : Nat) : Nat := 0x2000140 + 0x80000 * c + 0x1000 * k
def CX_CNTEN_CYCLE (c : Nat) (k : Nat) : Fld := ⟨CX_CNTEN c k, 0, 0⟩
def CX_CNTEN_HPM (c : Nat) (k : Nat) : Fld := ⟨CX_CNTEN c k, 8, 1⟩
/-- R569: register CX_HPM_CTL. -/
def CX_HPM_CTL (c : Nat) (k : Nat) (n : Nat) : Nat := 0x2000150 + 0x80000 * c + 0x1000 * k + 0x4 * n
def CX_HPM_CTL_EVENT (c : Nat) (k : Nat) (n : Nat) : Fld := ⟨CX_HPM_CTL c k n, 5, 0⟩
def CX_HPM_CTL_U (c : Nat) (k : Nat) (n : Nat) : Fld := ⟨CX_HPM_CTL c k n, 6, 6⟩
def CX_HPM_CTL_S (c : Nat) (k : Nat) (n : Nat) : Fld := ⟨CX_HPM_CTL c k n, 7, 7⟩
def CX_HPM_CTL_M (c : Nat) (k : Nat) (n : Nat) : Fld := ⟨CX_HPM_CTL c k n, 8, 8⟩
def CX_HPM_CTL_CLR (c : Nat) (k : Nat) (n : Nat) : Fld := ⟨CX_HPM_CTL c k n, 9, 9⟩
def CX_HPM_CTL_OVF (c : Nat) (k : Nat) (n : Nat) : Fld := ⟨CX_HPM_CTL c k n, 10, 10⟩
/-- R569: register CX_CYCLE_LO. -/
def CX_CYCLE_LO (c : Nat) (k : Nat) : Nat := 0x2000200 + 0x80000 * c + 0x1000 * k
def CX_CYCLE_LO_COUNT (c : Nat) (k : Nat) : Fld := ⟨CX_CYCLE_LO c k, 31, 0⟩
/-- R569: register CX_CYCLE_HI. -/
def CX_CYCLE_HI (c : Nat) (k : Nat) : Nat := 0x2000204 + 0x80000 * c + 0x1000 * k
def CX_CYCLE_HI_COUNT (c : Nat) (k : Nat) : Fld := ⟨CX_CYCLE_HI c k, 31, 0⟩
/-- R569: register CX_HPM_LO. -/
def CX_HPM_LO (c : Nat) (k : Nat) (n : Nat) : Nat := 0x2000208 + 0x80000 * c + 0x1000 * k + 0x8 * n
def CX_HPM_LO_COUNT (c : Nat) (k : Nat) (n : Nat) : Fld := ⟨CX_HPM_LO c k n, 31, 0⟩
/-- R569: register CX_HPM_HI. -/
def CX_HPM_HI (c : Nat) (k : Nat) (n : Nat) : Nat := 0x200020c + 0x80000 * c + 0x1000 * k + 0x8 * n
def CX_HPM_HI_COUNT (c : Nat) (k : Nat) (n : Nat) : Fld := ⟨CX_HPM_HI c k n, 15, 0⟩
/-- R433: register CX_VGRANT. -/
def CX_VGRANT (c : Nat) (k : Nat) : Nat := 0x2000280 + 0x80000 * c + 0x1000 * k
def CX_VGRANT_GL (c : Nat) (k : Nat) : Fld := ⟨CX_VGRANT c k, 7, 0⟩
/-- R433: register CX_VSHAPE. -/
def CX_VSHAPE (c : Nat) (k : Nat) : Nat := 0x2000284 + 0x80000 * c + 0x1000 * k
def CX_VSHAPE_ELEM (c : Nat) (k : Nat) : Fld := ⟨CX_VSHAPE c k, 2, 0⟩
/-- R433: register CX_VFAULT. -/
def CX_VFAULT (c : Nat) (k : Nat) : Nat := 0x2000288 + 0x80000 * c + 0x1000 * k
def CX_VFAULT_AT (c : Nat) (k : Nat) : Fld := ⟨CX_VFAULT c k, 6, 0⟩
def CX_VFAULT_KIND (c : Nat) (k : Nat) : Fld := ⟨CX_VFAULT c k, 9, 7⟩
def CX_VFAULT_VALID (c : Nat) (k : Nat) : Fld := ⟨CX_VFAULT c k, 10, 10⟩
/-- R433: register CX_VRESUME. -/
def CX_VRESUME (c : Nat) (k : Nat) : Nat := 0x200028c + 0x80000 * c + 0x1000 * k
def CX_VRESUME_FROM (c : Nat) (k : Nat) : Fld := ⟨CX_VRESUME c k, 6, 0⟩
def CX_VRESUME_ARMED (c : Nat) (k : Nat) : Fld := ⟨CX_VRESUME c k, 7, 7⟩
def CX_VRESUME_PC (c : Nat) (k : Nat) : Fld := ⟨CX_VRESUME c k, 24, 8⟩
/-- R433: register CX_VGEOM. -/
def CX_VGEOM (c : Nat) (k : Nat) : Nat := 0x2000290 + 0x80000 * c + 0x1000 * k
def CX_VGEOM_LANES (c : Nat) (k : Nat) : Fld := ⟨CX_VGEOM c k, 7, 0⟩
def CX_VGEOM_LANE_BYTES (c : Nat) (k : Nat) : Fld := ⟨CX_VGEOM c k, 15, 8⟩
/-- R409: register CX_AMODE. -/
def CX_AMODE (c : Nat) (k : Nat) : Nat := 0x20002f0 + 0x80000 * c + 0x1000 * k
def CX_AMODE_MODE (c : Nat) (k : Nat) : Fld := ⟨CX_AMODE c k, 15, 0⟩
/-- R409: register CLU_CTRL. -/
def CLU_CTRL (c : Nat) : Nat := 0x2008000 + 0x80000 * c
def CLU_CTRL_ASLEEP_RETRY (c : Nat) : Fld := ⟨CLU_CTRL c, 3, 0⟩
/-- R409: register CLU_EV_CAUSE. -/
def CLU_EV_CAUSE (c : Nat) : Nat := 0x2008004 + 0x80000 * c
def CLU_EV_CAUSE_MCHK (c : Nat) : Fld := ⟨CLU_EV_CAUSE c, 0, 0⟩
def CLU_EV_CAUSE_MCHK_NESTED (c : Nat) : Fld := ⟨CLU_EV_CAUSE c, 1, 1⟩
def CLU_EV_CAUSE_CE (c : Nat) : Fld := ⟨CLU_EV_CAUSE c, 2, 2⟩
def CLU_EV_CAUSE_CP_ERR (c : Nat) : Fld := ⟨CLU_EV_CAUSE c, 3, 3⟩
/-- R409: register CLU_CP_STATUS. -/
def CLU_CP_STATUS (c : Nat) : Nat := 0x2008008 + 0x80000 * c
def CLU_CP_STATUS_SLOT (c : Nat) : Fld := ⟨CLU_CP_STATUS c, 7, 0⟩
def CLU_CP_STATUS_RUN (c : Nat) : Fld := ⟨CLU_CP_STATUS c, 10, 8⟩
def CLU_CP_STATUS_BUSY (c : Nat) : Fld := ⟨CLU_CP_STATUS c, 11, 11⟩
/-- R409: register CLU_CP_CNT_OPS. -/
def CLU_CP_CNT_OPS (c : Nat) : Nat := 0x200800c + 0x80000 * c
def CLU_CP_CNT_OPS_COUNT (c : Nat) : Fld := ⟨CLU_CP_CNT_OPS c, 31, 0⟩
/-- R409: register CLU_CP_CNT_SQUASH. -/
def CLU_CP_CNT_SQUASH (c : Nat) : Nat := 0x2008010 + 0x80000 * c
def CLU_CP_CNT_SQUASH_COUNT (c : Nat) : Fld := ⟨CLU_CP_CNT_SQUASH c, 31, 0⟩
/-- R409: register CLU_CNT_CE. -/
def CLU_CNT_CE (c : Nat) : Nat := 0x2008014 + 0x80000 * c
def CLU_CNT_CE_COUNT (c : Nat) : Fld := ⟨CLU_CNT_CE c, 31, 0⟩
/-- R574: register CLU_DUMP_CTRL. -/
def CLU_DUMP_CTRL (c : Nat) : Nat := 0x2010000 + 0x80000 * c
def CLU_DUMP_CTRL_EN (c : Nat) : Fld := ⟨CLU_DUMP_CTRL c, 0, 0⟩
def CLU_DUMP_CTRL_HEATH (c : Nat) : Fld := ⟨CLU_DUMP_CTRL c, 1, 1⟩
def CLU_DUMP_CTRL_EVERY (c : Nat) : Fld := ⟨CLU_DUMP_CTRL c, 15, 8⟩
/-- R574: register CLU_DUMP_BASE_LO. -/
def CLU_DUMP_BASE_LO (c : Nat) : Nat := 0x2010004 + 0x80000 * c
def CLU_DUMP_BASE_LO_ADDR (c : Nat) : Fld := ⟨CLU_DUMP_BASE_LO c, 31, 0⟩
/-- R574: register CLU_DUMP_BASE_HI. -/
def CLU_DUMP_BASE_HI (c : Nat) : Nat := 0x2010008 + 0x80000 * c
def CLU_DUMP_BASE_HI_ADDR (c : Nat) : Fld := ⟨CLU_DUMP_BASE_HI c, 15, 0⟩
/-- R574: register CLU_DUMP_SIZE. -/
def CLU_DUMP_SIZE (c : Nat) : Nat := 0x201000c + 0x80000 * c
def CLU_DUMP_SIZE_SIZE (c : Nat) : Fld := ⟨CLU_DUMP_SIZE c, 15, 0⟩
/-- R574: register CLU_DUMP_WR. -/
def CLU_DUMP_WR (c : Nat) : Nat := 0x2010010 + 0x80000 * c
def CLU_DUMP_WR_WR (c : Nat) : Fld := ⟨CLU_DUMP_WR c, 15, 0⟩
/-- R574: register CLU_DUMP_RD. -/
def CLU_DUMP_RD (c : Nat) : Nat := 0x2010014 + 0x80000 * c
def CLU_DUMP_RD_RD (c : Nat) : Fld := ⟨CLU_DUMP_RD c, 15, 0⟩
/-- R574: register CLU_DUMP_CNT_DROP. -/
def CLU_DUMP_CNT_DROP (c : Nat) : Nat := 0x2010018 + 0x80000 * c
def CLU_DUMP_CNT_DROP_COUNT (c : Nat) : Fld := ⟨CLU_DUMP_CNT_DROP c, 31, 0⟩
/-- R578: register CLU_DBG_CTRL. -/
def CLU_DBG_CTRL (c : Nat) : Nat := 0x2010040 + 0x80000 * c
def CLU_DBG_CTRL_HALT (c : Nat) : Fld := ⟨CLU_DBG_CTRL c, 7, 0⟩
def CLU_DBG_CTRL_STEP (c : Nat) : Fld := ⟨CLU_DBG_CTRL c, 15, 8⟩
/-- R578: register CLU_DBG_STATUS. -/
def CLU_DBG_STATUS (c : Nat) : Nat := 0x2010044 + 0x80000 * c
def CLU_DBG_STATUS_HALTED (c : Nat) : Fld := ⟨CLU_DBG_STATUS c, 7, 0⟩
/-- R578: register CLU_DBG_BP. -/
def CLU_DBG_BP (c : Nat) (n : Nat) : Nat := 0x2010048 + 0x80000 * c + 0x4 * n
def CLU_DBG_BP_PC (c : Nat) (n : Nat) : Fld := ⟨CLU_DBG_BP c n, 16, 0⟩
def CLU_DBG_BP_CORES (c : Nat) (n : Nat) : Fld := ⟨CLU_DBG_BP c n, 24, 17⟩
def CLU_DBG_BP_EN (c : Nat) (n : Nat) : Fld := ⟨CLU_DBG_BP c n, 31, 31⟩

/-! ### FFE -/
/-- R239: register FFE_CTRL. -/
def FFE_CTRL : Nat := 0x3800000
def FFE_CTRL_LABEL_CHECK : Fld := ⟨FFE_CTRL, 0, 0⟩
/-- R239: register FFE_CNT_SCHED_MISS. -/
def FFE_CNT_SCHED_MISS : Nat := 0x3800004
def FFE_CNT_SCHED_MISS_COUNT : Fld := ⟨FFE_CNT_SCHED_MISS, 31, 0⟩
/-- R239: register FFE_ENG_STATUS. -/
def FFE_ENG_STATUS (e : Nat) : Nat := 0x3800100 + 0x20 * e
def FFE_ENG_STATUS_STATE (e : Nat) : Fld := ⟨FFE_ENG_STATUS e, 1, 0⟩
def FFE_ENG_STATUS_QDEPTH (e : Nat) : Fld := ⟨FFE_ENG_STATUS e, 6, 2⟩
/-- R239: register FFE_ENG_EV_CAUSE. -/
def FFE_ENG_EV_CAUSE (e : Nat) : Nat := 0x3800104 + 0x20 * e
def FFE_ENG_EV_CAUSE_CMD_ERR (e : Nat) : Fld := ⟨FFE_ENG_EV_CAUSE e, 0, 0⟩
def FFE_ENG_EV_CAUSE_EXPIRED (e : Nat) : Fld := ⟨FFE_ENG_EV_CAUSE e, 1, 1⟩
def FFE_ENG_EV_CAUSE_FENCED (e : Nat) : Fld := ⟨FFE_ENG_EV_CAUSE e, 2, 2⟩
def FFE_ENG_EV_CAUSE_LABEL (e : Nat) : Fld := ⟨FFE_ENG_EV_CAUSE e, 3, 3⟩
def FFE_ENG_EV_CAUSE_CLIP_SCHED (e : Nat) : Fld := ⟨FFE_ENG_EV_CAUSE e, 4, 4⟩
/-- R239: register FFE_ENG_CNT_XFORM. -/
def FFE_ENG_CNT_XFORM (e : Nat) : Nat := 0x3800108 + 0x20 * e
def FFE_ENG_CNT_XFORM_COUNT (e : Nat) : Fld := ⟨FFE_ENG_CNT_XFORM e, 31, 0⟩
/-- R239: register FFE_ENG_CNT_ERASE. -/
def FFE_ENG_CNT_ERASE (e : Nat) : Nat := 0x380010c + 0x20 * e
def FFE_ENG_CNT_ERASE_COUNT (e : Nat) : Fld := ⟨FFE_ENG_CNT_ERASE e, 31, 0⟩
/-- R239: register FFE_ENG_CNT_SAT. -/
def FFE_ENG_CNT_SAT (e : Nat) : Nat := 0x3800110 + 0x20 * e
def FFE_ENG_CNT_SAT_COUNT (e : Nat) : Fld := ⟨FFE_ENG_CNT_SAT e, 31, 0⟩
/-- R239: register FFE_ENG_ERR. -/
def FFE_ENG_ERR (e : Nat) : Nat := 0x3800114 + 0x20 * e
def FFE_ENG_ERR_CODE (e : Nat) : Fld := ⟨FFE_ENG_ERR e, 3, 0⟩
/-- R239: register FFE_AGC_CFG. -/
def FFE_AGC_CFG (c : Nat) : Nat := 0x3801000 + 0x8 * c
def FFE_AGC_CFG_TARGET (c : Nat) : Fld := ⟨FFE_AGC_CFG c, 7, 0⟩
def FFE_AGC_CFG_ALPHA_SHIFT (c : Nat) : Fld := ⟨FFE_AGC_CFG c, 10, 8⟩
def FFE_AGC_CFG_FAST_MAX (c : Nat) : Fld := ⟨FFE_AGC_CFG c, 23, 16⟩
def FFE_AGC_CFG_INIT_GAIN (c : Nat) : Fld := ⟨FFE_AGC_CFG c, 31, 24⟩
/-- R239: register FFE_AGC_CLIP. -/
def FFE_AGC_CLIP (c : Nat) : Nat := 0x3801004 + 0x8 * c
def FFE_AGC_CLIP_CLIP_LIMIT (c : Nat) : Fld := ⟨FFE_AGC_CLIP c, 15, 0⟩
/-- R239: register FFE_SCHED. -/
def FFE_SCHED (c : Nat) (b : Nat) : Nat := 0x3802000 + 0x8 * c + 0x4 * b
def FFE_SCHED_MASK (c : Nat) (b : Nat) : Fld := ⟨FFE_SCHED c b, 13, 0⟩
def FFE_SCHED_VALID (c : Nat) (b : Nat) : Fld := ⟨FFE_SCHED c b, 14, 14⟩
def FFE_SCHED_SLOT (c : Nat) (b : Nat) : Fld := ⟨FFE_SCHED c b, 31, 16⟩
/-- R239: register FFE_AGC_STATE. -/
def FFE_AGC_STATE (q : Nat) (e : Nat) : Nat := 0x3804000 + 0x800 * q + 0x4 * e
def FFE_AGC_STATE_GAIN (q : Nat) (e : Nat) : Fld := ⟨FFE_AGC_STATE q e, 7, 0⟩
def FFE_AGC_STATE_MODE (q : Nat) (e : Nat) : Fld := ⟨FFE_AGC_STATE q e, 9, 8⟩
def FFE_AGC_STATE_VALID (q : Nat) (e : Nat) : Fld := ⟨FFE_AGC_STATE q e, 10, 10⟩
def FFE_AGC_STATE_CLIP (q : Nat) (e : Nat) : Fld := ⟨FFE_AGC_STATE q e, 31, 16⟩

/-! ### MXE -/
/-- R273: register MXE_CTRL. -/
def MXE_CTRL : Nat := 0x3a00000
def MXE_CTRL_LABEL_CHECK : Fld := ⟨MXE_CTRL, 0, 0⟩
def MXE_CTRL_EV_ALL : Fld := ⟨MXE_CTRL, 1, 1⟩
def MXE_CTRL_LLR_FRAC : Fld := ⟨MXE_CTRL, 4, 2⟩
def MXE_CTRL_SHRINK : Fld := ⟨MXE_CTRL, 11, 8⟩
def MXE_CTRL_DSPREAD : Fld := ⟨MXE_CTRL, 23, 16⟩
/-- R273: register MXE_ITER_CFG. -/
def MXE_ITER_CFG : Nat := 0x3a00004
def MXE_ITER_CFG_COST_US : Fld := ⟨MXE_ITER_CFG, 7, 0⟩
def MXE_ITER_CFG_MAX : Fld := ⟨MXE_ITER_CFG, 9, 8⟩
def MXE_ITER_CFG_ECLASS : Fld := ⟨MXE_ITER_CFG, 15, 12⟩
/-- R273: register MXE_STATUS. -/
def MXE_STATUS (m : Nat) : Nat := 0x3a00100 + 0x100 * m
def MXE_STATUS_STATE (m : Nat) : Fld := ⟨MXE_STATUS m, 1, 0⟩
def MXE_STATUS_QDEPTH (m : Nat) : Fld := ⟨MXE_STATUS m, 6, 2⟩
def MXE_STATUS_LOOP (m : Nat) : Fld := ⟨MXE_STATUS m, 7, 7⟩
/-- R273: register MXE_EV_CAUSE. -/
def MXE_EV_CAUSE (m : Nat) : Nat := 0x3a00104 + 0x100 * m
def MXE_EV_CAUSE_REPORT (m : Nat) : Fld := ⟨MXE_EV_CAUSE m, 0, 0⟩
def MXE_EV_CAUSE_CMD_ERR (m : Nat) : Fld := ⟨MXE_EV_CAUSE m, 1, 1⟩
def MXE_EV_CAUSE_EXPIRED (m : Nat) : Fld := ⟨MXE_EV_CAUSE m, 2, 2⟩
def MXE_EV_CAUSE_FENCED (m : Nat) : Fld := ⟨MXE_EV_CAUSE m, 3, 3⟩
def MXE_EV_CAUSE_LABEL (m : Nat) : Fld := ⟨MXE_EV_CAUSE m, 4, 4⟩
def MXE_EV_CAUSE_OVERFLOW (m : Nat) : Fld := ⟨MXE_EV_CAUSE m, 5, 5⟩
def MXE_EV_CAUSE_ERASED (m : Nat) : Fld := ⟨MXE_EV_CAUSE m, 6, 6⟩
def MXE_EV_CAUSE_EST_MISMATCH (m : Nat) : Fld := ⟨MXE_EV_CAUSE m, 7, 7⟩
/-- R273: register MXE_LOOP_CAUSE. -/
def MXE_LOOP_CAUSE (m : Nat) : Nat := 0x3a00108 + 0x100 * m
def MXE_LOOP_CAUSE_INELIGIBLE (m : Nat) : Fld := ⟨MXE_LOOP_CAUSE m, 0, 0⟩
def MXE_LOOP_CAUSE_NO_SLACK (m : Nat) : Fld := ⟨MXE_LOOP_CAUSE m, 1, 1⟩
def MXE_LOOP_CAUSE_NO_ENERGY (m : Nat) : Fld := ⟨MXE_LOOP_CAUSE m, 2, 2⟩
def MXE_LOOP_CAUSE_EXPIRED_IN_LOOP (m : Nat) : Fld := ⟨MXE_LOOP_CAUSE m, 3, 3⟩
def MXE_LOOP_CAUSE_FAULT (m : Nat) : Fld := ⟨MXE_LOOP_CAUSE m, 4, 4⟩
/-- R273: register MXE_ERR. -/
def MXE_ERR (m : Nat) : Nat := 0x3a0010c + 0x100 * m
def MXE_ERR_CODE (m : Nat) : Fld := ⟨MXE_ERR m, 3, 0⟩
def MXE_ERR_ENTRY (m : Nat) : Fld := ⟨MXE_ERR m, 8, 4⟩
/-- R273: register MXE_RING_BASE_LO. -/
def MXE_RING_BASE_LO (m : Nat) : Nat := 0x3a00110 + 0x100 * m
def MXE_RING_BASE_LO_ADDR (m : Nat) : Fld := ⟨MXE_RING_BASE_LO m, 31, 0⟩
/-- R273: register MXE_RING_BASE_HI. -/
def MXE_RING_BASE_HI (m : Nat) : Nat := 0x3a00114 + 0x100 * m
def MXE_RING_BASE_HI_ADDR (m : Nat) : Fld := ⟨MXE_RING_BASE_HI m, 15, 0⟩
/-- R273: register MXE_RING_SIZE. -/
def MXE_RING_SIZE (m : Nat) : Nat := 0x3a00118 + 0x100 * m
def MXE_RING_SIZE_SIZE (m : Nat) : Fld := ⟨MXE_RING_SIZE m, 15, 0⟩
/-- R273: register MXE_RING_WR. -/
def MXE_RING_WR (m : Nat) : Nat := 0x3a0011c + 0x100 * m
def MXE_RING_WR_WR (m : Nat) : Fld := ⟨MXE_RING_WR m, 15, 0⟩
/-- R273: register MXE_RING_RD. -/
def MXE_RING_RD (m : Nat) : Nat := 0x3a00120 + 0x100 * m
def MXE_RING_RD_RD (m : Nat) : Fld := ⟨MXE_RING_RD m, 15, 0⟩
/-- R273: register MXE_CNT_CMD. -/
def MXE_CNT_CMD (m : Nat) : Nat := 0x3a00124 + 0x100 * m
def MXE_CNT_CMD_COUNT (m : Nat) : Fld := ⟨MXE_CNT_CMD m, 31, 0⟩
/-- R273: register MXE_CNT_ERASE. -/
def MXE_CNT_ERASE (m : Nat) : Nat := 0x3a00128 + 0x100 * m
def MXE_CNT_ERASE_COUNT (m : Nat) : Fld := ⟨MXE_CNT_ERASE m, 31, 0⟩
/-- R273: register MXE_CNT_ZERO_ALLOC. -/
def MXE_CNT_ZERO_ALLOC (m : Nat) : Nat := 0x3a0012c + 0x100 * m
def MXE_CNT_ZERO_ALLOC_COUNT (m : Nat) : Fld := ⟨MXE_CNT_ZERO_ALLOC m, 31, 0⟩
/-- R273: register MXE_CNT_OUTER. -/
def MXE_CNT_OUTER (m : Nat) : Nat := 0x3a00130 + 0x100 * m
def MXE_CNT_OUTER_COUNT (m : Nat) : Fld := ⟨MXE_CNT_OUTER m, 31, 0⟩
/-- R273: register MXE_CNT_OUTER_REF. -/
def MXE_CNT_OUTER_REF (m : Nat) : Nat := 0x3a00134 + 0x100 * m
def MXE_CNT_OUTER_REF_COUNT (m : Nat) : Fld := ⟨MXE_CNT_OUTER_REF m, 31, 0⟩
/-- R273: register MXE_CNT_LLR_SAT. -/
def MXE_CNT_LLR_SAT (m : Nat) : Nat := 0x3a00138 + 0x100 * m
def MXE_CNT_LLR_SAT_COUNT (m : Nat) : Fld := ⟨MXE_CNT_LLR_SAT m, 31, 0⟩
/-- R273: register MXE_CNT_DROP. -/
def MXE_CNT_DROP (m : Nat) : Nat := 0x3a0013c + 0x100 * m
def MXE_CNT_DROP_COUNT (m : Nat) : Fld := ⟨MXE_CNT_DROP m, 31, 0⟩
/-- R337: register MXE_DL_CTRL. -/
def MXE_DL_CTRL : Nat := 0x3a10000
def MXE_DL_CTRL_REG_SHIFT : Fld := ⟨MXE_DL_CTRL, 3, 0⟩
/-- R337: register MXE_DL_EV_CAUSE. -/
def MXE_DL_EV_CAUSE (m : Nat) : Nat := 0x3a10104 + 0x100 * m
def MXE_DL_EV_CAUSE_CMD_ERR (m : Nat) : Fld := ⟨MXE_DL_EV_CAUSE m, 0, 0⟩
def MXE_DL_EV_CAUSE_EXPIRED (m : Nat) : Fld := ⟨MXE_DL_EV_CAUSE m, 1, 1⟩
def MXE_DL_EV_CAUSE_FENCED (m : Nat) : Fld := ⟨MXE_DL_EV_CAUSE m, 2, 2⟩
def MXE_DL_EV_CAUSE_ZERO_IN (m : Nat) : Fld := ⟨MXE_DL_EV_CAUSE m, 3, 3⟩
/-- R337: register MXE_DL_ERR. -/
def MXE_DL_ERR (m : Nat) : Nat := 0x3a10108 + 0x100 * m
def MXE_DL_ERR_CODE (m : Nat) : Fld := ⟨MXE_DL_ERR m, 3, 0⟩
def MXE_DL_ERR_ENTRY (m : Nat) : Fld := ⟨MXE_DL_ERR m, 8, 4⟩
/-- R337: register MXE_DL_CNT_SAT. -/
def MXE_DL_CNT_SAT (m : Nat) : Nat := 0x3a1010c + 0x100 * m
def MXE_DL_CNT_SAT_COUNT (m : Nat) : Fld := ⟨MXE_DL_CNT_SAT m, 31, 0⟩
/-- R337: register MXE_DL_CNT_ZERO. -/
def MXE_DL_CNT_ZERO (m : Nat) : Nat := 0x3a10110 + 0x100 * m
def MXE_DL_CNT_ZERO_COUNT (m : Nat) : Fld := ⟨MXE_DL_CNT_ZERO m, 31, 0⟩
/-- R337: register MXE_DL_CNT_LATE. -/
def MXE_DL_CNT_LATE (m : Nat) : Nat := 0x3a10114 + 0x100 * m
def MXE_DL_CNT_LATE_COUNT (m : Nat) : Fld := ⟨MXE_DL_CNT_LATE m, 31, 0⟩

/-! ### FEC -/
/-- R303: register FEC_CTRL. -/
def FEC_CTRL : Nat := 0x3c00000
def FEC_CTRL_LABEL_CHECK : Fld := ⟨FEC_CTRL, 0, 0⟩
def FEC_CTRL_SB_SHIFT : Fld := ⟨FEC_CTRL, 3, 1⟩
def FEC_CTRL_XITER_ECLASS : Fld := ⟨FEC_CTRL, 7, 4⟩
def FEC_CTRL_MAX_ITER : Fld := ⟨FEC_CTRL, 12, 8⟩
/-- R303: register FEC_SB_GEN. -/
def FEC_SB_GEN : Nat := 0x3c00004
def FEC_SB_GEN_GEN : Fld := ⟨FEC_SB_GEN, 7, 0⟩
/-- R303: register FEC_GRP_STATUS. -/
def FEC_GRP_STATUS (q : Nat) : Nat := 0x3c00100 + 0x100 * q
def FEC_GRP_STATUS_QDEPTH (q : Nat) : Fld := ⟨FEC_GRP_STATUS q, 5, 0⟩
def FEC_GRP_STATUS_BUSY (q : Nat) : Fld := ⟨FEC_GRP_STATUS q, 8, 6⟩
def FEC_GRP_STATUS_LOOP_WAIT (q : Nat) : Fld := ⟨FEC_GRP_STATUS q, 9, 9⟩
def FEC_GRP_STATUS_CHECK_Q (q : Nat) : Fld := ⟨FEC_GRP_STATUS q, 20, 16⟩
/-- R303: register FEC_GRP_CAUSE. -/
def FEC_GRP_CAUSE (q : Nat) : Nat := 0x3c00104 + 0x100 * q
def FEC_GRP_CAUSE_PROV_OVF (q : Nat) : Fld := ⟨FEC_GRP_CAUSE q, 0, 0⟩
def FEC_GRP_CAUSE_PROV_LOC (q : Nat) : Fld := ⟨FEC_GRP_CAUSE q, 1, 1⟩
def FEC_GRP_CAUSE_RING_MOVED (q : Nat) : Fld := ⟨FEC_GRP_CAUSE q, 2, 2⟩
def FEC_GRP_CAUSE_CMPL_LOST (q : Nat) : Fld := ⟨FEC_GRP_CAUSE q, 3, 3⟩
def FEC_GRP_CAUSE_DB_DROP (q : Nat) : Fld := ⟨FEC_GRP_CAUSE q, 4, 4⟩
def FEC_GRP_CAUSE_SB_LOST (q : Nat) : Fld := ⟨FEC_GRP_CAUSE q, 5, 5⟩
def FEC_GRP_CAUSE_CMD_ERR (q : Nat) : Fld := ⟨FEC_GRP_CAUSE q, 6, 6⟩
def FEC_GRP_CAUSE_EXPIRED (q : Nat) : Fld := ⟨FEC_GRP_CAUSE q, 7, 7⟩
def FEC_GRP_CAUSE_LABEL (q : Nat) : Fld := ⟨FEC_GRP_CAUSE q, 8, 8⟩
/-- R303: register FEC_ERR. -/
def FEC_ERR (q : Nat) : Nat := 0x3c00108 + 0x100 * q
def FEC_ERR_CODE (q : Nat) : Fld := ⟨FEC_ERR q, 3, 0⟩
def FEC_ERR_ENTRY (q : Nat) : Fld := ⟨FEC_ERR q, 8, 4⟩
def FEC_ERR_CARRIER (q : Nat) : Fld := ⟨FEC_ERR q, 14, 9⟩
/-- R303: register FEC_PROV_BASE_LO. -/
def FEC_PROV_BASE_LO (q : Nat) : Nat := 0x3c00110 + 0x100 * q
def FEC_PROV_BASE_LO_ADDR (q : Nat) : Fld := ⟨FEC_PROV_BASE_LO q, 31, 0⟩
/-- R303: register FEC_PROV_BASE_HI. -/
def FEC_PROV_BASE_HI (q : Nat) : Nat := 0x3c00114 + 0x100 * q
def FEC_PROV_BASE_HI_ADDR (q : Nat) : Fld := ⟨FEC_PROV_BASE_HI q, 15, 0⟩
/-- R303: register FEC_PROV_SIZE. -/
def FEC_PROV_SIZE (q : Nat) : Nat := 0x3c00118 + 0x100 * q
def FEC_PROV_SIZE_SIZE (q : Nat) : Fld := ⟨FEC_PROV_SIZE q, 15, 0⟩
/-- R303: register FEC_PROV_WR. -/
def FEC_PROV_WR (q : Nat) : Nat := 0x3c0011c + 0x100 * q
def FEC_PROV_WR_WR (q : Nat) : Fld := ⟨FEC_PROV_WR q, 15, 0⟩
/-- R303: register FEC_PROV_RD. -/
def FEC_PROV_RD (q : Nat) : Nat := 0x3c00120 + 0x100 * q
def FEC_PROV_RD_RD (q : Nat) : Fld := ⟨FEC_PROV_RD q, 15, 0⟩
/-- R303: register FEC_CMPL_BASE_LO. -/
def FEC_CMPL_BASE_LO (q : Nat) : Nat := 0x3c00130 + 0x100 * q
def FEC_CMPL_BASE_LO_ADDR (q : Nat) : Fld := ⟨FEC_CMPL_BASE_LO q, 31, 0⟩
/-- R303: register FEC_CMPL_BASE_HI. -/
def FEC_CMPL_BASE_HI (q : Nat) : Nat := 0x3c00134 + 0x100 * q
def FEC_CMPL_BASE_HI_ADDR (q : Nat) : Fld := ⟨FEC_CMPL_BASE_HI q, 15, 0⟩
/-- R303: register FEC_CMPL_SIZE. -/
def FEC_CMPL_SIZE (q : Nat) : Nat := 0x3c00138 + 0x100 * q
def FEC_CMPL_SIZE_SIZE (q : Nat) : Fld := ⟨FEC_CMPL_SIZE q, 15, 0⟩
/-- R303: register FEC_CMPL_WR. -/
def FEC_CMPL_WR (q : Nat) : Nat := 0x3c0013c + 0x100 * q
def FEC_CMPL_WR_WR (q : Nat) : Fld := ⟨FEC_CMPL_WR q, 15, 0⟩
/-- R303: register FEC_CMPL_RD. -/
def FEC_CMPL_RD (q : Nat) : Nat := 0x3c00140 + 0x100 * q
def FEC_CMPL_RD_RD (q : Nat) : Fld := ⟨FEC_CMPL_RD q, 15, 0⟩
/-- R303: register FEC_CNT_CB. -/
def FEC_CNT_CB (q : Nat) : Nat := 0x3c00150 + 0x100 * q
def FEC_CNT_CB_COUNT (q : Nat) : Fld := ⟨FEC_CNT_CB q, 31, 0⟩
/-- R303: register FEC_CNT_ITER. -/
def FEC_CNT_ITER (q : Nat) : Nat := 0x3c00154 + 0x100 * q
def FEC_CNT_ITER_COUNT (q : Nat) : Fld := ⟨FEC_CNT_ITER q, 31, 0⟩
/-- R303: register FEC_CNT_EARLY. -/
def FEC_CNT_EARLY (q : Nat) : Nat := 0x3c00158 + 0x100 * q
def FEC_CNT_EARLY_COUNT (q : Nat) : Fld := ⟨FEC_CNT_EARLY q, 31, 0⟩
/-- R303: register FEC_CNT_RETRACT. -/
def FEC_CNT_RETRACT (q : Nat) : Nat := 0x3c0015c + 0x100 * q
def FEC_CNT_RETRACT_COUNT (q : Nat) : Fld := ⟨FEC_CNT_RETRACT q, 31, 0⟩
/-- R303: register FEC_CNT_TB_FAIL. -/
def FEC_CNT_TB_FAIL (q : Nat) : Nat := 0x3c00160 + 0x100 * q
def FEC_CNT_TB_FAIL_COUNT (q : Nat) : Fld := ⟨FEC_CNT_TB_FAIL q, 31, 0⟩
/-- R303: register FEC_CNT_XITER_DENIED. -/
def FEC_CNT_XITER_DENIED (q : Nat) : Nat := 0x3c00164 + 0x100 * q
def FEC_CNT_XITER_DENIED_COUNT (q : Nat) : Fld := ⟨FEC_CNT_XITER_DENIED q, 31, 0⟩
/-- R303: register FEC_CNT_DB_DROP. -/
def FEC_CNT_DB_DROP (q : Nat) : Nat := 0x3c00168 + 0x100 * q
def FEC_CNT_DB_DROP_COUNT (q : Nat) : Fld := ⟨FEC_CNT_DB_DROP q, 31, 0⟩
/-- R303: register FEC_CNT_ERASE. -/
def FEC_CNT_ERASE (q : Nat) : Nat := 0x3c0016c + 0x100 * q
def FEC_CNT_ERASE_COUNT (q : Nat) : Fld := ⟨FEC_CNT_ERASE q, 31, 0⟩
/-- R303: register FEC_CNT_SB_LOST. -/
def FEC_CNT_SB_LOST (q : Nat) : Nat := 0x3c00170 + 0x100 * q
def FEC_CNT_SB_LOST_COUNT (q : Nat) : Fld := ⟨FEC_CNT_SB_LOST q, 31, 0⟩
/-- R303: register FEC_CNT_PROV_DROP. -/
def FEC_CNT_PROV_DROP (q : Nat) : Nat := 0x3c00174 + 0x100 * q
def FEC_CNT_PROV_DROP_COUNT (q : Nat) : Fld := ⟨FEC_CNT_PROV_DROP q, 31, 0⟩
/-- R303: register FEC_CNT_CMPL_LOST. -/
def FEC_CNT_CMPL_LOST (q : Nat) : Nat := 0x3c00178 + 0x100 * q
def FEC_CNT_CMPL_LOST_COUNT (q : Nat) : Fld := ⟨FEC_CNT_CMPL_LOST q, 31, 0⟩
/-- R303: register FEC_ENG_STATUS. -/
def FEC_ENG_STATUS (e : Nat) : Nat := 0x3c01000 + 0x20 * e
def FEC_ENG_STATUS_STATE (e : Nat) : Fld := ⟨FEC_ENG_STATUS e, 1, 0⟩
/-- R303: register FEC_ENG_EV_CAUSE. -/
def FEC_ENG_EV_CAUSE (e : Nat) : Nat := 0x3c01004 + 0x20 * e
def FEC_ENG_EV_CAUSE_FENCED (e : Nat) : Fld := ⟨FEC_ENG_EV_CAUSE e, 0, 0⟩
def FEC_ENG_EV_CAUSE_GROUP (e : Nat) : Fld := ⟨FEC_ENG_EV_CAUSE e, 1, 1⟩
/-- R337: register FEC_ENC_STATUS. -/
def FEC_ENC_STATUS (q : Nat) : Nat := 0x3c10000 + 0x100 * q
def FEC_ENC_STATUS_QDEPTH (q : Nat) : Fld := ⟨FEC_ENC_STATUS q, 4, 0⟩
/-- R337: register FEC_ENC_CAUSE. -/
def FEC_ENC_CAUSE (q : Nat) : Nat := 0x3c10004 + 0x100 * q
def FEC_ENC_CAUSE_CMD_ERR (q : Nat) : Fld := ⟨FEC_ENC_CAUSE q, 0, 0⟩
def FEC_ENC_CAUSE_EXPIRED (q : Nat) : Fld := ⟨FEC_ENC_CAUSE q, 1, 1⟩
def FEC_ENC_CAUSE_IN_ERASED (q : Nat) : Fld := ⟨FEC_ENC_CAUSE q, 2, 2⟩
def FEC_ENC_CAUSE_FENCED (q : Nat) : Fld := ⟨FEC_ENC_CAUSE q, 3, 3⟩
/-- R337: register FEC_ENC_ERR. -/
def FEC_ENC_ERR (q : Nat) : Nat := 0x3c10008 + 0x100 * q
def FEC_ENC_ERR_CODE (q : Nat) : Fld := ⟨FEC_ENC_ERR q, 3, 0⟩
/-- R337: register FEC_ENC_CNT_CB. -/
def FEC_ENC_CNT_CB (q : Nat) : Nat := 0x3c1000c + 0x100 * q
def FEC_ENC_CNT_CB_COUNT (q : Nat) : Fld := ⟨FEC_ENC_CNT_CB q, 31, 0⟩
/-- R337: register FEC_ENC_CNT_MUTED. -/
def FEC_ENC_CNT_MUTED (q : Nat) : Nat := 0x3c10010 + 0x100 * q
def FEC_ENC_CNT_MUTED_COUNT (q : Nat) : Fld := ⟨FEC_ENC_CNT_MUTED q, 31, 0⟩

/-! ### PRE -/
/-- R239: register PRE_CTRL. -/
def PRE_CTRL (p : Nat) : Nat := 0x3e00000 + 0x100 * p
def PRE_CTRL_EV_ALL (p : Nat) : Fld := ⟨PRE_CTRL p, 0, 0⟩
/-- R239: register PRE_STATUS. -/
def PRE_STATUS (p : Nat) : Nat := 0x3e00004 + 0x100 * p
def PRE_STATUS_STATE (p : Nat) : Fld := ⟨PRE_STATUS p, 1, 0⟩
def PRE_STATUS_ACC0_BUSY (p : Nat) : Fld := ⟨PRE_STATUS p, 2, 2⟩
def PRE_STATUS_ACC1_BUSY (p : Nat) : Fld := ⟨PRE_STATUS p, 3, 3⟩
def PRE_STATUS_QDEPTH (p : Nat) : Fld := ⟨PRE_STATUS p, 8, 4⟩
/-- R239: register PRE_EV_CAUSE. -/
def PRE_EV_CAUSE (p : Nat) : Nat := 0x3e00008 + 0x100 * p
def PRE_EV_CAUSE_REPORT (p : Nat) : Fld := ⟨PRE_EV_CAUSE p, 0, 0⟩
def PRE_EV_CAUSE_OVERFLOW (p : Nat) : Fld := ⟨PRE_EV_CAUSE p, 1, 1⟩
def PRE_EV_CAUSE_EXPIRED (p : Nat) : Fld := ⟨PRE_EV_CAUSE p, 2, 2⟩
def PRE_EV_CAUSE_CMD_ERR (p : Nat) : Fld := ⟨PRE_EV_CAUSE p, 3, 3⟩
def PRE_EV_CAUSE_SUPERSEDED (p : Nat) : Fld := ⟨PRE_EV_CAUSE p, 4, 4⟩
def PRE_EV_CAUSE_CLIP_RELEASE (p : Nat) : Fld := ⟨PRE_EV_CAUSE p, 5, 5⟩
def PRE_EV_CAUSE_FENCED (p : Nat) : Fld := ⟨PRE_EV_CAUSE p, 6, 6⟩
/-- R239: register PRE_RING_BASE_LO. -/
def PRE_RING_BASE_LO (p : Nat) : Nat := 0x3e00010 + 0x100 * p
def PRE_RING_BASE_LO_ADDR (p : Nat) : Fld := ⟨PRE_RING_BASE_LO p, 31, 0⟩
/-- R239: register PRE_RING_BASE_HI. -/
def PRE_RING_BASE_HI (p : Nat) : Nat := 0x3e00014 + 0x100 * p
def PRE_RING_BASE_HI_ADDR (p : Nat) : Fld := ⟨PRE_RING_BASE_HI p, 15, 0⟩
/-- R239: register PRE_RING_SIZE. -/
def PRE_RING_SIZE (p : Nat) : Nat := 0x3e00018 + 0x100 * p
def PRE_RING_SIZE_SIZE (p : Nat) : Fld := ⟨PRE_RING_SIZE p, 15, 0⟩
/-- R239: register PRE_RING_WR. -/
def PRE_RING_WR (p : Nat) : Nat := 0x3e0001c + 0x100 * p
def PRE_RING_WR_WR (p : Nat) : Fld := ⟨PRE_RING_WR p, 15, 0⟩
/-- R239: register PRE_RING_RD. -/
def PRE_RING_RD (p : Nat) : Nat := 0x3e00020 + 0x100 * p
def PRE_RING_RD_RD (p : Nat) : Fld := ⟨PRE_RING_RD p, 15, 0⟩
/-- R239: register PRE_CNT_OCC. -/
def PRE_CNT_OCC (p : Nat) : Nat := 0x3e00024 + 0x100 * p
def PRE_CNT_OCC_COUNT (p : Nat) : Fld := ⟨PRE_CNT_OCC p, 31, 0⟩
/-- R239: register PRE_CNT_DET. -/
def PRE_CNT_DET (p : Nat) : Nat := 0x3e00028 + 0x100 * p
def PRE_CNT_DET_COUNT (p : Nat) : Fld := ⟨PRE_CNT_DET p, 31, 0⟩
/-- R239: register PRE_CNT_SUP. -/
def PRE_CNT_SUP (p : Nat) : Nat := 0x3e0002c + 0x100 * p
def PRE_CNT_SUP_COUNT (p : Nat) : Fld := ⟨PRE_CNT_SUP p, 31, 0⟩
/-- R239: register PRE_CNT_CLIPREL. -/
def PRE_CNT_CLIPREL (p : Nat) : Nat := 0x3e00030 + 0x100 * p
def PRE_CNT_CLIPREL_COUNT (p : Nat) : Fld := ⟨PRE_CNT_CLIPREL p, 31, 0⟩
/-- R239: register PRE_CNT_DROP. -/
def PRE_CNT_DROP (p : Nat) : Nat := 0x3e00034 + 0x100 * p
def PRE_CNT_DROP_COUNT (p : Nat) : Fld := ⟨PRE_CNT_DROP p, 31, 0⟩

end Sys2Proof.Machine.R
end

