-- ==== Sys2Proof/Machine/RegTable.lean ====
section
/-! DEFINITION. The register tables of every block: for each register its place, the strides of
its indexes, and per field the access code (R6) and the reset value (R7) its chapter gives. -/

namespace Sys2Proof.Machine
open R

/-- Block HWD, part 0. -/
def rowsHWD0 : List RegRow := [
  ⟨HWD_ID, [], [fs HWD_ID_DEVICE .ro 0x6192, fs HWD_ID_REV .ro 0xb1, fs HWD_ID_GRADE .ro 0]⟩,
  ⟨HWD_FW_VER, [], [fs HWD_FW_VER_VER .ro 0]⟩,
  ⟨HWD_BOOT, [], [fs HWD_BOOT_STAGE .ro 0, fs HWD_BOOT_MODE .ro 0, fs HWD_BOOT_SET .ro 0, fs HWD_BOOT_HOST_WAIT .ro 0, fs HWD_BOOT_ERR .ro 0]⟩,
  ⟨HWD_EV_CAUSE, [], [fs HWD_EV_CAUSE_MBX_A .w1c 0, fs HWD_EV_CAUSE_MBX_B .w1c 0, fs HWD_EV_CAUSE_FLASH_ERR .w1c 0, fs HWD_EV_CAUSE_REMOVAL_READY .w1c 0, fs HWD_EV_CAUSE_REMOVAL_FAILED .w1c 0, fs HWD_EV_CAUSE_LINK_UP .w1c 0, fs HWD_EV_CAUSE_LINK_DOWN .w1c 0, fs HWD_EV_CAUSE_FLR .w1c 0, fs HWD_EV_CAUSE_ACCESS_ERR .w1c 0, fs HWD_EV_CAUSE_SEM_RELEASED .w1c 0, fs HWD_EV_CAUSE_SEM_FENCED .w1c 0]⟩,
  ⟨HWD_HOST_CTRL, [], [fs HWD_HOST_CTRL_ERR_MODE .rw 1, fs HWD_HOST_CTRL_ASLEEP_RETRY .rw 4]⟩,
  ⟨(HWD_HOST_ERR 0), [(2, 0x10)], [fs (HWD_HOST_ERR_RESP 0) .ro 0, fs (HWD_HOST_ERR_CAUSE 0) .ro 0, fs (HWD_HOST_ERR_WRITE 0) .ro 0, fs (HWD_HOST_ERR_COUNT 0) .rc 0]⟩,
  ⟨(HWD_HOST_ERR_ADDR_LO 0), [(2, 0x10)], [fs (HWD_HOST_ERR_ADDR_LO_ADDR 0) .ro 0]⟩,
  ⟨(HWD_HOST_ERR_ADDR_HI 0), [(2, 0x10)], [fs (HWD_HOST_ERR_ADDR_HI_ADDR 0) .ro 0]⟩,
  ⟨HWD_STAGE_PAGE, [], [fs HWD_STAGE_PAGE_PAGE .rw 0]⟩,
  ⟨(HWD_MBX_ARG 0 0), [(2, 0x100), (8, 0x4)], [fs (HWD_MBX_ARG_ARG 0 0) .rw 0]⟩,
  ⟨(HWD_MBX_CMD 0), [(2, 0x100)], [fs (HWD_MBX_CMD_CODE 0) .rw 0, fs (HWD_MBX_CMD_SEQ 0) .rw 0]⟩,
  ⟨(HWD_MBX_RSP 0), [(2, 0x100)], [fs (HWD_MBX_RSP_STATUS 0) .ro 0, fs (HWD_MBX_RSP_BUSY 0) .ro 0, fs (HWD_MBX_RSP_DONE 0) .w1c 0, fs (HWD_MBX_RSP_LOST 0) .w1c 0, fs (HWD_MBX_RSP_SEQ 0) .ro 0]⟩]

/-- Block HWD, part 1. -/
def rowsHWD1 : List RegRow := [
  ⟨(HWD_MBX_DATA 0 0), [(2, 0x100), (8, 0x4)], [fs (HWD_MBX_DATA_DATA 0 0) .ro 0]⟩,
  ⟨HWD_TLM_CTRL, [], [fs HWD_TLM_CTRL_EN .rw 0]⟩,
  ⟨HWD_TLM_BASE_LO, [], [fs HWD_TLM_BASE_LO_ADDR .rw 0]⟩,
  ⟨HWD_TLM_BASE_HI, [], [fs HWD_TLM_BASE_HI_ADDR .rw 0]⟩,
  ⟨HWD_TLM_SIZE, [], [fs HWD_TLM_SIZE_SIZE .rw 0x400]⟩,
  ⟨HWD_TLM_WR, [], [fs HWD_TLM_WR_WR .ro 0]⟩,
  ⟨HWD_TLM_RD, [], [fs HWD_TLM_RD_RD .rw 0]⟩,
  ⟨HWD_TLM_LOST, [], [fs HWD_TLM_LOST_COUNT .rc 0]⟩,
  ⟨HWD_DBG, [], [fs HWD_DBG_LOCK .rws 0]⟩,
  ⟨(HWD_SEM 0), [(128, 0x4)], [fs (HWD_SEM_SEM 0) .rw 0]⟩,
  ⟨(HWD_SEM_OWNER 0), [(128, 0x4)], [fs (HWD_SEM_OWNER_OWNER 0) .ro 0]⟩,
  ⟨(HWD_STAGE 0), [(65536, 0x4)], [fs (HWD_STAGE_DATA 0) .rw 0]⟩]

/-- Every register of block HWD. -/
def rowsHWD : List RegRow := rowsHWD0 ++ rowsHWD1

/-- Block EVF, part 0. -/
def rowsEVF0 : List RegRow := [
  ⟨(EVF_PEND 0), [(12, 0x4)], [fs (EVF_PEND_PEND 0) .w1c 0]⟩,
  ⟨EVF_NEXT, [], [fs EVF_NEXT_EV .ro 0, fs EVF_NEXT_VALID .ro 0]⟩,
  ⟨EVF_FORCE, [], [fs EVF_FORCE_EV .wo 0]⟩,
  ⟨(EVF_ROUTE 0), [(384, 0x4)], [fs (EVF_ROUTE_HOST_A 0) .rw 1, fs (EVF_ROUTE_HOST_B 0) .rw 1, fs (EVF_ROUTE_CORE_EN 0) .rw 0, fs (EVF_ROUTE_TGT_LC 0) .rw 0, fs (EVF_ROUTE_TGT_CORE 0) .rw 0]⟩]

/-- Every register of block EVF. -/
def rowsEVF : List RegRow := rowsEVF0

/-- Block TTB, part 0. -/
def rowsTTB0 : List RegRow := [
  ⟨TTB_CTRL, [], [fs TTB_CTRL_SOURCE .rw 0, fs TTB_CTRL_PROFILE .rw 0, fs TTB_CTRL_SERVO_HOST .rw 0, fs TTB_CTRL_RUN_UNLOCKED .rw 0, fs TTB_CTRL_SYNCE_EN .rw 0, fs TTB_CTRL_SYNCE_LANE .rw 0, fs TTB_CTRL_PTP_DOMAIN .rw 0x7f, fs TTB_CTRL_ANNOUNCE_TIMEOUT .rw 3]⟩,
  ⟨TTB_STATUS, [], [fs TTB_STATUS_STATE .ro 0, fs TTB_STATUS_PPS_IN_PRESENT .ro 0, fs TTB_STATUS_SYNCE_LOCK .ro 0, fs TTB_STATUS_STEP_PENDING .ro 0, fs TTB_STATUS_STEP_REFUSED .w1c 0, fs TTB_STATUS_SLEW_LIMITED .ro 0, fs TTB_STATUS_REFUSED .w1c 0, fs TTB_STATUS_FRAME_PENDING .ro 0, fs TTB_STATUS_OFFSET_NS .ro 0]⟩,
  ⟨TTB_TICK_LO, [], [fs TTB_TICK_LO_TICK_LO .ro 0]⟩,
  ⟨TTB_TICK_HI, [], [fs TTB_TICK_HI_TICK_HI .ro 0]⟩,
  ⟨TTB_TOD_NS, [], [fs TTB_TOD_NS_NS .ro 0]⟩,
  ⟨TTB_TOD_SEC_LO, [], [fs TTB_TOD_SEC_LO_SEC_LO .ro 0]⟩,
  ⟨TTB_TOD_SEC_HI, [], [fs TTB_TOD_SEC_HI_SEC_HI .ro 0]⟩,
  ⟨TTB_FRAME, [], [fs TTB_FRAME_FRAME_OFS .rw 0, fs TTB_FRAME_SFN_OFS .rw 0]⟩,
  ⟨TTB_FREQ_ADJ, [], [fs TTB_FREQ_ADJ_ADJ .rw 0]⟩,
  ⟨TTB_SLEW_LIMIT, [], [fs TTB_SLEW_LIMIT_LIMIT .rw 0x27100]⟩,
  ⟨TTB_STEP_NS, [], [fs TTB_STEP_NS_NS .rw 0]⟩,
  ⟨TTB_STEP_SEC, [], [fs TTB_STEP_SEC_SEC .rw 0]⟩]

/-- Block TTB, part 1. -/
def rowsTTB1 : List RegRow := [
  ⟨TTB_STEP_CTRL, [], [fs TTB_STEP_CTRL_GO .wo 0, fs TTB_STEP_CTRL_FORCE .rw 0]⟩,
  ⟨TTB_PPS_CTRL, [], [fs TTB_PPS_CTRL_OUT_EN .rw 0, fs TTB_PPS_CTRL_OUT_WIDTH_MS .rw 0x64, fs TTB_PPS_CTRL_IN_EN .rw 0, fs TTB_PPS_CTRL_IN_EDGE .rw 0]⟩,
  ⟨TTB_PPS_IN_NS, [], [fs TTB_PPS_IN_NS_NS .ro 0]⟩,
  ⟨TTB_UTC_OFS, [], [fs TTB_UTC_OFS_OFS .ro 0x25, fs TTB_UTC_OFS_LEAP61 .ro 0, fs TTB_UTC_OFS_LEAP59 .ro 0]⟩]

/-- Every register of block TTB. -/
def rowsTTB : List RegRow := rowsTTB0 ++ rowsTTB1

/-- Block PKL, part 0. -/
def rowsPKL0 : List RegRow := [
  ⟨PKL_CTRL, [], [fs PKL_CTRL_CMD .wo 0, fs PKL_CTRL_PANEL .rw 0, fs PKL_CTRL_FORCE .rw 0]⟩,
  ⟨PKL_STATUS, [], [fs PKL_STATUS_BUSY .ro 0, fs PKL_STATUS_STAGED .ro 0, fs PKL_STATUS_STAGED_KIND .ro 0, fs PKL_STATUS_STAGED_PANEL .ro 0, fs PKL_STATUS_ERR .w1c 0, fs PKL_STATUS_RESTART_LATE .w1c 0, fs PKL_STATUS_OPEN .ro 1, fs PKL_STATUS_REQ .ro 0]⟩,
  ⟨PKL_ERR, [], [fs PKL_ERR_CODE .ro 0, fs PKL_ERR_DETAIL .ro 0, fs PKL_ERR_SECTION .ro 0, fs PKL_ERR_REQ .ro 0]⟩,
  ⟨PKL_SRC_LO, [], [fs PKL_SRC_LO_ADDR_LO .rw 0]⟩,
  ⟨PKL_SRC_HI, [], [fs PKL_SRC_HI_ADDR_HI .rw 0]⟩,
  ⟨PKL_LEN, [], [fs PKL_LEN_LEN .rw 0]⟩,
  ⟨PKL_STOP_TICK, [], [fs PKL_STOP_TICK_TICK .rw 0]⟩,
  ⟨PKL_RESTART_TICK, [], [fs PKL_RESTART_TICK_TICK .rw 0]⟩,
  ⟨PKL_ACTIVE_ID, [], [fs PKL_ACTIVE_ID_ID .ro 0]⟩,
  ⟨PKL_PANEL_DEF, [], [fs PKL_PANEL_DEF_DEF .ro 0]⟩,
  ⟨PKL_PANEL_RUN, [], [fs PKL_PANEL_RUN_RUN .ro 0]⟩,
  ⟨PKL_PANEL_ID, [], [fs PKL_PANEL_ID_ID .ro 0]⟩]

/-- Block PKL, part 1. -/
def rowsPKL1 : List RegRow := [
  ⟨PKL_PANEL_SEL, [], [fs PKL_PANEL_SEL_PANEL .rw 0]⟩,
  ⟨PKL_KEY_STATUS, [], [fs PKL_KEY_STATUS_PROG .ro 0, fs PKL_KEY_STATUS_REVOKED .ro 0, fs PKL_KEY_STATUS_MIN_SEC_VER .ro 0]⟩,
  ⟨PKL_MIG_CTRL, [], [fs PKL_MIG_CTRL_GO .wo 0, fs PKL_MIG_CTRL_CARRIER .rw 0, fs PKL_MIG_CTRL_DEST .rw 0]⟩,
  ⟨PKL_MIG_TICK, [], [fs PKL_MIG_TICK_E .rw 0]⟩,
  ⟨PKL_MIG_STATUS, [], [fs PKL_MIG_STATUS_STATE .ro 0, fs PKL_MIG_STATUS_RESULT .ro 0, fs PKL_MIG_STATUS_DEFERRED .ro 0]⟩,
  ⟨(PKL_CARRIER_MAP 0), [(64, 0x4)], [fp (PKL_CARRIER_MAP_PANEL 0) .ro 0, fp (PKL_CARRIER_MAP_VALID 0) .ro 0]⟩]

/-- Every register of block PKL. -/
def rowsPKL : List RegRow := rowsPKL0 ++ rowsPKL1

/-- Block ELP, part 0. -/
def rowsELP0 : List RegRow := [
  ⟨ELP_CTRL, [], [fs ELP_CTRL_EV_SHED_ALL .rw 0, fs ELP_CTRL_AVS_EN .rw 1, fs ELP_CTRL_THERM_SOFT .rw 0x64, fs ELP_CTRL_THERM_HYST .rw 3, fs ELP_CTRL_MIG_ECLASS .rw 8]⟩,
  ⟨ELP_ENVELOPE, [], [fs ELP_ENVELOPE_ENV .rw 0x104]⟩,
  ⟨ELP_BUDGET, [], [fs ELP_BUDGET_D_UJ .ro 0, fs ELP_BUDGET_LIMIT .ro 0, fs ELP_BUDGET_LEVEL .ro 0, fs ELP_BUDGET_TSTATE .ro 0, fs ELP_BUDGET_MAND_OVER .ro 0]⟩,
  ⟨ELP_TICK_E, [], [fs ELP_TICK_E_E .ro 0, fs ELP_TICK_E_G .ro 0]⟩,
  ⟨ELP_MFORE, [], [fs ELP_MFORE_MHAT .ro 0, fs ELP_MFORE_FLOOR .ro 0]⟩,
  ⟨ELP_EV_CAUSE, [], [fs ELP_EV_CAUSE_SOFT_ON .w1c 0, fs ELP_EV_CAUSE_SOFT_OFF .w1c 0, fs ELP_EV_CAUSE_STRETCH_ON .w1c 0, fs ELP_EV_CAUSE_STRETCH_OFF .w1c 0, fs ELP_EV_CAUSE_SHED_ON .w1c 0, fs ELP_EV_CAUSE_SHED_OFF .w1c 0, fs ELP_EV_CAUSE_MAND_OVER .w1c 0, fs ELP_EV_CAUSE_WEAR_OUT .w1c 0, fs ELP_EV_CAUSE_WEAR_OK .w1c 0, fs ELP_EV_CAUSE_PMB_WARN .w1c 0, fs ELP_EV_CAUSE_PMB_FAULT .w1c 0, fs ELP_EV_CAUSE_PMB_NACK .w1c 0, fs ELP_EV_CAUSE_WAKE_FAIL .w1c 0, fs ELP_EV_CAUSE_AVS_LIMIT .w1c 0]⟩,
  ⟨ELP_TRIP, [], [fs ELP_TRIP_TRIPPED .rws 0]⟩,
  ⟨(ELP_KIND 0), [(5, 0x4)], [fs (ELP_KIND_GRANTED 0) .ro 0, fs (ELP_KIND_REFUSED 0) .ro 0]⟩,
  ⟨(ELP_SHED_STAGE 0), [(8, 0x4)], [fp (ELP_SHED_STAGE_STAGE 0) .ro 0]⟩,
  ⟨(ELP_TEMP 0), [(16, 0x4)], [fs (ELP_TEMP_TEMP 0) .ro 0]⟩,
  ⟨ELP_TEMP_MAX, [], [fs ELP_TEMP_MAX_TEMP .ro 0, fs ELP_TEMP_MAX_SENSOR .ro 0]⟩,
  ⟨ELP_WEAR_OPS, [], [fs ELP_WEAR_OPS_SEC .rws 0]⟩]

/-- Block ELP, part 1. -/
def rowsELP1 : List RegRow := [
  ⟨ELP_WEAR_ABOVE, [], [fs ELP_WEAR_ABOVE_T10MS .rws 0]⟩,
  ⟨ELP_WEAR_BAL, [], [fs ELP_WEAR_BAL_SEC .ro 0x1c20]⟩,
  ⟨ELP_AVS, [], [fs ELP_AVS_VSET .ro 0xa, fs ELP_AVS_MARGIN .ro 0]⟩,
  ⟨ELP_AGE_SEL, [], [fs ELP_AGE_SEL_OSC .rw 0]⟩,
  ⟨ELP_AGE_DATA, [], [fs ELP_AGE_DATA_COUNT .ro 0]⟩,
  ⟨(ELP_PMB_STATUS 0), [(8, 0x10)], [fs (ELP_PMB_STATUS_STATUS_WORD 0) .ro 0, fs (ELP_PMB_STATUS_PRESENT 0) .ro 0]⟩,
  ⟨(ELP_PMB_V 0), [(8, 0x10)], [fs (ELP_PMB_V_MV 0) .ro 0]⟩,
  ⟨(ELP_PMB_I 0), [(8, 0x10)], [fs (ELP_PMB_I_DA 0) .ro 0]⟩,
  ⟨ELP_DOM_HOLD_LO, [], [fs ELP_DOM_HOLD_LO_HOLD .rw 0]⟩,
  ⟨ELP_DOM_HOLD_HI, [], [fs ELP_DOM_HOLD_HI_HOLD .rw 0]⟩,
  ⟨(ELP_DOM_STATE 0), [(66, 0x10)], [fp (ELP_DOM_STATE_STATE 0) .ro 0, fp (ELP_DOM_STATE_INIT 0) .ro 0, fp (ELP_DOM_STATE_POLICY 0) .ro 0]⟩,
  ⟨(ELP_DOM_E 0), [(66, 0x10)], [fs (ELP_DOM_E_NJ 0) .ro 0]⟩]

/-- Block ELP, part 2. -/
def rowsELP2 : List RegRow := [
  ⟨(ELP_DOM_CNT 0), [(66, 0x10)], [fs (ELP_DOM_CNT_ENTRIES 0) .rc 0]⟩,
  ⟨(ELP_WAKE 0 0), [(64, 0x10), (4, 0x4)], [fs (ELP_WAKE_EV 0 0) .rw 0, fs (ELP_WAKE_FAST 0 0) .rw 0, fs (ELP_WAKE_EN 0 0) .rw 0]⟩]

/-- Every register of block ELP. -/
def rowsELP : List RegRow := rowsELP0 ++ rowsELP1 ++ rowsELP2

/-- Block FLT, part 0. -/
def rowsFLT0 : List RegRow := [
  ⟨FLT_CTRL, [], [fs FLT_CTRL_ESC_EN .rw 1]⟩,
  ⟨FLT_STATUS, [], [fs FLT_STATUS_COUNT .ro 0, fs FLT_STATUS_FULL .ro 0, fs FLT_STATUS_POP_MISS .w1c 0]⟩,
  ⟨FLT_LOST, [], [fs FLT_LOST_COUNT .rc 0]⟩,
  ⟨FLT_EV_CAUSE, [], [fs FLT_EV_CAUSE_PROMOTED .w1c 0, fs FLT_EV_CAUSE_REPLICA_LOST .w1c 0, fs FLT_EV_CAUSE_WATCHDOG .w1c 0, fs FLT_EV_CAUSE_SWAP_DONE .w1c 0, fs FLT_EV_CAUSE_ROT_DONE .w1c 0, fs FLT_EV_CAUSE_RECURRENCE .w1c 0, fs FLT_EV_CAUSE_OVERFLOW .w1c 0, fs FLT_EV_CAUSE_FENCE .w1c 0, fs FLT_EV_CAUSE_SPARE .w1c 0, fs FLT_EV_CAUSE_TAKEOVER .w1c 0, fs FLT_EV_CAUSE_DEADLINE .w1c 0, fs FLT_EV_CAUSE_ACCESS .w1c 0, fs FLT_EV_CAUSE_BUS .w1c 0, fs FLT_EV_CAUSE_FALLOW_FAIL .w1c 0, fs FLT_EV_CAUSE_ROT_DEFER .w1c 0]⟩,
  ⟨(FLT_HEAD 0), [(8, 0x4)], [fs (FLT_HEAD_WORD 0) .ro 0]⟩,
  ⟨FLT_POP, [], [fs FLT_POP_SEQ .wo 0]⟩,
  ⟨FLT_UNFENCE, [], [fs FLT_UNFENCE_KIND .wo 0, fs FLT_UNFENCE_INDEX .wo 0]⟩,
  ⟨FLT_PEEK_IDX, [], [fs FLT_PEEK_IDX_IDX .rw 0]⟩,
  ⟨(FLT_PEEK 0), [(8, 0x4)], [fs (FLT_PEEK_WORD 0) .ro 0]⟩,
  ⟨FLT_SPARED, [], [fs FLT_SPARED_CL .ro 0]⟩,
  ⟨(FLT_LCMAP 0), [], [fs (FLT_LCMAP_PHYS 0) .ro 0]⟩,
  ⟨(FLT_LCMAP 1), [], [fs (FLT_LCMAP_PHYS 1) .ro 1]⟩]

/-- Block FLT, part 1. -/
def rowsFLT1 : List RegRow := [
  ⟨(FLT_LCMAP 2), [], [fs (FLT_LCMAP_PHYS 2) .ro 2]⟩,
  ⟨(FLT_LCMAP 3), [], [fs (FLT_LCMAP_PHYS 3) .ro 3]⟩,
  ⟨(FLT_LCMAP 4), [], [fs (FLT_LCMAP_PHYS 4) .ro 4]⟩,
  ⟨(FLT_LCMAP 5), [], [fs (FLT_LCMAP_PHYS 5) .ro 5]⟩,
  ⟨(FLT_LCMAP 6), [], [fs (FLT_LCMAP_PHYS 6) .ro 6]⟩,
  ⟨(FLT_LCMAP 7), [], [fs (FLT_LCMAP_PHYS 7) .ro 7]⟩,
  ⟨(FLT_LCMAP 8), [], [fs (FLT_LCMAP_PHYS 8) .ro 8]⟩,
  ⟨(FLT_LCMAP 9), [], [fs (FLT_LCMAP_PHYS 9) .ro 9]⟩,
  ⟨(FLT_LCMAP 10), [], [fs (FLT_LCMAP_PHYS 10) .ro 10]⟩,
  ⟨(FLT_LCMAP 11), [], [fs (FLT_LCMAP_PHYS 11) .ro 11]⟩,
  ⟨(FLT_LCMAP 12), [], [fs (FLT_LCMAP_PHYS 12) .ro 12]⟩,
  ⟨(FLT_LCMAP 13), [], [fs (FLT_LCMAP_PHYS 13) .ro 13]⟩]

/-- Block FLT, part 2. -/
def rowsFLT2 : List RegRow := [
  ⟨(FLT_LCMAP 14), [], [fs (FLT_LCMAP_PHYS 14) .ro 14]⟩,
  ⟨(FLT_LCMAP 15), [], [fs (FLT_LCMAP_PHYS 15) .ro 15]⟩,
  ⟨(FLT_LCMAP 16), [], [fs (FLT_LCMAP_PHYS 16) .ro 16]⟩,
  ⟨(FLT_LCMAP 17), [], [fs (FLT_LCMAP_PHYS 17) .ro 17]⟩,
  ⟨(FLT_LCMAP 18), [], [fs (FLT_LCMAP_PHYS 18) .ro 18]⟩,
  ⟨(FLT_LCMAP 19), [], [fs (FLT_LCMAP_PHYS 19) .ro 19]⟩,
  ⟨(FLT_FALLOW 0), [], [fs (FLT_FALLOW_STATE 0) .ro 0, fs (FLT_FALLOW_PHYS 0) .ro 4, fs (FLT_FALLOW_PASSES 0) .ro 0]⟩,
  ⟨(FLT_FALLOW 1), [], [fs (FLT_FALLOW_STATE 1) .ro 0, fs (FLT_FALLOW_PHYS 1) .ro 9, fs (FLT_FALLOW_PASSES 1) .ro 0]⟩,
  ⟨(FLT_FALLOW 2), [], [fs (FLT_FALLOW_STATE 2) .ro 0, fs (FLT_FALLOW_PHYS 2) .ro 14, fs (FLT_FALLOW_PASSES 2) .ro 0]⟩,
  ⟨(FLT_FALLOW 3), [], [fs (FLT_FALLOW_STATE 3) .ro 0, fs (FLT_FALLOW_PHYS 3) .ro 19, fs (FLT_FALLOW_PASSES 3) .ro 0]⟩,
  ⟨FLT_FALLOW_CTRL, [], [fs FLT_FALLOW_CTRL_PERIOD_S .rw 0x3c]⟩,
  ⟨FLT_ROT, [], [fs FLT_ROT_PERIOD_H .rw 0x18, fs FLT_ROT_EARLY_S .rw 0x3c]⟩]

/-- Block FLT, part 3. -/
def rowsFLT3 : List RegRow := [
  ⟨FLT_ROT_STATUS, [], [fs FLT_ROT_STATUS_STATE .ro 0, fs FLT_ROT_STATUS_QUAD .ro 0, fs FLT_ROT_STATUS_DEFERRED .ro 0]⟩,
  ⟨FLT_SWAP_STATUS, [], [fs FLT_SWAP_STATUS_OLD .ro 0, fs FLT_SWAP_STATUS_NEW .ro 0, fs FLT_SWAP_STATUS_LC .ro 0, fs FLT_SWAP_STATUS_COPY_SKIPPED .ro 0, fs FLT_SWAP_STATUS_COPY_ERR .ro 0]⟩,
  ⟨(FLT_ROLE_LO 0), [(20, 0x10)], [fs (FLT_ROLE_LO_ADDR 0) .rw 0]⟩,
  ⟨(FLT_ROLE_HI 0), [(20, 0x10)], [fs (FLT_ROLE_HI_ADDR 0) .rw 0, fs (FLT_ROLE_HI_COUNT 0) .rw 0]⟩,
  ⟨(FLT_REPLAY_LO 0), [(4, 0x10)], [fs (FLT_REPLAY_LO_ADDR 0) .rw 0]⟩,
  ⟨(FLT_REPLAY_HI 0), [(4, 0x10)], [fs (FLT_REPLAY_HI_ADDR 0) .rw 0, fs (FLT_REPLAY_HI_COUNT 0) .rw 0]⟩]

/-- Every register of block FLT. -/
def rowsFLT : List RegRow := rowsFLT0 ++ rowsFLT1 ++ rowsFLT2 ++ rowsFLT3

/-- Block LWK, part 0. -/
def rowsLWK0 : List RegRow := [
  ⟨LWK_CTRL, [], [fs LWK_CTRL_TIMEOUT_US .rw 0x32, fs LWK_CTRL_HOLD_LIMIT_US .rw 0xa]⟩,
  ⟨LWK_EPOCH, [], [fs LWK_EPOCH_CUR .ro 0, fs LWK_EPOCH_DRAINED .ro 1, fs LWK_EPOCH_DEFERRED .ro 0, fs LWK_EPOCH_FLIPS .ro 0]⟩,
  ⟨LWK_OLD_INFLIGHT, [], [fs LWK_OLD_INFLIGHT_COUNT .ro 0]⟩,
  ⟨LWK_ERR, [], [fs LWK_ERR_HDR_CRC .w1c 0, fs LWK_ERR_LINK_UE .w1c 0, fs LWK_ERR_TIMEOUT .w1c 0, fs LWK_ERR_INJ_DECODE .w1c 0, fs LWK_ERR_HOLD_OVF .w1c 0, fs LWK_ERR_HOLD_EXPIRED .w1c 0, fs LWK_ERR_PROV_REFUSED .w1c 0, fs LWK_ERR_XLINK_FAIL .w1c 0]⟩,
  ⟨(LWK_ERR_HDR 0), [(4, 0x4)], [fs (LWK_ERR_HDR_HDR 0) .ro 0]⟩,
  ⟨LWK_ECC_CE, [], [fs LWK_ECC_CE_COUNT .rc 0]⟩,
  ⟨LWK_XLINK, [], [fs LWK_XLINK_FAILED .ro 0]⟩,
  ⟨LWK_XLINK_UE_LIMIT, [], [fs LWK_XLINK_UE_LIMIT_LIMIT .rw 4]⟩,
  ⟨LWK_ARB, [], [fs LWK_ARB_W_WORK .rw 4, fs LWK_ARB_W_HOST .rw 2, fs LWK_ARB_W_MGMT .rw 1, fs LWK_ARB_W_GLEAN .rw 1, fs LWK_ARB_AGE_LIMIT .rw 0x40]⟩,
  ⟨LWK_STAT_CTRL, [], [fs LWK_STAT_CTRL_WIN .rw 8, fs LWK_STAT_CTRL_HIST_SHIFT .rw 3, fs LWK_STAT_CTRL_SEQ .ro 0]⟩,
  ⟨LWK_STAT_IDX, [], [fs LWK_STAT_IDX_NODE .rw 0]⟩,
  ⟨LWK_STAT_BYTES_LO, [], [fs LWK_STAT_BYTES_LO_BYTES .ro 0]⟩]

/-- Block LWK, part 1. -/
def rowsLWK1 : List RegRow := [
  ⟨LWK_STAT_BYTES_HI, [], [fs LWK_STAT_BYTES_HI_BYTES .ro 0]⟩,
  ⟨LWK_STAT_PKTS, [], [fs LWK_STAT_PKTS_PKTS .ro 0]⟩,
  ⟨LWK_STAT_NP, [], [fs LWK_STAT_NP_NP .ro 0]⟩,
  ⟨LWK_STAT_TGT_BYTES_LO, [], [fs LWK_STAT_TGT_BYTES_LO_BYTES .ro 0]⟩,
  ⟨LWK_STAT_TGT_BYTES_HI, [], [fs LWK_STAT_TGT_BYTES_HI_BYTES .ro 0]⟩,
  ⟨LWK_STAT_TGT_PKTS, [], [fs LWK_STAT_TGT_PKTS_PKTS .ro 0]⟩,
  ⟨(LWK_STAT_HIST 0), [(16, 0x4)], [fs (LWK_STAT_HIST_COUNT 0) .ro 0]⟩,
  ⟨LWK_TRC_CTRL, [], [fs LWK_TRC_CTRL_ARM .rw 0, fs LWK_TRC_CTRL_MODE .rw 0]⟩,
  ⟨LWK_TRC_STATUS, [], [fs LWK_TRC_STATUS_WRPTR .ro 0, fs LWK_TRC_STATUS_FULL .ro 0, fs LWK_TRC_STATUS_WRAPPED .w1c 0]⟩,
  ⟨(LWK_PRB_CFG 0), [(24, 0x40)], [fs (LWK_PRB_CFG_EN 0) .rw 0, fs (LWK_PRB_CFG_TRACE 0) .rw 0, fs (LWK_PRB_CFG_LOCATION 0) .rw 0, fs (LWK_PRB_CFG_INPUT 0) .rw 0]⟩,
  ⟨(LWK_PRB_MATCH 0 0), [(24, 0x40), (4, 0x4)], [fs (LWK_PRB_MATCH_MATCH 0 0) .rw 0]⟩,
  ⟨(LWK_PRB_MASK 0 0), [(24, 0x40), (4, 0x4)], [fs (LWK_PRB_MASK_MASK 0 0) .rw 0]⟩]

/-- Block LWK, part 2. -/
def rowsLWK2 : List RegRow := [
  ⟨(LWK_PRB_COUNT 0), [(24, 0x40)], [fs (LWK_PRB_COUNT_COUNT 0) .rc 0]⟩,
  ⟨(LWK_TRC_BUF 0), [(16384, 0x4)], [fs (LWK_TRC_BUF_DATA 0) .ro 0]⟩,
  ⟨(LWK_RT 0 0 0), [(96, 0x100), (2, 0x80), (32, 0x4)], [fp (LWK_RT_ENTRY 0 0 0) .ro 0]⟩,
  ⟨DSP_CTRL, [], [fs DSP_CTRL_EV_EXPIRY .rw 0, fs DSP_CTRL_EV_URGENT .rw 0, fs DSP_CTRL_HOLDOFF_WARN_US .rw 0x14]⟩,
  ⟨(DSP_EV_CAUSE 0), [(2, 0x4)], [fs (DSP_EV_CAUSE_OVERRUN 0) .w1c 0, fs (DSP_EV_CAUSE_REFUSED 0) .w1c 0, fs (DSP_EV_CAUSE_FULL 0) .w1c 0, fs (DSP_EV_CAUSE_EXPIRED 0) .w1c 0, fs (DSP_EV_CAUSE_RING_LOST 0) .w1c 0, fs (DSP_EV_CAUSE_URGENT 0) .w1c 0, fs (DSP_EV_CAUSE_DEFERRED 0) .w1c 0, fs (DSP_EV_CAUSE_STALE 0) .w1c 0, fs (DSP_EV_CAUSE_HOLDOFF 0) .w1c 0, fs (DSP_EV_CAUSE_REDISPATCH 0) .w1c 0, fs (DSP_EV_CAUSE_TOP_RIPE 0) .w1c 0]⟩,
  ⟨DSP_ERR, [], [fs DSP_ERR_CODE .ro 0, fs DSP_ERR_PANEL .ro 0, fs DSP_ERR_REQ .ro 0]⟩,
  ⟨DSP_DEP_DEC, [], [fs DSP_DEP_DEC_HANDLE .wo 0]⟩,
  ⟨DSP_CANCEL, [], [fs DSP_CANCEL_HANDLE .wo 0]⟩,
  ⟨DSP_HSUB_LO, [], [fs DSP_HSUB_LO_ADDR .rw 0]⟩,
  ⟨DSP_HSUB_HI, [], [fs DSP_HSUB_HI_ADDR .rw 0, fs DSP_HSUB_HI_PANEL .rw 0]⟩,
  ⟨DSP_HSUB_GO, [], [fs DSP_HSUB_GO_RESULT .ro 0]⟩,
  ⟨(DSP_CNT_DISPATCH 0), [(2, 0x40)], [fs (DSP_CNT_DISPATCH_COUNT 0) .rc 0]⟩]

/-- Block LWK, part 3. -/
def rowsLWK3 : List RegRow := [
  ⟨(DSP_CNT_PREEMPT 0), [(2, 0x40)], [fs (DSP_CNT_PREEMPT_COUNT 0) .rc 0]⟩,
  ⟨(DSP_CNT_RIPEN 0), [(2, 0x40)], [fs (DSP_CNT_RIPEN_COUNT 0) .rc 0]⟩,
  ⟨(DSP_CNT_URGENT 0), [(2, 0x40)], [fs (DSP_CNT_URGENT_COUNT 0) .rc 0]⟩,
  ⟨(DSP_CNT_EXPIRED 0), [(2, 0x40)], [fs (DSP_CNT_EXPIRED_COUNT 0) .rc 0]⟩,
  ⟨(DSP_CNT_DEFER 0), [(2, 0x40)], [fs (DSP_CNT_DEFER_COUNT 0) .rc 0]⟩,
  ⟨(DSP_CNT_STALE 0), [(2, 0x40)], [fs (DSP_CNT_STALE_COUNT 0) .rc 0]⟩,
  ⟨(DSP_CNT_REDISPATCH 0), [(2, 0x40)], [fs (DSP_CNT_REDISPATCH_COUNT 0) .rc 0]⟩,
  ⟨(DSP_CNT_FLOOR 0), [(2, 0x40)], [fs (DSP_CNT_FLOOR_COUNT 0) .rc 0]⟩,
  ⟨(DSP_CNT_HOLDOFF_MAX 0), [(2, 0x40)], [fs (DSP_CNT_HOLDOFF_MAX_NS 0) .rc 0]⟩,
  ⟨(DSP_CNT_RING_LOST 0), [(2, 0x40)], [fs (DSP_CNT_RING_LOST_COUNT 0) .rc 0]⟩,
  ⟨(DSP_PANEL_STATUS 0), [(20, 0x100)], [fs (DSP_PANEL_STATUS_ITEMS 0) .ro 0, fs (DSP_PANEL_STATUS_READY 0) .ro 0, fs (DSP_PANEL_STATUS_TOP 0) .ro 0]⟩,
  ⟨(DSP_FLOOR 0), [(20, 0x100)], [fs (DSP_FLOOR_CREDIT_NS 0) .ro 0]⟩]

/-- Block LWK, part 4. -/
def rowsLWK4 : List RegRow := [
  ⟨(DSP_RIPEN 0 0), [(20, 0x100), (7, 0x4)], [fp (DSP_RIPEN_LVL_LO 0 0) .ro 0, fp (DSP_RIPEN_LVL_HI 0 0) .ro 0]⟩,
  ⟨(DSP_NEST 0), [(20, 0x100)], [fp (DSP_NEST_NEST 0) .ro 0]⟩,
  ⟨(DSP_RING_BASE_LO 0), [(20, 0x100)], [fs (DSP_RING_BASE_LO_ADDR 0) .rw 0]⟩,
  ⟨(DSP_RING_BASE_HI 0), [(20, 0x100)], [fs (DSP_RING_BASE_HI_ADDR 0) .rw 0]⟩,
  ⟨(DSP_RING_SIZE 0), [(20, 0x100)], [fs (DSP_RING_SIZE_SIZE 0) .rw 0x400]⟩,
  ⟨(DSP_RING_WR 0), [(20, 0x100)], [fs (DSP_RING_WR_WR 0) .ro 0]⟩,
  ⟨(DSP_RING_RD 0), [(20, 0x100)], [fs (DSP_RING_RD_RD 0) .rw 0]⟩,
  ⟨(DSP_OLDEST_WAIT 0), [(20, 0x100)], [fs (DSP_OLDEST_WAIT_US 0) .ro 0]⟩]

/-- Every register of block LWK. -/
def rowsLWK : List RegRow := rowsLWK0 ++ rowsLWK1 ++ rowsLWK2 ++ rowsLWK3 ++ rowsLWK4

/-- Block RLN, part 0. -/
def rowsRLN0 : List RegRow := [
  ⟨RLN_CTRL, [], [fp RLN_CTRL_REFR_FREQ .ro 0, fs RLN_CTRL_RETRAIN_BAD_LIMIT .rw 0x40, fs RLN_CTRL_RETRAIN_TICKS .rw 8, fs RLN_CTRL_RECOVER_S .rw 1]⟩,
  ⟨RLN_STATUS, [], [fs RLN_STATUS_PLL_LOCK .ro 0]⟩,
  ⟨(RLN_QUAD_CFG 0), [(16, 0x10)], [fp (RLN_QUAD_CFG_MODE 0) .ro 0, fp (RLN_QUAD_CFG_REFSEL 0) .ro 0, fp (RLN_QUAD_CFG_RSFEC 0) .ro 0, fp (RLN_QUAD_CFG_LANE_EN 0) .ro 0, fp (RLN_QUAD_CFG_TX_INV 0) .ro 0, fp (RLN_QUAD_CFG_RX_INV 0) .ro 0]⟩,
  ⟨(RLN_QUAD_CFG 16), [(2, 0x10)], [fs (RLN_QUAD_CFG_MODE 16) .ro 1, fs (RLN_QUAD_CFG_REFSEL 16) .ro 1, fs (RLN_QUAD_CFG_RSFEC 16) .ro 0, fs (RLN_QUAD_CFG_LANE_EN 16) .ro 0, fs (RLN_QUAD_CFG_TX_INV 16) .rw 0, fs (RLN_QUAD_CFG_RX_INV 16) .rw 0]⟩,
  ⟨(RLN_QUAD_CFG 18), [(2, 0x10)], [fs (RLN_QUAD_CFG_MODE 18) .ro 0, fs (RLN_QUAD_CFG_REFSEL 18) .ro 1, fs (RLN_QUAD_CFG_RSFEC 18) .ro 0, fs (RLN_QUAD_CFG_LANE_EN 18) .ro 0, fs (RLN_QUAD_CFG_TX_INV 18) .rw 0, fs (RLN_QUAD_CFG_RX_INV 18) .rw 0]⟩,
  ⟨(RLN_QUAD_TXEQ 0), [(16, 0x10)], [fp (RLN_QUAD_TXEQ_TX_PRE0 0) .ro 0, fp (RLN_QUAD_TXEQ_TX_POST0 0) .ro 0, fp (RLN_QUAD_TXEQ_TX_PRE1 0) .ro 0, fp (RLN_QUAD_TXEQ_TX_POST1 0) .ro 0, fp (RLN_QUAD_TXEQ_TX_PRE2 0) .ro 0, fp (RLN_QUAD_TXEQ_TX_POST2 0) .ro 0, fp (RLN_QUAD_TXEQ_TX_PRE3 0) .ro 0, fp (RLN_QUAD_TXEQ_TX_POST3 0) .ro 0]⟩,
  ⟨(RLN_QUAD_TXEQ 16), [(2, 0x10)], [fs (RLN_QUAD_TXEQ_TX_PRE0 16) .rw 0, fs (RLN_QUAD_TXEQ_TX_POST0 16) .rw 0, fs (RLN_QUAD_TXEQ_TX_PRE1 16) .rw 0, fs (RLN_QUAD_TXEQ_TX_POST1 16) .rw 0, fs (RLN_QUAD_TXEQ_TX_PRE2 16) .rw 0, fs (RLN_QUAD_TXEQ_TX_POST2 16) .rw 0, fs (RLN_QUAD_TXEQ_TX_PRE3 16) .rw 0, fs (RLN_QUAD_TXEQ_TX_POST3 16) .rw 0]⟩,
  ⟨(RLN_QUAD_TXEQ 18), [(2, 0x10)], [fs (RLN_QUAD_TXEQ_TX_PRE0 18) .rw 0, fs (RLN_QUAD_TXEQ_TX_POST0 18) .rw 0, fs (RLN_QUAD_TXEQ_TX_PRE1 18) .rw 0, fs (RLN_QUAD_TXEQ_TX_POST1 18) .rw 0, fs (RLN_QUAD_TXEQ_TX_PRE2 18) .rw 0, fs (RLN_QUAD_TXEQ_TX_POST2 18) .rw 0, fs (RLN_QUAD_TXEQ_TX_PRE3 18) .rw 0, fs (RLN_QUAD_TXEQ_TX_POST3 18) .rw 0]⟩,
  ⟨(RLN_QUAD_SWING 0), [(16, 0x10)], [fp (RLN_QUAD_SWING_SWING 0) .ro 0]⟩,
  ⟨(RLN_QUAD_SWING 16), [(2, 0x10)], [fs (RLN_QUAD_SWING_SWING 16) .rw 0]⟩,
  ⟨(RLN_QUAD_SWING 18), [(2, 0x10)], [fs (RLN_QUAD_SWING_SWING 18) .rw 0]⟩,
  ⟨(RLN_LANE_STATUS 0), [(80, 0x40)], [fs (RLN_LANE_STATUS_STATE 0) .ro 0, fs (RLN_LANE_STATUS_BLOCK_LOCK 0) .ro 0, fs (RLN_LANE_STATUS_LOS 0) .ro 0, fs (RLN_LANE_STATUS_ADAPT_LIMIT 0) .ro 0, fs (RLN_LANE_STATUS_EYE_MV 0) .ro 0]⟩]

/-- Block RLN, part 1. -/
def rowsRLN1 : List RegRow := [
  ⟨(RLN_LANE_EV_CAUSE 0), [(80, 0x40)], [fs (RLN_LANE_EV_CAUSE_LOCK_LOST 0) .w1c 0, fs (RLN_LANE_EV_CAUSE_LOCK_GAINED 0) .w1c 0, fs (RLN_LANE_EV_CAUSE_RETRAIN 0) .w1c 0, fs (RLN_LANE_EV_CAUSE_FAILED 0) .w1c 0, fs (RLN_LANE_EV_CAUSE_RECOVERED 0) .w1c 0, fs (RLN_LANE_EV_CAUSE_LINK_DOWN 0) .w1c 0, fs (RLN_LANE_EV_CAUSE_LOS 0) .w1c 0, fs (RLN_LANE_EV_CAUSE_FIFO_OVF 0) .w1c 0, fs (RLN_LANE_EV_CAUSE_EB_ERR 0) .w1c 0]⟩,
  ⟨(RLN_LANE_CNT_BADHDR 0), [(80, 0x40)], [fs (RLN_LANE_CNT_BADHDR_COUNT 0) .rc 0]⟩,
  ⟨(RLN_LANE_CNT_CODEERR 0), [(80, 0x40)], [fs (RLN_LANE_CNT_CODEERR_COUNT 0) .rc 0]⟩,
  ⟨(RLN_LANE_CNT_LOCKLOSS 0), [(80, 0x40)], [fs (RLN_LANE_CNT_LOCKLOSS_COUNT 0) .rc 0]⟩,
  ⟨(RLN_LANE_CNT_RETRAIN 0), [(80, 0x40)], [fs (RLN_LANE_CNT_RETRAIN_COUNT 0) .rc 0]⟩,
  ⟨(RLN_LANE_CNT_FILLER 0), [(80, 0x40)], [fs (RLN_LANE_CNT_FILLER_COUNT 0) .rc 0]⟩,
  ⟨(RLN_LANE_TEST 0), [(80, 0x40)], [fs (RLN_LANE_TEST_GEN 0) .rw 0, fs (RLN_LANE_TEST_CHECK 0) .rw 0, fs (RLN_LANE_TEST_CHK_LOCK 0) .ro 0]⟩,
  ⟨(RLN_LANE_PRBS_ERR 0), [(80, 0x40)], [fs (RLN_LANE_PRBS_ERR_COUNT 0) .rc 0]⟩]

/-- Every register of block RLN. -/
def rowsRLN : List RegRow := rowsRLN0 ++ rowsRLN1

/-- Block FIL, part 0. -/
def rowsFIL0 : List RegRow := [
  ⟨FIL_CTRL, [], [fs FIL_CTRL_ERRBLK_AIS .rw 1, fs FIL_CTRL_RDI_TX .rw 1, fs FIL_CTRL_TA4_MIN .rw 0, fs FIL_CTRL_TA4_MAX .rw 0x64]⟩,
  ⟨FIL_ETH_TX, [], [fs FIL_ETH_TX_UP_ADV_US .rw 0x50, fs FIL_ETH_TX_CP_ADV_US .rw 0x32]⟩,
  ⟨(FIL_LANE_STATUS 0), [(64, 0x100)], [fs (FIL_LANE_STATUS_BF_STATE 0) .ro 0, fs (FIL_LANE_STATUS_MF_SYNC 0) .ro 0, fs (FIL_LANE_STATUS_ALIGNED 0) .ro 0, fs (FIL_LANE_STATUS_AIS 0) .ro 0, fs (FIL_LANE_STATUS_RDI_RX 0) .ro 0, fs (FIL_LANE_STATUS_CANDS 0) .ro 0, fs (FIL_LANE_STATUS_SFN 0) .ro 0, fs (FIL_LANE_STATUS_MFN 0) .ro 0]⟩,
  ⟨(FIL_LANE_EV_CAUSE 0), [(64, 0x100)], [fs (FIL_LANE_EV_CAUSE_BF_LOSS 0) .w1c 0, fs (FIL_LANE_EV_CAUSE_BF_GAIN 0) .w1c 0, fs (FIL_LANE_EV_CAUSE_MF_LOSS 0) .w1c 0, fs (FIL_LANE_EV_CAUSE_MF_GAIN 0) .w1c 0, fs (FIL_LANE_EV_CAUSE_FALSE_ALIGN 0) .w1c 0, fs (FIL_LANE_EV_CAUSE_RDI_ON 0) .w1c 0, fs (FIL_LANE_EV_CAUSE_RDI_OFF 0) .w1c 0, fs (FIL_LANE_EV_CAUSE_LOP 0) .w1c 0, fs (FIL_LANE_EV_CAUSE_PTR_JUMP 0) .w1c 0, fs (FIL_LANE_EV_CAUSE_ETH_LOST 0) .w1c 0, fs (FIL_LANE_EV_CAUSE_ETH_UNSUPP 0) .w1c 0]⟩,
  ⟨(FIL_LANE_CNT_AWERR 0), [(64, 0x100)], [fs (FIL_LANE_CNT_AWERR_COUNT 0) .rc 0]⟩,
  ⟨(FIL_LANE_CNT_OHERR 0), [(64, 0x100)], [fs (FIL_LANE_CNT_OHERR_COUNT 0) .rc 0]⟩,
  ⟨(FIL_LANE_CNT_ERRBLK 0), [(64, 0x100)], [fs (FIL_LANE_CNT_ERRBLK_COUNT 0) .rc 0]⟩,
  ⟨(FIL_LANE_CNT_JUST 0), [(64, 0x100)], [fs (FIL_LANE_CNT_JUST_INC 0) .rc 0, fs (FIL_LANE_CNT_JUST_DEC 0) .rc 0]⟩,
  ⟨(FIL_LANE_CNT_AISBF 0), [(64, 0x100)], [fs (FIL_LANE_CNT_AISBF_COUNT 0) .rc 0]⟩,
  ⟨(FIL_LANE_DELAY 0), [(64, 0x100)], [fs (FIL_LANE_DELAY_NS 0) .ro 0]⟩,
  ⟨(FIL_LANE_ETH_RX 0), [(64, 0x100)], [fs (FIL_LANE_ETH_RX_COUNT 0) .rc 0]⟩,
  ⟨(FIL_LANE_ETH_DROP 0), [(64, 0x100)], [fs (FIL_LANE_ETH_DROP_COUNT 0) .rc 0]⟩]

/-- Block FIL, part 1. -/
def rowsFIL1 : List RegRow := [
  ⟨(FIL_LANE_ETH_UNSUPP 0), [(64, 0x100)], [fs (FIL_LANE_ETH_UNSUPP_COUNT 0) .rc 0]⟩,
  ⟨(FIL_CTR_STATUS 0 0), [(64, 0x100), (32, 0x4)], [fs (FIL_CTR_STATUS_PTR 0 0) .ro 0, fs (FIL_CTR_STATUS_PSTATE 0 0) .ro 0, fp (FIL_CTR_STATUS_VALID 0 0) .ro 0, fp (FIL_CTR_STATUS_DIR 0 0) .ro 0]⟩,
  ⟨(FIL_GRP_STATUS 0), [(16, 0x40)], [fs (FIL_GRP_STATUS_STATE 0) .ro 0, fs (FIL_GRP_STATUS_USABLE 0) .ro 0, fs (FIL_GRP_STATUS_LOST 0) .ro 0, fs (FIL_GRP_STATUS_SKEW 0) .ro 0]⟩,
  ⟨(FIL_GRP_EV_CAUSE 0), [(16, 0x40)], [fs (FIL_GRP_EV_CAUSE_DEGRADED 0) .w1c 0, fs (FIL_GRP_EV_CAUSE_DOWN 0) .w1c 0, fs (FIL_GRP_EV_CAUSE_RESTORED 0) .w1c 0, fs (FIL_GRP_EV_CAUSE_SKEW 0) .w1c 0, fs (FIL_GRP_EV_CAUSE_MISWIRED 0) .w1c 0]⟩,
  ⟨(FIL_GRP_CNT_RECON 0), [(16, 0x40)], [fs (FIL_GRP_CNT_RECON_COUNT 0) .rc 0]⟩,
  ⟨(FIL_GRP_CNT_AISBF 0), [(16, 0x40)], [fs (FIL_GRP_CNT_AISBF_COUNT 0) .rc 0]⟩]

/-- Every register of block FIL. -/
def rowsFIL : List RegRow := rowsFIL0 ++ rowsFIL1

/-- Block NET, part 0. -/
def rowsNET0 : List RegRow := [
  ⟨NET_CTRL, [], [fs NET_CTRL_MODE .ro 0, fs NET_CTRL_PORT_EN .rw 0, fs NET_CTRL_PTP_PORTS .rw 0]⟩,
  ⟨(NET_PORT_STATUS 0), [(4, 0x40)], [fs (NET_PORT_STATUS_LINK 0) .ro 0, fs (NET_PORT_STATUS_HI_BER 0) .ro 0, fs (NET_PORT_STATUS_TXTS_COUNT 0) .ro 0]⟩,
  ⟨(NET_PORT_EV_CAUSE 0), [(4, 0x40)], [fs (NET_PORT_EV_CAUSE_LINK_DOWN 0) .w1c 0, fs (NET_PORT_EV_CAUSE_LINK_UP 0) .w1c 0, fs (NET_PORT_EV_CAUSE_RX_DROP 0) .w1c 0, fs (NET_PORT_EV_CAUSE_TX_DROP 0) .w1c 0, fs (NET_PORT_EV_CAUSE_TXTS_OVF 0) .w1c 0, fs (NET_PORT_EV_CAUSE_HI_BER 0) .w1c 0]⟩,
  ⟨(NET_RXQ 0), [(4, 0x40)], [fs (NET_RXQ_MAP 0) .rw 0]⟩,
  ⟨(NET_TXTS_TAG 0), [(4, 0x40)], [fs (NET_TXTS_TAG_TAG 0) .ro 0]⟩,
  ⟨(NET_TXTS_NS 0), [(4, 0x40)], [fs (NET_TXTS_NS_NS 0) .ro 0]⟩,
  ⟨(NET_TXTS_SEC_LO 0), [(4, 0x40)], [fs (NET_TXTS_SEC_LO_SEC 0) .ro 0]⟩,
  ⟨(NET_TXTS_SEC_HI 0), [(4, 0x40)], [fs (NET_TXTS_SEC_HI_SEC 0) .ro 0]⟩,
  ⟨(NET_CNT_RX 0), [(4, 0x40)], [fs (NET_CNT_RX_COUNT 0) .rc 0]⟩,
  ⟨(NET_CNT_TX 0), [(4, 0x40)], [fs (NET_CNT_TX_COUNT 0) .rc 0]⟩,
  ⟨(NET_CNT_RX_DROP 0), [(4, 0x40)], [fs (NET_CNT_RX_DROP_COUNT 0) .rc 0]⟩,
  ⟨(NET_CNT_TX_DROP 0), [(4, 0x40)], [fs (NET_CNT_TX_DROP_COUNT 0) .rc 0]⟩]

/-- Block NET, part 1. -/
def rowsNET1 : List RegRow := [
  ⟨(NET_CNT_FCS 0), [(4, 0x40)], [fs (NET_CNT_FCS_COUNT 0) .rc 0]⟩,
  ⟨(NET_TXQ_PORT 0), [(2, 0x20)], [fs (NET_TXQ_PORT_MAP 0) .rw 0]⟩,
  ⟨(NET_Q_EV_CAUSE 0), [(2, 0x20)], [fs (NET_Q_EV_CAUSE_TXQ_ERR 0) .w1c 0]⟩,
  ⟨(NET_QWIN 0 0), [(2, 0x10000), (16, 0x1000)], [fs (NET_QWIN_DATA 0 0) .rw 0]⟩]

/-- Every register of block NET. -/
def rowsNET : List RegRow := rowsNET0 ++ rowsNET1

/-- Block TWN, part 0. -/
def rowsTWN0 : List RegRow := [
  ⟨TWN_CTRL, [], [fs TWN_CTRL_EN .rw 0, fs TWN_CTRL_LEVEL .rw 1, fs TWN_CTRL_SIDE .rw 0, fs TWN_CTRL_TAKEOVER .wo 0, fs TWN_CTRL_LINK_EN .rw 0, fs TWN_CTRL_HB_TIMEOUT_US .rw 0x20, fs TWN_CTRL_SB_PCP .rw 1]⟩,
  ⟨TWN_STATUS, [], [fs TWN_STATUS_ROLE .ro 0, fs TWN_STATUS_PEER_ROLE .ro 0, fs TWN_STATUS_HB_OK .ro 0, fs TWN_STATUS_PIN_OK .ro 0, fs TWN_STATUS_SYNC .ro 0, fs TWN_STATUS_LINK_UP .ro 0, fs TWN_STATUS_G0_STATE .ro 0, fs TWN_STATUS_G1_STATE .ro 0, fs TWN_STATUS_LAG_TICKS .ro 0]⟩,
  ⟨TWN_EV_CAUSE, [], [fs TWN_EV_CAUSE_LINK_DOWN .w1c 0, fs TWN_EV_CAUSE_LINK_UP .w1c 0, fs TWN_EV_CAUSE_GRP_DEGRADED .w1c 0, fs TWN_EV_CAUSE_HB_LOST .w1c 0, fs TWN_EV_CAUSE_PIN_LOST .w1c 0, fs TWN_EV_CAUSE_TAKING_OVER .w1c 0, fs TWN_EV_CAUSE_ACTIVE .w1c 0, fs TWN_EV_CAUSE_STEP_DOWN .w1c 0, fs TWN_EV_CAUSE_LAG .w1c 0, fs TWN_EV_CAUSE_STAGE_OVF .w1c 0, fs TWN_EV_CAUSE_RESYNC .w1c 0, fs TWN_EV_CAUSE_SYNC_OK .w1c 0, fs TWN_EV_CAUSE_BAD_CELL .w1c 0, fs TWN_EV_CAUSE_MSG .w1c 0]⟩,
  ⟨TWN_ACTIVE_SINCE_LO, [], [fs TWN_ACTIVE_SINCE_LO_TICK .ro 0]⟩,
  ⟨TWN_ACTIVE_SINCE_HI, [], [fs TWN_ACTIVE_SINCE_HI_TICK .ro 0]⟩,
  ⟨TWN_LAST_COMMIT, [], [fs TWN_LAST_COMMIT_TICK .ro 0]⟩,
  ⟨TWN_STAGE_LO, [], [fs TWN_STAGE_LO_ADDR .rw 0]⟩,
  ⟨TWN_STAGE_HI, [], [fs TWN_STAGE_HI_ADDR .rw 0]⟩,
  ⟨TWN_STAGE_SIZE, [], [fs TWN_STAGE_SIZE_MIB .rw 8]⟩,
  ⟨TWN_CNT_TX, [], [fs TWN_CNT_TX_COUNT .rc 0]⟩,
  ⟨TWN_CNT_RX, [], [fs TWN_CNT_RX_COUNT .rc 0]⟩,
  ⟨TWN_CNT_BAD, [], [fs TWN_CNT_BAD_COUNT .rc 0]⟩]

/-- Block TWN, part 1. -/
def rowsTWN1 : List RegRow := [
  ⟨TWN_CNT_RESYNC, [], [fs TWN_CNT_RESYNC_COUNT .rc 0]⟩,
  ⟨(TWN_MIRROR_LO 0), [(16, 0x10)], [fs (TWN_MIRROR_LO_ADDR 0) .rw 0]⟩,
  ⟨(TWN_MIRROR_HI 0), [(16, 0x10)], [fs (TWN_MIRROR_HI_ADDR 0) .rw 0]⟩,
  ⟨(TWN_MIRROR_LEN 0), [(16, 0x10)], [fs (TWN_MIRROR_LEN_LINES 0) .rw 0, fs (TWN_MIRROR_LEN_EN 0) .rw 0]⟩,
  ⟨(TWN_MSG 0), [(2, 0x1000)], [fs (TWN_MSG_DATA 0) .rw 0]⟩]

/-- Every register of block TWN. -/
def rowsTWN : List RegRow := rowsTWN0 ++ rowsTWN1

/-- Block TBC, part 0. -/
def rowsTBC0 : List RegRow := [
  ⟨(TBC_CTRL 0), [(2, 0x100)], [fs (TBC_CTRL_EN 0) .rw 0, fs (TBC_CTRL_EV_SWAP 0) .rw 0, fs (TBC_CTRL_CARRIER 0) .rw 0]⟩,
  ⟨(TBC_TIMING 0), [(2, 0x100)], [fs (TBC_TIMING_ARM_LEAD 0) .rw 0x7d, fs (TBC_TIMING_STB_WAIT 0) .rw 0x7d]⟩,
  ⟨(TBC_SWAP_REQ 0), [(2, 0x100)], [fs (TBC_SWAP_REQ_SLOT 0) .wo 0, fs (TBC_SWAP_REQ_SYMBOL 0) .wo 0]⟩,
  ⟨(TBC_STATUS 0), [(2, 0x100)], [fs (TBC_STATUS_SEL 0) .ro 0, fs (TBC_STATUS_PENDING 0) .ro 0, fs (TBC_STATUS_CLK_OK 0) .ro 0, fs (TBC_STATUS_WIN_OPEN 0) .ro 0]⟩,
  ⟨(TBC_EV_CAUSE 0), [(2, 0x100)], [fs (TBC_EV_CAUSE_SWAP 0) .w1c 0, fs (TBC_EV_CAUSE_LATE 0) .w1c 0, fs (TBC_EV_CAUSE_BUSY 0) .w1c 0, fs (TBC_EV_CAUSE_NO_STROBE 0) .w1c 0, fs (TBC_EV_CAUSE_LATE_WRITE 0) .w1c 0, fs (TBC_EV_CAUSE_CLK_LOST 0) .w1c 0, fs (TBC_EV_CAUSE_CLK_OK 0) .w1c 0, fs (TBC_EV_CAUSE_ECC_UE 0) .w1c 0]⟩,
  ⟨(TBC_LAST_SWAP 0), [(2, 0x100)], [fs (TBC_LAST_SWAP_SLOT 0) .ro 0, fs (TBC_LAST_SWAP_SYMBOL 0) .ro 0, fs (TBC_LAST_SWAP_SEL 0) .ro 0, fs (TBC_LAST_SWAP_NO_STROBE 0) .ro 0]⟩,
  ⟨(TBC_SWAP_TS_NS 0), [(2, 0x100)], [fs (TBC_SWAP_TS_NS_NS 0) .ro 0]⟩,
  ⟨(TBC_SWAP_TS_SEC 0), [(2, 0x100)], [fs (TBC_SWAP_TS_SEC_SEC 0) .ro 0]⟩,
  ⟨(TBC_CNT_SWAP 0), [(2, 0x100)], [fs (TBC_CNT_SWAP_COUNT 0) .rc 0]⟩,
  ⟨(TBC_CNT_STB 0), [(2, 0x100)], [fs (TBC_CNT_STB_COUNT 0) .rc 0]⟩,
  ⟨(TBC_CNT_STB_UNUSED 0), [(2, 0x100)], [fs (TBC_CNT_STB_UNUSED_COUNT 0) .rc 0]⟩,
  ⟨(TBC_CNT_ECC_CE 0), [(2, 0x100)], [fs (TBC_CNT_ECC_CE_COUNT 0) .rc 0]⟩]

/-- Block TBC, part 1. -/
def rowsTBC1 : List RegRow := [
  ⟨(TBC_CNT_LATE_WRITE 0), [(2, 0x100)], [fs (TBC_CNT_LATE_WRITE_COUNT 0) .rc 0]⟩,
  ⟨(TBC_TABLE 0 0 0), [(2, 0x8000), (2, 0x1000), (1024, 0x4)], [fs (TBC_TABLE_ENTRY 0 0 0) .rw 0]⟩]

/-- Every register of block TBC. -/
def rowsTBC : List RegRow := rowsTBC0 ++ rowsTBC1

/-- Block DMA, part 0. -/
def rowsDMA0 : List RegRow := [
  ⟨(DMA_ENG_CTRL 0), [(8, 0x80000)], [fs (DMA_ENG_CTRL_ASLEEP_RETRY 0) .rw 4, fp (DMA_ENG_CTRL_MODE 0) .ro 0]⟩,
  ⟨(DMA_ENG_STATUS 0), [(8, 0x80000)], [fs (DMA_ENG_STATUS_FENCED 0) .ro 0, fs (DMA_ENG_STATUS_GRANT 0) .ro 0]⟩,
  ⟨(DMA_ENG_EV_PEND 0), [(8, 0x80000)], [fs (DMA_ENG_EV_PEND_CH 0) .ro 0]⟩,
  ⟨(DMA_SWREQ 0), [(8, 0x80000)], [fs (DMA_SWREQ_LINE 0) .wo 0]⟩,
  ⟨(DMA_CH_CTRL 0 0), [(8, 0x80000), (32, 0x100)], [fs (DMA_CH_CTRL_EN 0 0) .rw 0, fs (DMA_CH_CTRL_HALT_ON_ERR 0 0) .rw 0, fs (DMA_CH_CTRL_WAKE 0 0) .rw 0, fs (DMA_CH_CTRL_ABORT 0 0) .wo 0]⟩,
  ⟨(DMA_CH_STATUS 0 0), [(8, 0x80000), (32, 0x100)], [fs (DMA_CH_STATUS_STATE 0 0) .ro 0, fs (DMA_CH_STATUS_COMMIT_MISSED 0 0) .w1c 0, fs (DMA_CH_STATUS_PROV 0 0) .ro 0, fs (DMA_CH_STATUS_UNVER 0 0) .w1c 0, fs (DMA_CH_STATUS_PENDING 0 0) .ro 0, fs (DMA_CH_STATUS_HOCOUNT 0 0) .ro 0]⟩,
  ⟨(DMA_CH_EV_CAUSE 0 0), [(8, 0x80000), (32, 0x100)], [fs (DMA_CH_EV_CAUSE_DONE 0 0) .w1c 0, fs (DMA_CH_EV_CAUSE_ERROR 0 0) .w1c 0, fs (DMA_CH_EV_CAUSE_EXPIRED 0 0) .w1c 0, fs (DMA_CH_EV_CAUSE_REQ_OVF 0 0) .w1c 0, fs (DMA_CH_EV_CAUSE_COMMIT_MISSED 0 0) .w1c 0, fs (DMA_CH_EV_CAUSE_FENCED 0 0) .w1c 0, fs (DMA_CH_EV_CAUSE_PROV_REFUSED 0 0) .w1c 0, fs (DMA_CH_EV_CAUSE_ABANDONED 0 0) .w1c 0]⟩,
  ⟨(DMA_CH_ERR 0 0), [(8, 0x80000), (32, 0x100)], [fs (DMA_CH_ERR_RESP 0 0) .ro 0, fs (DMA_CH_ERR_CODE 0 0) .ro 0]⟩,
  ⟨(DMA_CH_SH_DESC_LO 0 0), [(8, 0x80000), (32, 0x100)], [fs (DMA_CH_SH_DESC_LO_ADDR 0 0) .rw 0]⟩,
  ⟨(DMA_CH_SH_DESC_HI 0 0), [(8, 0x80000), (32, 0x100)], [fs (DMA_CH_SH_DESC_HI_ADDR 0 0) .rw 0]⟩,
  ⟨(DMA_CH_SH_CFG 0 0), [(8, 0x80000), (32, 0x100)], [fs (DMA_CH_SH_CFG_REQSEL 0 0) .rw 0, fs (DMA_CH_SH_CFG_REQ_EN 0 0) .rw 0, fs (DMA_CH_SH_CFG_PRIO 0 0) .rw 0, fs (DMA_CH_SH_CFG_TICK_EN 0 0) .rw 0, fs (DMA_CH_SH_CFG_BASETICK 0 0) .rw 0, fs (DMA_CH_SH_CFG_CARRIER 0 0) .rw 0, fs (DMA_CH_SH_CFG_RT 0 0) .rw 0]⟩,
  ⟨(DMA_CH_SH_COMMIT 0 0), [(8, 0x80000), (32, 0x100)], [fs (DMA_CH_SH_COMMIT_COMMIT 0 0) .rw 0]⟩]

/-- Block DMA, part 1. -/
def rowsDMA1 : List RegRow := [
  ⟨(DMA_CH_DESC_LO 0 0), [(8, 0x80000), (32, 0x100)], [fs (DMA_CH_DESC_LO_ADDR 0 0) .ro 0]⟩,
  ⟨(DMA_CH_DESC_HI 0 0), [(8, 0x80000), (32, 0x100)], [fs (DMA_CH_DESC_HI_ADDR 0 0) .ro 0]⟩,
  ⟨(DMA_CH_CFG 0 0), [(8, 0x80000), (32, 0x100)], [fs (DMA_CH_CFG_REQSEL 0 0) .ro 0, fs (DMA_CH_CFG_REQ_EN 0 0) .ro 0, fs (DMA_CH_CFG_PRIO 0 0) .ro 0, fs (DMA_CH_CFG_TICK_EN 0 0) .ro 0, fs (DMA_CH_CFG_BASETICK 0 0) .ro 0, fs (DMA_CH_CFG_CARRIER 0 0) .ro 0, fs (DMA_CH_CFG_RT 0 0) .ro 0]⟩,
  ⟨(DMA_CH_REMAIN 0 0), [(8, 0x80000), (32, 0x100)], [fs (DMA_CH_REMAIN_BYTES 0 0) .ro 0]⟩,
  ⟨(DMA_CH_CNT_DESC 0 0), [(8, 0x80000), (32, 0x100)], [fs (DMA_CH_CNT_DESC_COUNT 0 0) .rc 0]⟩,
  ⟨(DMA_CH_CNT_BURST 0 0), [(8, 0x80000), (32, 0x100)], [fs (DMA_CH_CNT_BURST_COUNT 0 0) .rc 0]⟩]

/-- Every register of block DMA. -/
def rowsDMA : List RegRow := rowsDMA0 ++ rowsDMA1

/-- Block DRC, part 0. -/
def rowsDRC0 : List RegRow := [
  ⟨DRC_CTRL, [], [fs DRC_CTRL_REF_MODE .rw 0, fs DRC_CTRL_CAL_MS .rw 0x64, fs DRC_CTRL_CAL_DTEMP .rw 0xa, fs DRC_CTRL_UE_RETRAIN .rw 4, fs DRC_CTRL_MARGIN_MIN .rw 0xc]⟩,
  ⟨DRC_MAP, [], [fs DRC_MAP_CHAN_EN .ro 0, fs DRC_MAP_GRAIN .ro 0, fs DRC_MAP_RESERVE_EN .ro 0, fs DRC_MAP_RETIRED .ro 0, fs DRC_MAP_REDIRECT .ro 7]⟩,
  ⟨DRC_CAP, [], [fs DRC_CAP_USABLE .ro 0, fs DRC_CAP_FITTED .ro 0, fs DRC_CAP_ORG .ro 0, fs DRC_CAP_SPEED .ro 0, fs DRC_CAP_RDIMM .ro 0]⟩,
  ⟨DRC_QOS, [], [fs DRC_QOS_PRIO .ro 0xc0031f]⟩,
  ⟨DRC_SCRUB, [], [fs DRC_SCRUB_EN .rw 0, fs DRC_SCRUB_PERIOD_H .rw 0x18]⟩,
  ⟨DRC_CT_OVF, [], [fs DRC_CT_OVF_COUNT .rc 0]⟩,
  ⟨DRC_CL_SCRUB, [], [fs DRC_CL_SCRUB_EN .rw 0, fs DRC_CL_SCRUB_PERIOD_DS .rw 0xa]⟩,
  ⟨DRC_CT_FREE, [], [fs DRC_CT_FREE_ENTRY .wo 0, fs DRC_CT_FREE_TABLE .wo 0, fs DRC_CT_FREE_CLUSTER .wo 0]⟩,
  ⟨(DRC_SCRUB_BASE 0), [(4, 0x8)], [fs (DRC_SCRUB_BASE_MIB 0) .rw 0]⟩,
  ⟨(DRC_SCRUB_LIMIT 0), [(4, 0x8)], [fs (DRC_SCRUB_LIMIT_MIB 0) .rw 0]⟩,
  ⟨DRC_PPR_ADDR_LO, [], [fs DRC_PPR_ADDR_LO_ADDR .rw 0]⟩,
  ⟨DRC_PPR_ADDR_HI, [], [fs DRC_PPR_ADDR_HI_ADDR .rw 0]⟩]

/-- Block DRC, part 1. -/
def rowsDRC1 : List RegRow := [
  ⟨DRC_PPR_CTRL, [], [fs DRC_PPR_CTRL_GO .wo 0]⟩,
  ⟨DRC_PPR_STATUS, [], [fs DRC_PPR_STATUS_STATE .ro 0, fs DRC_PPR_STATUS_RESULT .ro 0, fs DRC_PPR_STATUS_BANK .ro 0, fs DRC_PPR_STATUS_ROW .ro 0]⟩,
  ⟨(DRC_CH_STATUS 0), [(6, 0x40)], [fs (DRC_CH_STATUS_STATE 0) .ro 0, fs (DRC_CH_STATUS_REF2X 0) .ro 0, fs (DRC_CH_STATUS_TEMP 0) .ro 0, fs (DRC_CH_STATUS_MARGIN 0) .ro 0]⟩,
  ⟨(DRC_CH_EV_CAUSE 0), [(6, 0x40)], [fs (DRC_CH_EV_CAUSE_CE_THRESH 0) .w1c 0, fs (DRC_CH_EV_CAUSE_PERSISTENT 0) .w1c 0, fs (DRC_CH_EV_CAUSE_UE 0) .w1c 0, fs (DRC_CH_EV_CAUSE_SCRUB_UE 0) .w1c 0, fs (DRC_CH_EV_CAUSE_RETRAIN 0) .w1c 0, fs (DRC_CH_EV_CAUSE_RECOVERED 0) .w1c 0, fs (DRC_CH_EV_CAUSE_RETIRED 0) .w1c 0, fs (DRC_CH_EV_CAUSE_PPR_DONE 0) .w1c 0, fs (DRC_CH_EV_CAUSE_CT_OVF 0) .w1c 0]⟩,
  ⟨(DRC_CH_CNT_CE 0), [(6, 0x40)], [fs (DRC_CH_CNT_CE_COUNT 0) .rc 0]⟩,
  ⟨(DRC_CH_CNT_UE 0), [(6, 0x40)], [fs (DRC_CH_CNT_UE_COUNT 0) .rc 0]⟩,
  ⟨(DRC_CH_CNT_REF_POST 0), [(6, 0x40)], [fs (DRC_CH_CNT_REF_POST_COUNT 0) .rc 0]⟩,
  ⟨(DRC_CH_CNT_CAL 0), [(6, 0x40)], [fs (DRC_CH_CNT_CAL_COUNT 0) .rc 0]⟩,
  ⟨(DRC_CH_CNT_REWRITE 0), [(6, 0x40)], [fs (DRC_CH_CNT_REWRITE_COUNT 0) .rc 0]⟩,
  ⟨(DRC_CT_W0 0), [(16, 0x10)], [fs (DRC_CT_W0_ADDR_LO 0) .ro 0]⟩,
  ⟨(DRC_CT_W1 0), [(16, 0x10)], [fs (DRC_CT_W1_ADDR_HI 0) .ro 0, fs (DRC_CT_W1_CHANNEL 0) .ro 0, fs (DRC_CT_W1_SUBCH 0) .ro 0, fs (DRC_CT_W1_POS 0) .ro 0]⟩,
  ⟨(DRC_CT_W2 0), [(16, 0x10)], [fs (DRC_CT_W2_STATE 0) .ro 0, fs (DRC_CT_W2_REWRITES 0) .ro 0, fs (DRC_CT_W2_WRITTEN 0) .ro 0, fs (DRC_CT_W2_COUNT 0) .ro 0]⟩]

/-- Block DRC, part 2. -/
def rowsDRC2 : List RegRow := [
  ⟨(DRC_CT_W3 0), [(16, 0x10)], [fs (DRC_CT_W3_TICK 0) .ro 0]⟩,
  ⟨(DRC_CLCT_W0 0 0), [(20, 0x100), (8, 0x10)], [fs (DRC_CLCT_W0_ADDR_LO 0 0) .ro 0]⟩,
  ⟨(DRC_CLCT_W1 0 0), [(20, 0x100), (8, 0x10)], [fs (DRC_CLCT_W1_ADDR_HI 0 0) .ro 0, fs (DRC_CLCT_W1_CHANNEL 0 0) .ro 0, fs (DRC_CLCT_W1_SUBCH 0 0) .ro 0, fs (DRC_CLCT_W1_POS 0 0) .ro 0]⟩,
  ⟨(DRC_CLCT_W2 0 0), [(20, 0x100), (8, 0x10)], [fs (DRC_CLCT_W2_STATE 0 0) .ro 0, fs (DRC_CLCT_W2_REWRITES 0 0) .ro 0, fs (DRC_CLCT_W2_WRITTEN 0 0) .ro 0, fs (DRC_CLCT_W2_COUNT 0 0) .ro 0]⟩,
  ⟨(DRC_CLCT_W3 0 0), [(20, 0x100), (8, 0x10)], [fs (DRC_CLCT_W3_TICK 0 0) .ro 0]⟩,
  ⟨(DRC_CLCT_OVF 0), [(20, 0x100)], [fs (DRC_CLCT_OVF_COUNT 0) .rc 0]⟩,
  ⟨(DRC_UE_LOG_A 0), [(8, 0x8)], [fs (DRC_UE_LOG_A_ADDR 0) .ro 0]⟩,
  ⟨(DRC_UE_LOG_B 0), [(8, 0x8)], [fs (DRC_UE_LOG_B_ADDR 0) .ro 0, fs (DRC_UE_LOG_B_SOURCE 0) .ro 0, fs (DRC_UE_LOG_B_SCRUB 0) .ro 0]⟩,
  ⟨DRC_UE_PTR, [], [fs DRC_UE_PTR_NEXT .ro 0, fs DRC_UE_PTR_WRAPPED .w1c 0]⟩]

/-- Every register of block DRC. -/
def rowsDRC : List RegRow := rowsDRC0 ++ rowsDRC1 ++ rowsDRC2

/-- Block HTH, part 0. -/
def rowsHTH0 : List RegRow := [
  ⟨HTH_CTRL, [], [fs HTH_CTRL_HOST_VERIFY .rw 0, fs HTH_CTRL_RETIRE_LIMIT .rw 0x10]⟩,
  ⟨HTH_STATUS, [], [fs HTH_STATUS_RETIRED .ro 0, fp HTH_STATUS_HEADROOM .ro 0]⟩,
  ⟨HTH_RETIRE, [], [fs HTH_RETIRE_WIN .rw 0x1f40]⟩,
  ⟨HTH_CNT_MISMATCH, [], [fs HTH_CNT_MISMATCH_COUNT .rc 0]⟩,
  ⟨HTH_CNT_AIS, [], [fs HTH_CNT_AIS_COUNT .rc 0]⟩,
  ⟨HTH_CNT_FORCED, [], [fs HTH_CNT_FORCED_COUNT .rc 0]⟩,
  ⟨HTH_CNT_REFUSED, [], [fs HTH_CNT_REFUSED_COUNT .rc 0]⟩,
  ⟨HTH_CNT_UNVERIFIED, [], [fs HTH_CNT_UNVERIFIED_COUNT .rc 0]⟩,
  ⟨HTH_LOG_PTR, [], [fs HTH_LOG_PTR_NEXT .ro 0, fs HTH_LOG_PTR_WRAPPED .w1c 0]⟩,
  ⟨(HTH_LOG_A 0), [(16, 0x8)], [fs (HTH_LOG_A_BANK 0) .ro 0, fs (HTH_LOG_A_TILE 0) .ro 0, fs (HTH_LOG_A_CAUSE 0) .ro 0, fs (HTH_LOG_A_NODE 0) .ro 0]⟩,
  ⟨(HTH_LOG_B 0), [(16, 0x8)], [fs (HTH_LOG_B_TICK 0) .ro 0]⟩,
  ⟨(HTH_BANK_STATE 0), [(80, 0x4)], [fp (HTH_BANK_STATE_STATE 0) .ro 0, fp (HTH_BANK_STATE_PANEL 0) .ro 0, fs (HTH_BANK_STATE_FAULTS 0) .ro 0]⟩]

/-- Block HTH, part 1. -/
def rowsHTH1 : List RegRow := [
  ⟨(HTH_EV_CAUSE 0), [(20, 0x4)], [fs (HTH_EV_CAUSE_MISMATCH 0) .w1c 0, fs (HTH_EV_CAUSE_RETIRED 0) .w1c 0, fs (HTH_EV_CAUSE_NO_HEADROOM 0) .w1c 0]⟩]

/-- Every register of block HTH. -/
def rowsHTH : List RegRow := rowsHTH0 ++ rowsHTH1

/-- Block CLU, part 0. -/
def rowsCLU0 : List RegRow := [
  ⟨(CX_STATUS 0 0), [(20, 0x80000), (8, 0x1000)], [fs (CX_STATUS_PRIV 0 0) .ro 2, fs (CX_STATUS_IE 0 0) .rw 0, fs (CX_STATUS_EPRIV 0 0) .rw 0, fs (CX_STATUS_EIE 0 0) .rw 0, fs (CX_STATUS_SPRIV 0 0) .ro 0, fs (CX_STATUS_DS 0 0) .ro 0, fs (CX_STATUS_REPD 0 0) .ro 0, fs (CX_STATUS_UNVER 0 0) .w1c 0, fs (CX_STATUS_PROV 0 0) .ro 0, fs (CX_STATUS_VLIVE 0 0) .ro 0, fs (CX_STATUS_MCHK 0 0) .ro 0, fs (CX_STATUS_IDLE 0 0) .ro 1]⟩,
  ⟨(CX_CPEN 0 0), [(20, 0x80000), (8, 0x1000)], [fs (CX_CPEN_CP0_U 0 0) .rw 0, fs (CX_CPEN_CP0_S 0 0) .rw 0, fs (CX_CPEN_CP0_M 0 0) .rw 1, fs (CX_CPEN_CP1_U 0 0) .rw 0, fs (CX_CPEN_CP1_S 0 0) .rw 0, fs (CX_CPEN_CP1_M 0 0) .rw 1]⟩,
  ⟨(CX_CAUSE 0 0), [(20, 0x80000), (8, 0x1000)], [fs (CX_CAUSE_CODE 0 0) .ro 0, fs (CX_CAUSE_DETAIL 0 0) .ro 0, fs (CX_CAUSE_INT 0 0) .ro 0]⟩,
  ⟨(CX_EPC 0 0), [(20, 0x80000), (8, 0x1000)], [fs (CX_EPC_PC 0 0) .rw 0]⟩,
  ⟨(CX_EADDR_LO 0 0), [(20, 0x80000), (8, 0x1000)], [fs (CX_EADDR_LO_ADDR 0 0) .ro 0]⟩,
  ⟨(CX_EADDR_HI 0 0), [(20, 0x80000), (8, 0x1000)], [fs (CX_EADDR_HI_ADDR 0 0) .ro 0]⟩,
  ⟨(CX_DSTATE 0 0), [(20, 0x80000), (8, 0x1000)], [fs (CX_DSTATE_N 0 0) .rw 0, fs (CX_DSTATE_TGT 0 0) .rw 0]⟩,
  ⟨(CX_TROUTE 0 0), [(20, 0x80000), (8, 0x1000)], [fs (CX_TROUTE_ROUTE 0 0) .rw 0]⟩,
  ⟨(CX_MVBASE 0 0), [(20, 0x80000), (8, 0x1000)], [fs (CX_MVBASE_BASE 0 0) .rw 0]⟩,
  ⟨(CX_SAVE_BASE 0 0), [(20, 0x80000), (8, 0x1000)], [fs (CX_SAVE_BASE_ADDR 0 0) .rw 0xec]⟩,
  ⟨(CX_DHANDLE 0 0), [(20, 0x80000), (8, 0x1000)], [fs (CX_DHANDLE_HANDLE 0 0) .ro 0]⟩,
  ⟨(CX_DENTRY 0 0), [(20, 0x80000), (8, 0x1000)], [fs (CX_DENTRY_ENTRY 0 0) .ro 0]⟩]

/-- Block CLU, part 1. -/
def rowsCLU1 : List RegRow := [
  ⟨(CX_DARG_LO 0 0), [(20, 0x80000), (8, 0x1000)], [fs (CX_DARG_LO_ARG 0 0) .ro 0]⟩,
  ⟨(CX_DARG_HI 0 0), [(20, 0x80000), (8, 0x1000)], [fs (CX_DARG_HI_ARG 0 0) .ro 0]⟩,
  ⟨(CX_DONE 0 0), [(20, 0x80000), (8, 0x1000)], [fs (CX_DONE_STATUS 0 0) .wo 0]⟩,
  ⟨(CX_DINFO 0 0), [(20, 0x80000), (8, 0x1000)], [fs (CX_DINFO_CLASS 0 0) .ro 0, fs (CX_DINFO_CARRIER 0 0) .ro 0]⟩,
  ⟨(CX_FWIN 0 0 0), [(20, 0x80000), (8, 0x1000), (4, 0x4)], [fs (CX_FWIN_BASE 0 0 0) .rw 0]⟩,
  ⟨(CX_INT_EN 0 0), [(20, 0x80000), (8, 0x1000)], [fs (CX_INT_EN_EN 0 0) .rw 1]⟩,
  ⟨(CX_INT_PEND 0 0), [(20, 0x80000), (8, 0x1000)], [fs (CX_INT_PEND_PEND 0 0) .ro 0, fs (CX_INT_PEND_SOFT 0 0) .w1c 0]⟩,
  ⟨(CX_LOOP 0 0 0), [(20, 0x80000), (8, 0x1000), (3, 0x4)], [fs (CX_LOOP_COUNT 0 0 0) .ro 0, fs (CX_LOOP_END 0 0 0) .ro 0]⟩,
  ⟨(CX_SV_CAUSE 0 0), [(20, 0x80000), (8, 0x1000)], [fs (CX_SV_CAUSE_CODE 0 0) .ro 0, fs (CX_SV_CAUSE_DETAIL 0 0) .ro 0, fs (CX_SV_CAUSE_INT 0 0) .ro 0]⟩,
  ⟨(CX_SV_PC 0 0), [(20, 0x80000), (8, 0x1000)], [fs (CX_SV_PC_PC 0 0) .rw 0]⟩,
  ⟨(CX_SVBASE 0 0), [(20, 0x80000), (8, 0x1000)], [fs (CX_SVBASE_BASE 0 0) .rw 0]⟩,
  ⟨(CX_SV_EADDR_LO 0 0), [(20, 0x80000), (8, 0x1000)], [fs (CX_SV_EADDR_LO_ADDR 0 0) .ro 0]⟩]

/-- Block CLU, part 2. -/
def rowsCLU2 : List RegRow := [
  ⟨(CX_SV_EADDR_HI 0 0), [(20, 0x80000), (8, 0x1000)], [fs (CX_SV_EADDR_HI_ADDR 0 0) .ro 0]⟩,
  ⟨(CX_CNTEN 0 0), [(20, 0x80000), (8, 0x1000)], [fs (CX_CNTEN_CYCLE 0 0) .rw 0, fs (CX_CNTEN_HPM 0 0) .rw 0]⟩,
  ⟨(CX_HPM_CTL 0 0 0), [(20, 0x80000), (8, 0x1000), (8, 0x4)], [fs (CX_HPM_CTL_EVENT 0 0 0) .rw 0, fs (CX_HPM_CTL_U 0 0 0) .rw 1, fs (CX_HPM_CTL_S 0 0 0) .rw 1, fs (CX_HPM_CTL_M 0 0 0) .rw 1, fs (CX_HPM_CTL_CLR 0 0 0) .wo 0, fs (CX_HPM_CTL_OVF 0 0 0) .w1c 0]⟩,
  ⟨(CX_CYCLE_LO 0 0), [(20, 0x80000), (8, 0x1000)], [fs (CX_CYCLE_LO_COUNT 0 0) .ro 0]⟩,
  ⟨(CX_CYCLE_HI 0 0), [(20, 0x80000), (8, 0x1000)], [fs (CX_CYCLE_HI_COUNT 0 0) .ro 0]⟩,
  ⟨(CX_HPM_LO 0 0 0), [(20, 0x80000), (8, 0x1000), (8, 0x8)], [fs (CX_HPM_LO_COUNT 0 0 0) .ro 0]⟩,
  ⟨(CX_HPM_HI 0 0 0), [(20, 0x80000), (8, 0x1000), (8, 0x8)], [fs (CX_HPM_HI_COUNT 0 0 0) .ro 0]⟩,
  ⟨(CX_VGRANT 0 0), [(20, 0x80000), (8, 0x1000)], [fs (CX_VGRANT_GL 0 0) .ro 0]⟩,
  ⟨(CX_VSHAPE 0 0), [(20, 0x80000), (8, 0x1000)], [fs (CX_VSHAPE_ELEM 0 0) .ro 0]⟩,
  ⟨(CX_VFAULT 0 0), [(20, 0x80000), (8, 0x1000)], [fs (CX_VFAULT_AT 0 0) .ro 0, fs (CX_VFAULT_KIND 0 0) .ro 0, fs (CX_VFAULT_VALID 0 0) .w1c 0]⟩,
  ⟨(CX_VRESUME 0 0), [(20, 0x80000), (8, 0x1000)], [fs (CX_VRESUME_FROM 0 0) .rw 0, fs (CX_VRESUME_ARMED 0 0) .w1c 0, fs (CX_VRESUME_PC 0 0) .ro 0]⟩,
  ⟨(CX_VGEOM 0 0), [(20, 0x80000), (8, 0x1000)], [fs (CX_VGEOM_LANES 0 0) .ro 8, fs (CX_VGEOM_LANE_BYTES 0 0) .ro 0x10]⟩]

/-- Block CLU, part 3. -/
def rowsCLU3 : List RegRow := [
  ⟨(CX_AMODE 0 0), [(20, 0x80000), (8, 0x1000)], [fs (CX_AMODE_MODE 0 0) .rw 0]⟩,
  ⟨(CLU_CTRL 0), [(20, 0x80000)], [fs (CLU_CTRL_ASLEEP_RETRY 0) .rw 4]⟩,
  ⟨(CLU_EV_CAUSE 0), [(20, 0x80000)], [fs (CLU_EV_CAUSE_MCHK 0) .w1c 0, fs (CLU_EV_CAUSE_MCHK_NESTED 0) .w1c 0, fs (CLU_EV_CAUSE_CE 0) .w1c 0, fs (CLU_EV_CAUSE_CP_ERR 0) .w1c 0]⟩,
  ⟨(CLU_CP_STATUS 0), [(20, 0x80000)], [fs (CLU_CP_STATUS_SLOT 0) .ro 0, fs (CLU_CP_STATUS_RUN 0) .ro 0, fs (CLU_CP_STATUS_BUSY 0) .ro 0]⟩,
  ⟨(CLU_CP_CNT_OPS 0), [(20, 0x80000)], [fs (CLU_CP_CNT_OPS_COUNT 0) .rc 0]⟩,
  ⟨(CLU_CP_CNT_SQUASH 0), [(20, 0x80000)], [fs (CLU_CP_CNT_SQUASH_COUNT 0) .rc 0]⟩,
  ⟨(CLU_CNT_CE 0), [(20, 0x80000)], [fs (CLU_CNT_CE_COUNT 0) .rc 0]⟩,
  ⟨(CLU_DUMP_CTRL 0), [(20, 0x80000)], [fs (CLU_DUMP_CTRL_EN 0) .rw 0, fs (CLU_DUMP_CTRL_HEATH 0) .rw 0, fs (CLU_DUMP_CTRL_EVERY 0) .rw 1]⟩,
  ⟨(CLU_DUMP_BASE_LO 0), [(20, 0x80000)], [fs (CLU_DUMP_BASE_LO_ADDR 0) .rw 0]⟩,
  ⟨(CLU_DUMP_BASE_HI 0), [(20, 0x80000)], [fs (CLU_DUMP_BASE_HI_ADDR 0) .rw 0]⟩,
  ⟨(CLU_DUMP_SIZE 0), [(20, 0x80000)], [fs (CLU_DUMP_SIZE_SIZE 0) .rw 0x400]⟩,
  ⟨(CLU_DUMP_WR 0), [(20, 0x80000)], [fs (CLU_DUMP_WR_WR 0) .ro 0]⟩]

/-- Block CLU, part 4. -/
def rowsCLU4 : List RegRow := [
  ⟨(CLU_DUMP_RD 0), [(20, 0x80000)], [fs (CLU_DUMP_RD_RD 0) .rw 0]⟩,
  ⟨(CLU_DUMP_CNT_DROP 0), [(20, 0x80000)], [fs (CLU_DUMP_CNT_DROP_COUNT 0) .rc 0]⟩,
  ⟨(CLU_DBG_CTRL 0), [(20, 0x80000)], [fs (CLU_DBG_CTRL_HALT 0) .rw 0, fs (CLU_DBG_CTRL_STEP 0) .wo 0]⟩,
  ⟨(CLU_DBG_STATUS 0), [(20, 0x80000)], [fs (CLU_DBG_STATUS_HALTED 0) .ro 0]⟩,
  ⟨(CLU_DBG_BP 0 0), [(20, 0x80000), (2, 0x4)], [fs (CLU_DBG_BP_PC 0 0) .rw 0, fs (CLU_DBG_BP_CORES 0 0) .rw 0, fs (CLU_DBG_BP_EN 0 0) .rw 0]⟩]

/-- Every register of block CLU. -/
def rowsCLU : List RegRow := rowsCLU0 ++ rowsCLU1 ++ rowsCLU2 ++ rowsCLU3 ++ rowsCLU4

/-- Block FFE, part 0. -/
def rowsFFE0 : List RegRow := [
  ⟨FFE_CTRL, [], [fs FFE_CTRL_LABEL_CHECK .rw 1]⟩,
  ⟨FFE_CNT_SCHED_MISS, [], [fs FFE_CNT_SCHED_MISS_COUNT .rc 0]⟩,
  ⟨(FFE_ENG_STATUS 0), [(32, 0x20)], [fs (FFE_ENG_STATUS_STATE 0) .ro 0, fs (FFE_ENG_STATUS_QDEPTH 0) .ro 0]⟩,
  ⟨(FFE_ENG_EV_CAUSE 0), [(32, 0x20)], [fs (FFE_ENG_EV_CAUSE_CMD_ERR 0) .w1c 0, fs (FFE_ENG_EV_CAUSE_EXPIRED 0) .w1c 0, fs (FFE_ENG_EV_CAUSE_FENCED 0) .w1c 0, fs (FFE_ENG_EV_CAUSE_LABEL 0) .w1c 0, fs (FFE_ENG_EV_CAUSE_CLIP_SCHED 0) .w1c 0]⟩,
  ⟨(FFE_ENG_CNT_XFORM 0), [(32, 0x20)], [fs (FFE_ENG_CNT_XFORM_COUNT 0) .rc 0]⟩,
  ⟨(FFE_ENG_CNT_ERASE 0), [(32, 0x20)], [fs (FFE_ENG_CNT_ERASE_COUNT 0) .rc 0]⟩,
  ⟨(FFE_ENG_CNT_SAT 0), [(32, 0x20)], [fs (FFE_ENG_CNT_SAT_COUNT 0) .rc 0]⟩,
  ⟨(FFE_ENG_ERR 0), [(32, 0x20)], [fs (FFE_ENG_ERR_CODE 0) .ro 0]⟩,
  ⟨(FFE_AGC_CFG 0), [(64, 0x8)], [fs (FFE_AGC_CFG_TARGET 0) .rw 0xb8, fs (FFE_AGC_CFG_ALPHA_SHIFT 0) .rw 1, fs (FFE_AGC_CFG_FAST_MAX 0) .rw 0x30, fs (FFE_AGC_CFG_INIT_GAIN 0) .rw 0]⟩,
  ⟨(FFE_AGC_CLIP 0), [(64, 0x8)], [fs (FFE_AGC_CLIP_CLIP_LIMIT 0) .rw 0x40]⟩,
  ⟨(FFE_SCHED 0 0), [(64, 0x8), (2, 0x4)], [fs (FFE_SCHED_MASK 0 0) .rw 0, fs (FFE_SCHED_VALID 0 0) .rw 0, fs (FFE_SCHED_SLOT 0 0) .rw 0]⟩,
  ⟨(FFE_AGC_STATE 0 0), [(4, 0x800), (512, 0x4)], [fp (FFE_AGC_STATE_GAIN 0 0) .ro 0, fs (FFE_AGC_STATE_MODE 0 0) .ro 0, fp (FFE_AGC_STATE_VALID 0 0) .ro 0, fs (FFE_AGC_STATE_CLIP 0 0) .ro 0]⟩]

/-- Every register of block FFE. -/
def rowsFFE : List RegRow := rowsFFE0

/-- Block MXE, part 0. -/
def rowsMXE0 : List RegRow := [
  ⟨MXE_CTRL, [], [fs MXE_CTRL_LABEL_CHECK .rw 1, fs MXE_CTRL_EV_ALL .rw 0, fs MXE_CTRL_LLR_FRAC .rw 2, fs MXE_CTRL_SHRINK .rw 2, fs MXE_CTRL_DSPREAD .rw 6]⟩,
  ⟨MXE_ITER_CFG, [], [fs MXE_ITER_CFG_COST_US .rw 0x23, fs MXE_ITER_CFG_MAX .rw 3, fs MXE_ITER_CFG_ECLASS .rw 4]⟩,
  ⟨(MXE_STATUS 0), [(4, 0x100)], [fs (MXE_STATUS_STATE 0) .ro 0, fs (MXE_STATUS_QDEPTH 0) .ro 0, fs (MXE_STATUS_LOOP 0) .ro 0]⟩,
  ⟨(MXE_EV_CAUSE 0), [(4, 0x100)], [fs (MXE_EV_CAUSE_REPORT 0) .w1c 0, fs (MXE_EV_CAUSE_CMD_ERR 0) .w1c 0, fs (MXE_EV_CAUSE_EXPIRED 0) .w1c 0, fs (MXE_EV_CAUSE_FENCED 0) .w1c 0, fs (MXE_EV_CAUSE_LABEL 0) .w1c 0, fs (MXE_EV_CAUSE_OVERFLOW 0) .w1c 0, fs (MXE_EV_CAUSE_ERASED 0) .w1c 0, fs (MXE_EV_CAUSE_EST_MISMATCH 0) .w1c 0]⟩,
  ⟨(MXE_LOOP_CAUSE 0), [(4, 0x100)], [fs (MXE_LOOP_CAUSE_INELIGIBLE 0) .w1c 0, fs (MXE_LOOP_CAUSE_NO_SLACK 0) .w1c 0, fs (MXE_LOOP_CAUSE_NO_ENERGY 0) .w1c 0, fs (MXE_LOOP_CAUSE_EXPIRED_IN_LOOP 0) .w1c 0, fs (MXE_LOOP_CAUSE_FAULT 0) .w1c 0]⟩,
  ⟨(MXE_ERR 0), [(4, 0x100)], [fs (MXE_ERR_CODE 0) .ro 0, fs (MXE_ERR_ENTRY 0) .ro 0]⟩,
  ⟨(MXE_RING_BASE_LO 0), [(4, 0x100)], [fs (MXE_RING_BASE_LO_ADDR 0) .rw 0]⟩,
  ⟨(MXE_RING_BASE_HI 0), [(4, 0x100)], [fs (MXE_RING_BASE_HI_ADDR 0) .rw 0]⟩,
  ⟨(MXE_RING_SIZE 0), [(4, 0x100)], [fs (MXE_RING_SIZE_SIZE 0) .rw 0x400]⟩,
  ⟨(MXE_RING_WR 0), [(4, 0x100)], [fs (MXE_RING_WR_WR 0) .ro 0]⟩,
  ⟨(MXE_RING_RD 0), [(4, 0x100)], [fs (MXE_RING_RD_RD 0) .rw 0]⟩,
  ⟨(MXE_CNT_CMD 0), [(4, 0x100)], [fs (MXE_CNT_CMD_COUNT 0) .rc 0]⟩]

/-- Block MXE, part 1. -/
def rowsMXE1 : List RegRow := [
  ⟨(MXE_CNT_ERASE 0), [(4, 0x100)], [fs (MXE_CNT_ERASE_COUNT 0) .rc 0]⟩,
  ⟨(MXE_CNT_ZERO_ALLOC 0), [(4, 0x100)], [fs (MXE_CNT_ZERO_ALLOC_COUNT 0) .rc 0]⟩,
  ⟨(MXE_CNT_OUTER 0), [(4, 0x100)], [fs (MXE_CNT_OUTER_COUNT 0) .rc 0]⟩,
  ⟨(MXE_CNT_OUTER_REF 0), [(4, 0x100)], [fs (MXE_CNT_OUTER_REF_COUNT 0) .rc 0]⟩,
  ⟨(MXE_CNT_LLR_SAT 0), [(4, 0x100)], [fs (MXE_CNT_LLR_SAT_COUNT 0) .rc 0]⟩,
  ⟨(MXE_CNT_DROP 0), [(4, 0x100)], [fs (MXE_CNT_DROP_COUNT 0) .rc 0]⟩,
  ⟨MXE_DL_CTRL, [], [fs MXE_DL_CTRL_REG_SHIFT .rw 6]⟩,
  ⟨(MXE_DL_EV_CAUSE 0), [(4, 0x100)], [fs (MXE_DL_EV_CAUSE_CMD_ERR 0) .w1c 0, fs (MXE_DL_EV_CAUSE_EXPIRED 0) .w1c 0, fs (MXE_DL_EV_CAUSE_FENCED 0) .w1c 0, fs (MXE_DL_EV_CAUSE_ZERO_IN 0) .w1c 0]⟩,
  ⟨(MXE_DL_ERR 0), [(4, 0x100)], [fs (MXE_DL_ERR_CODE 0) .ro 0, fs (MXE_DL_ERR_ENTRY 0) .ro 0]⟩,
  ⟨(MXE_DL_CNT_SAT 0), [(4, 0x100)], [fs (MXE_DL_CNT_SAT_COUNT 0) .rc 0]⟩,
  ⟨(MXE_DL_CNT_ZERO 0), [(4, 0x100)], [fs (MXE_DL_CNT_ZERO_COUNT 0) .rc 0]⟩,
  ⟨(MXE_DL_CNT_LATE 0), [(4, 0x100)], [fs (MXE_DL_CNT_LATE_COUNT 0) .rc 0]⟩]

/-- Every register of block MXE. -/
def rowsMXE : List RegRow := rowsMXE0 ++ rowsMXE1

/-- Block FEC, part 0. -/
def rowsFEC0 : List RegRow := [
  ⟨FEC_CTRL, [], [fs FEC_CTRL_LABEL_CHECK .rw 1, fs FEC_CTRL_SB_SHIFT .rw 4, fs FEC_CTRL_XITER_ECLASS .rw 2, fs FEC_CTRL_MAX_ITER .rw 0x14]⟩,
  ⟨FEC_SB_GEN, [], [fs FEC_SB_GEN_GEN .rw 0]⟩,
  ⟨(FEC_GRP_STATUS 0), [(4, 0x100)], [fs (FEC_GRP_STATUS_QDEPTH 0) .ro 0, fs (FEC_GRP_STATUS_BUSY 0) .ro 0, fs (FEC_GRP_STATUS_LOOP_WAIT 0) .ro 0, fs (FEC_GRP_STATUS_CHECK_Q 0) .ro 0]⟩,
  ⟨(FEC_GRP_CAUSE 0), [(4, 0x100)], [fs (FEC_GRP_CAUSE_PROV_OVF 0) .w1c 0, fs (FEC_GRP_CAUSE_PROV_LOC 0) .w1c 0, fs (FEC_GRP_CAUSE_RING_MOVED 0) .w1c 0, fs (FEC_GRP_CAUSE_CMPL_LOST 0) .w1c 0, fs (FEC_GRP_CAUSE_DB_DROP 0) .w1c 0, fs (FEC_GRP_CAUSE_SB_LOST 0) .w1c 0, fs (FEC_GRP_CAUSE_CMD_ERR 0) .w1c 0, fs (FEC_GRP_CAUSE_EXPIRED 0) .w1c 0, fs (FEC_GRP_CAUSE_LABEL 0) .w1c 0]⟩,
  ⟨(FEC_ERR 0), [(4, 0x100)], [fs (FEC_ERR_CODE 0) .ro 0, fs (FEC_ERR_ENTRY 0) .ro 0, fs (FEC_ERR_CARRIER 0) .ro 0]⟩,
  ⟨(FEC_PROV_BASE_LO 0), [(4, 0x100)], [fs (FEC_PROV_BASE_LO_ADDR 0) .rw 0]⟩,
  ⟨(FEC_PROV_BASE_HI 0), [(4, 0x100)], [fs (FEC_PROV_BASE_HI_ADDR 0) .rw 0]⟩,
  ⟨(FEC_PROV_SIZE 0), [(4, 0x100)], [fs (FEC_PROV_SIZE_SIZE 0) .rw 0x400]⟩,
  ⟨(FEC_PROV_WR 0), [(4, 0x100)], [fs (FEC_PROV_WR_WR 0) .ro 0]⟩,
  ⟨(FEC_PROV_RD 0), [(4, 0x100)], [fs (FEC_PROV_RD_RD 0) .rw 0]⟩,
  ⟨(FEC_CMPL_BASE_LO 0), [(4, 0x100)], [fs (FEC_CMPL_BASE_LO_ADDR 0) .rw 0]⟩,
  ⟨(FEC_CMPL_BASE_HI 0), [(4, 0x100)], [fs (FEC_CMPL_BASE_HI_ADDR 0) .rw 0]⟩]

/-- Block FEC, part 1. -/
def rowsFEC1 : List RegRow := [
  ⟨(FEC_CMPL_SIZE 0), [(4, 0x100)], [fs (FEC_CMPL_SIZE_SIZE 0) .rw 0x400]⟩,
  ⟨(FEC_CMPL_WR 0), [(4, 0x100)], [fs (FEC_CMPL_WR_WR 0) .ro 0]⟩,
  ⟨(FEC_CMPL_RD 0), [(4, 0x100)], [fs (FEC_CMPL_RD_RD 0) .rw 0]⟩,
  ⟨(FEC_CNT_CB 0), [(4, 0x100)], [fs (FEC_CNT_CB_COUNT 0) .rc 0]⟩,
  ⟨(FEC_CNT_ITER 0), [(4, 0x100)], [fs (FEC_CNT_ITER_COUNT 0) .rc 0]⟩,
  ⟨(FEC_CNT_EARLY 0), [(4, 0x100)], [fs (FEC_CNT_EARLY_COUNT 0) .rc 0]⟩,
  ⟨(FEC_CNT_RETRACT 0), [(4, 0x100)], [fs (FEC_CNT_RETRACT_COUNT 0) .rc 0]⟩,
  ⟨(FEC_CNT_TB_FAIL 0), [(4, 0x100)], [fs (FEC_CNT_TB_FAIL_COUNT 0) .rc 0]⟩,
  ⟨(FEC_CNT_XITER_DENIED 0), [(4, 0x100)], [fs (FEC_CNT_XITER_DENIED_COUNT 0) .rc 0]⟩,
  ⟨(FEC_CNT_DB_DROP 0), [(4, 0x100)], [fs (FEC_CNT_DB_DROP_COUNT 0) .rc 0]⟩,
  ⟨(FEC_CNT_ERASE 0), [(4, 0x100)], [fs (FEC_CNT_ERASE_COUNT 0) .rc 0]⟩,
  ⟨(FEC_CNT_SB_LOST 0), [(4, 0x100)], [fs (FEC_CNT_SB_LOST_COUNT 0) .rc 0]⟩]

/-- Block FEC, part 2. -/
def rowsFEC2 : List RegRow := [
  ⟨(FEC_CNT_PROV_DROP 0), [(4, 0x100)], [fs (FEC_CNT_PROV_DROP_COUNT 0) .rc 0]⟩,
  ⟨(FEC_CNT_CMPL_LOST 0), [(4, 0x100)], [fs (FEC_CNT_CMPL_LOST_COUNT 0) .rc 0]⟩,
  ⟨(FEC_ENG_STATUS 0), [(24, 0x20)], [fs (FEC_ENG_STATUS_STATE 0) .ro 0]⟩,
  ⟨(FEC_ENG_EV_CAUSE 0), [(24, 0x20)], [fs (FEC_ENG_EV_CAUSE_FENCED 0) .w1c 0, fs (FEC_ENG_EV_CAUSE_GROUP 0) .ro 0]⟩,
  ⟨(FEC_ENC_STATUS 0), [(4, 0x100)], [fs (FEC_ENC_STATUS_QDEPTH 0) .ro 0]⟩,
  ⟨(FEC_ENC_CAUSE 0), [(4, 0x100)], [fs (FEC_ENC_CAUSE_CMD_ERR 0) .w1c 0, fs (FEC_ENC_CAUSE_EXPIRED 0) .w1c 0, fs (FEC_ENC_CAUSE_IN_ERASED 0) .w1c 0, fs (FEC_ENC_CAUSE_FENCED 0) .w1c 0]⟩,
  ⟨(FEC_ENC_ERR 0), [(4, 0x100)], [fs (FEC_ENC_ERR_CODE 0) .ro 0]⟩,
  ⟨(FEC_ENC_CNT_CB 0), [(4, 0x100)], [fs (FEC_ENC_CNT_CB_COUNT 0) .rc 0]⟩,
  ⟨(FEC_ENC_CNT_MUTED 0), [(4, 0x100)], [fs (FEC_ENC_CNT_MUTED_COUNT 0) .rc 0]⟩]

/-- Every register of block FEC. -/
def rowsFEC : List RegRow := rowsFEC0 ++ rowsFEC1 ++ rowsFEC2

/-- Block PRE, part 0. -/
def rowsPRE0 : List RegRow := [
  ⟨(PRE_CTRL 0), [(4, 0x100)], [fs (PRE_CTRL_EV_ALL 0) .rw 0]⟩,
  ⟨(PRE_STATUS 0), [(4, 0x100)], [fs (PRE_STATUS_STATE 0) .ro 0, fs (PRE_STATUS_ACC0_BUSY 0) .ro 0, fs (PRE_STATUS_ACC1_BUSY 0) .ro 0, fs (PRE_STATUS_QDEPTH 0) .ro 0]⟩,
  ⟨(PRE_EV_CAUSE 0), [(4, 0x100)], [fs (PRE_EV_CAUSE_REPORT 0) .w1c 0, fs (PRE_EV_CAUSE_OVERFLOW 0) .w1c 0, fs (PRE_EV_CAUSE_EXPIRED 0) .w1c 0, fs (PRE_EV_CAUSE_CMD_ERR 0) .w1c 0, fs (PRE_EV_CAUSE_SUPERSEDED 0) .w1c 0, fs (PRE_EV_CAUSE_CLIP_RELEASE 0) .w1c 0, fs (PRE_EV_CAUSE_FENCED 0) .w1c 0]⟩,
  ⟨(PRE_RING_BASE_LO 0), [(4, 0x100)], [fs (PRE_RING_BASE_LO_ADDR 0) .rw 0]⟩,
  ⟨(PRE_RING_BASE_HI 0), [(4, 0x100)], [fs (PRE_RING_BASE_HI_ADDR 0) .rw 0]⟩,
  ⟨(PRE_RING_SIZE 0), [(4, 0x100)], [fs (PRE_RING_SIZE_SIZE 0) .rw 0x400]⟩,
  ⟨(PRE_RING_WR 0), [(4, 0x100)], [fs (PRE_RING_WR_WR 0) .ro 0]⟩,
  ⟨(PRE_RING_RD 0), [(4, 0x100)], [fs (PRE_RING_RD_RD 0) .rw 0]⟩,
  ⟨(PRE_CNT_OCC 0), [(4, 0x100)], [fs (PRE_CNT_OCC_COUNT 0) .rc 0]⟩,
  ⟨(PRE_CNT_DET 0), [(4, 0x100)], [fs (PRE_CNT_DET_COUNT 0) .rc 0]⟩,
  ⟨(PRE_CNT_SUP 0), [(4, 0x100)], [fs (PRE_CNT_SUP_COUNT 0) .rc 0]⟩,
  ⟨(PRE_CNT_CLIPREL 0), [(4, 0x100)], [fs (PRE_CNT_CLIPREL_COUNT 0) .rc 0]⟩]

/-- Block PRE, part 1. -/
def rowsPRE1 : List RegRow := [
  ⟨(PRE_CNT_DROP 0), [(4, 0x100)], [fs (PRE_CNT_DROP_COUNT 0) .rc 0]⟩]

/-- Every register of block PRE. -/
def rowsPRE : List RegRow := rowsPRE0 ++ rowsPRE1

/-- The register blocks of R25: first and last BAR0 offset, and the registers inside. -/
def regBlocks : List (Nat × Nat × List RegRow) := [
  (0x0, 0xfffff, rowsHWD),
  (0x100000, 0x1fffff, rowsEVF),
  (0x200000, 0x2fffff, rowsTTB),
  (0x300000, 0x3fffff, rowsPKL),
  (0x400000, 0x4fffff, rowsELP),
  (0x500000, 0x5fffff, rowsFLT),
  (0x600000, 0x7fffff, rowsLWK),
  (0x800000, 0x9fffff, rowsRLN),
  (0xa00000, 0xbfffff, rowsFIL),
  (0xc00000, 0xcfffff, rowsNET),
  (0xd00000, 0xdfffff, rowsTWN),
  (0xe00000, 0xffffff, rowsTBC),
  (0x1000000, 0x13fffff, rowsDMA),
  (0x1400000, 0x17fffff, rowsDRC),
  (0x1800000, 0x1ffffff, rowsHTH),
  (0x2000000, 0x29fffff, rowsCLU),
  (0x3800000, 0x39fffff, rowsFFE),
  (0x3a00000, 0x3bfffff, rowsMXE),
  (0x3c00000, 0x3dfffff, rowsFEC),
  (0x3e00000, 0x3ffffff, rowsPRE)]

end Sys2Proof.Machine
end

