-- ==== Sys2Proof/Machine/State.lean ====
section
/-! DEFINITION. The state of the device as plain data: the register file, the memories, and, unit by
unit, what the chapters give the device beside its registers. -/

namespace Sys2Proof.Machine

/-! ### Tick, time base (R29 to R56) -/

/-- The time base and what waits on it. -/
structure TimeBase where
  /-- Time-of-day, seconds (48 bits) and nanoseconds (32 bits), at the last base tick edge or step (R39). -/
  sec : Nat
  ns : Nat
  /-- The 32-bit fraction of a nanosecond; 0 at an edge. -/
  frac : Nat
  /-- TICK (R29). -/
  tick : Nat
  /-- Base tick edges since power-on reset; windows counted in edges use it. -/
  edges : Nat
  /-- The next multiple of 125,000 ns makes no edge (R44). -/
  skip : Bool
  /-- Consecutive offsets below 100 ns since ACQUIRING was entered (R41). -/
  good : Nat
  /-- The frequency adjustments of the last 16 measurements, newest first (R41). -/
  freqs : List Int
  /-- The frequency adjustment the servo corrects about: frozen in HOLDOVER, held in FREERUN (R41). -/
  baseFreq : Int
  /-- A panel has started during this stay in ACQUIRING (R42). -/
  stayStarted : Bool
  /-- A pending step, in nanoseconds, and whether it is Hayward's own (R42, R43). -/
  step : Option Int
  own : Bool
  /-- A pending TTB_FRAME value (F, S) (R56). -/
  frame : Option (Nat × Nat)
  /-- Latched TICK_HI and latched seconds, by requester number (R55). -/
  latchHi : Tab Nat
  latchSec : Tab Nat
  /-- Panels whose start is held until LOCKED (R41). -/
  heldStarts : List Nat
  /-- The stored synchronization metadata TLV (R46). -/
  tlv : List Byte
  /-- The level of PPS_OUT; nanoseconds from reset to the last edge or step, and to the last rise (R51). -/
  ppsOut : Bool
  run : Nat
  ppsAt : Nat
  deriving DecidableEq, Repr

/-! ### Pricking (R57 to R88) -/

/-- One section of a pricking stream (R59). -/
structure Section where
  ty : Nat
  target : Nat
  payload : List Byte
  deriving DecidableEq, Repr

/-- A checked stream: header fields of R58 the device keeps, and its configuration sections. -/
structure Stream where
  kind : Nat
  panel : Nat
  id : Nat
  sections : List Section
  deriving DecidableEq, Repr

/-- The command the loader carries out (R70). -/
inductive LoaderCmd where
  | none
  | stage
  | reprick (whole : Bool) (panel : Nat)
  | stop (panel : Nat)
  | start (panel : Nat)
  deriving DecidableEq, Repr

/-- The pricking loader. -/
structure Loader where
  /-- The staging buffer's bytes, and the checked stream when PKL_STATUS.STAGED is 1 (R68). -/
  buf : List Byte
  fetchOk : Bool
  staged : Option Stream
  /-- The code of a fetched stream's requester, and the length it was fetched with. -/
  req : Nat
  /-- The sections in force: the active pricking, partial ones applied over it (R66). -/
  active : List Section
  /-- The active whole-device pricking as it was applied, which partial ones are checked against (R66). -/
  whole : List Section
  /-- ROUTE sections applied and not yet flipped to; true when the flip does not wait for a restart (R72, R76). -/
  routes : Option (Bool × List Section)
  /-- PANEL identifiers of partial prickings applied, by panel (PKL_PANEL_ID). -/
  panelId : Tab Nat
  cmd : LoaderCmd
  /-- The panel of the command has stopped; the stream has been applied. -/
  stopped : Bool
  applied : Bool
  /-- Panels to start; true for a start that waits for no tick, as at boot (R71, R75). -/
  restart : List (Nat × Bool)
  /-- Carrier of the migration in progress, its carrier tick E, its source and destination. -/
  migCarrier : Nat
  migE : Nat
  migSrc : Nat
  migDest : Nat
  /-- A fence hit a cluster of either panel during the copy (R83). -/
  migFault : Bool
  deriving DecidableEq, Repr

/-! ### Lacework (R89 to R121) -/

/-- A route table of one epoch: the physical cluster of each logical one (0x1F unmapped), and the
crossing row per injecting router and destination router of the other die (R99, R108). -/
structure Routes where
  lc : List Nat
  xrow : Tab Nat
  deriving DecidableEq, Repr

/-- Statistics of one local port (R116, R575). -/
structure NodeStat where
  bytes : Nat
  pkts : Nat
  np : Nat
  hist : List Nat
  tgtBytes : Nat
  tgtPkts : Nat
  deriving DecidableEq, Repr

/-- What a request waits for at a boundary router or an initiator's interface. -/
inductive HoldWhy where
  /-- Answered FENCED with this many flips on record (R17). -/
  | fenced (flips : Nat)
  /-- Behind or with a BARRIER (R97). -/
  | barrier
  /-- In the hold buffer of a closed domain (R111): a packet, or a request of DMA channel ch, which its engine goes on
  with. -/
  | wake (dom : Nat)
  | dma (dom ch : Nat)
  deriving DecidableEq, Repr

/-- The domain in whose hold buffer something waits. -/
def HoldWhy.domain : HoldWhy → Option Nat
  | .wake m => some m
  | .dma m _ => some m
  | _ => none

/-- The DMA channel whose request waits in a hold buffer. -/
def HoldWhy.channel : HoldWhy → Option Nat
  | .dma _ ch => some ch
  | _ => none

/-- A router's input buffer that holds units of a packet (R103): the input, 13 × router + input coded as LA, the
units there, and when the header entered it. -/
structure Segment where
  inp : Nat
  units : Nat
  at_ : Nat
  deriving DecidableEq, Repr

/-- A packet inside the routers. -/
structure Flight where
  pkt : Packet
  /-- Input buffers from the header's back to the last that holds or awaits units, and units not yet injected. -/
  trail : List Segment
  left : Nat
  /-- A flit of it has been poisoned (R92). -/
  poison : Bool
  /-- A response its destination router has passed on to the initiator's interface. -/
  taken : Bool
  /-- The posted request that a response answers with an error, where the interface keeps no record of it. -/
  req : Option Packet
  /-- The domain whose hold buffer the packet has come from (R113). -/
  wakeOf : Option Nat
  deriving DecidableEq, Repr

/-- A packet ready at a local port: a request, re-injected or not (R17), or a response, with the posted request
it answers. -/
inductive Ready where
  | request (p : Packet) (again : Bool)
  | response (p : Packet) (req : Option Packet)
  deriving DecidableEq, Repr

/-- A request whose response or acknowledgement has not arrived: LWK_EPOCH.FLIPS at injection, and whether it
was injected again after a FENCED answer (R17). -/
structure Waited where
  pkt : Packet
  flips : Nat
  again : Bool
  deriving DecidableEq, Repr

/-- Where the round robins of a router's output stand (R104): the response class granted last; the class of the
fourth group being served and the grants left of its weight. -/
structure Arbiter where
  rsp : Nat
  cls : Nat
  left : Nat
  deriving DecidableEq, Repr

def arbiter0 : Arbiter := ⟨5, 3, 0⟩

/-- Lacework: packets under way and packets held. -/
structure Lacework where
  /-- Packets inside the routers, in injection order, and packets ready at their local ports. -/
  flights : List Flight
  ready : List Ready
  /-- Requests whose response or acknowledgement has not arrived. -/
  outst : List Waited
  /-- Packets held. -/
  held : List (Packet × HoldWhy)
  /-- Moves made, for the order of arrival in a buffer; arbiters by 13 × router + output. -/
  moves : Nat
  arb : Tab Arbiter
  /-- The two route tables, epoch 0 and epoch 1 (R105). -/
  rt0 : Routes
  rt1 : Routes
  /-- A flip is requested (R107). -/
  flipWanted : Bool
  /-- The edge count, plus one, of the last flip (R77). -/
  flipAt : Nat
  /-- DRAINED has been found risen since packets of the non-current epoch were last under way (R106, R120). -/
  drained : Bool
  stat : Tab NodeStat
  snap : Tab NodeStat
  /-- Edges of the current statistics window (R117). -/
  statEdges : Nat
  /-- Poisoned flits per crossing in this base tick (R115). -/
  xlinkUe : Tab Nat
  /-- Corrected link errors since LWK_ECC_CE was read, for EV258. -/
  ceSince : Nat
  /-- LWK_ERR_HDR holds a header captured since LWK_ERR was last wholly clear (R121). -/
  captured : Bool
  /-- Records in the trace buffer since ARM last rose (R119). -/
  traced : Nat
  deriving DecidableEq, Repr

/-! ### Heath (R122 to R146) -/

/-- Tile states of R123. -/
inductive TileState where
  | free | opened | sealed | faulted
  deriving DecidableEq, Repr

/-- A tile header (R123). HCHK is recomputed at every change and not held (R124). -/
structure Tile where
  picot : Nat
  st : TileState
  gen : Nat
  ais : Bool
  mute : Bool
  prov : Bool
  forced : Bool
  slot : Nat
  carrier : Nat
  symbol : Nat
  format : Nat
  port : Nat
  kind : Bool
  first : Nat
  writer : Nat
  count : Nat
  erasures : Nat
  sealTick : Nat
  deriving DecidableEq, Repr

/-- Heath's control beside its registers. -/
structure Heath where
  /-- Mismatches counted per bank in the window (R141). -/
  cnt : Tab Nat
  /-- Bank groups that have raised their event in the window (R145). -/
  seen : Tab Bool
  /-- Banks to retire at the next base tick edge (R141). -/
  due : List Nat
  /-- The edge count at which the window opened, and the window's length. -/
  winOpen : Nat
  winLen : Nat
  /-- Retired banks, kept in the flash record (R141). -/
  retired : List Nat
  /-- Fault log entries written since reset, counted to 16 (R146). -/
  logged : Nat
  deriving DecidableEq, Repr

/-! ### Dispatcher (R338 to R368) -/

/-- States of a work item (R343). -/
inductive ItemState where
  | empty | waiting | ready | running | preempted | queued
  deriving DecidableEq, Repr

/-- A store entry of the Dispatcher: the copied descriptor (R338) and the item's life. -/
structure Item where
  st : ItemState
  gen : Nat
  panel : Nat
  cls : Nat
  glean : Bool
  nodue : Bool
  cmplRec : Bool
  prio : Nat
  eclass : Nat
  target : Nat
  carrier : Nat
  tag : Nat
  dur : Nat
  deps : Nat
  release : Nat
  due : Nat
  entry : Nat
  arg : Nat
  lcMask : Nat
  coreMask : Nat
  baseTick : Bool
  succ : List Nat
  relAddr : Nat
  relCount : Nat
  expAddr : Nat
  expCount : Nat
  /-- Level, checks counted at it, order of entry to READY, order of acceptance. -/
  level : Nat
  checks : Nat
  readySeq : Nat
  accSeq : Nat
  released : Bool
  /-- Record fields of R361. -/
  firstLevel : Nat
  ripens : Nat
  preempts : Nat
  floor : Bool
  deferred : Bool
  redisp : Bool
  overrun : Bool
  /-- It has been dispatched or placed at least once. -/
  started : Bool
  /-- Refused energy; not selected again in this base tick (R357). -/
  barred : Bool
  /-- Where it runs or waits: logical cluster at dispatch, physical cluster and core, or engine kind and number. -/
  atLc : Nat
  atCl : Nat
  atCore : Nat
  atEng : Nat
  startSeq : Nat
  deriving DecidableEq, Repr

/-- The Dispatcher beside its registers and items. -/
structure Dispatcher where
  /-- Order numbers handed out. -/
  seq : Nat
  /-- Panels that have made a floor dispatch in this tick (R356). -/
  floorDone : Tab Bool
  /-- DSP_HSUB_LO and _HI per requester (R341). -/
  hsubLo : Tab Nat
  hsubHi : Tab Nat
  /-- Edge between midpoint and edge: the tick has passed its midpoint. -/
  mid : Bool
  /-- Nanoseconds into the base tick at which the last check was made (R353). -/
  checkAt : Nat
  deriving DecidableEq, Repr

/-! ### Faults and events (R505 to R538) -/

/-- A fault record (R510). -/
structure FaultRec where
  cls : Nat
  action : Nat
  recurrence : Bool
  seq : Nat
  kind : Nat
  index : Nat
  core : Nat
  coreV : Bool
  lc : Nat
  addr : Nat
  req : Nat
  tick : Nat
  detail : Nat
  event : Nat
  deriving DecidableEq, Repr

/-- The swap being prepared in a quadrant (R519). -/
structure SwapPrep where
  old : Nat
  new : Nat
  lc : Nat
  deriving DecidableEq, Repr

/-- The fault manager beside its registers. -/
structure FaultMgr where
  queue : List FaultRec
  seq : Nat
  /-- Fenced physical clusters and fenced cores (8c + k). -/
  fencedCl : Tab Bool
  fencedCore : Tab Bool
  /-- Fenced and spared engines, by 256 × KIND + INDEX. -/
  fencedEng : Tab Bool
  sparedEng : Tab Bool
  /-- Engines whose release from a fence is requested. -/
  unfence : List Nat
  swap : List SwapPrep
  /-- The cluster a rotation moves toward at the next edge, the refusals it met, clusters moved to the
  front (R522), and when each cluster took its role. -/
  rotTo : Option Nat
  /-- The edge count at which the rotation in progress started (R522). -/
  rotAt : Nat
  early : List Nat
  roleSince : Tab Nat
  /-- Hayward on die 0 has been replaced by the replica (R524). -/
  promoted : Bool
  replicaLost : Bool
  /-- A heartbeat is missing and promotion is due at the next edge. -/
  promoteDue : Bool
  deriving DecidableEq, Repr

/-- MSI-X state of one endpoint (R506, R543). -/
structure Msix where
  enable : Bool
  fmask : Bool
  /-- Table entries: address, data, and mask bit (set after reset). -/
  addr : Tab Nat
  data : Tab Nat
  mask : Tab Bool
  pend : Tab Bool
  deriving DecidableEq, Repr

/-! ### Signal cores (R369 to R433) -/

/-- The register files of a core (R382 to R384, R410). -/
structure CoreRegs where
  d : Tab Word
  a : Tab Word
  n : Tab Word
  b : Tab Word
  l : Tab Word
  p : Tab Bool
  /-- Accumulators: real and imaginary part. -/
  ac : Tab (BitVec 40 × BitVec 40)
  v : Tab (BitVec 1024)
  vp : Tab (BitVec 128)
  deriving DecidableEq, Repr

/-- A write of one core register. -/
inductive CWrite where
  | d (i : Nat) (x : Word)
  | a (i : Nat) (x : Word)
  | n (i : Nat) (x : Word)
  | b (i : Nat) (x : Word)
  | l (i : Nat) (x : Word)
  | p (i : Nat) (x : Bool)
  | ac (i : Nat) (re im : BitVec 40)
  /-- The bits of a vector register that mask selects. -/
  | v (i : Nat) (x mask : BitVec 1024)
  | vp (i : Nat) (x mask : BitVec 128)
  deriving DecidableEq, Repr

/-- A far access of a core that waits (R373): a store, or the load of a stalled bundle, in slot 0 or 1. -/
structure FarReq where
  store : Bool
  slot : Nat
  addr : Nat
  len : Nat
  data : List Byte
  barrier : Bool
  verify : Bool
  prov : Bool
  cls : Nat
  tick : Nat
  /-- The handle of the item that made it. -/
  item : Option Nat
  /-- Retries made after ASLEEP, and after TARGET_ERR. -/
  asleep : Nat
  errs : Nat
  /-- Held until a route epoch flip after this count of flips (R17). -/
  fenced : Option Nat
  deriving DecidableEq, Repr

/-- Data a load of an uncommitted bundle has returned: its slot, its bytes, and what it sets at commit: PROV,
UNVER. -/
structure LoadRes where
  slot : Nat
  data : List Byte
  prov : Bool
  unver : Bool
  deriving DecidableEq, Repr

/-- A repeat level (R384): the body's first and last bundle addresses and the iterations left. -/
structure Loop where
  start : Nat
  stop : Nat
  count : Nat
  deriving DecidableEq, Repr

/-- A coprocessor operation (R397): FUNC, the parameter block's core address, W and I, and PROV of
the core at commit (R392). -/
structure CpOp where
  func : Nat
  block : Nat
  w : Bool
  i : Bool
  prov : Bool
  deriving DecidableEq, Repr

/-- What a vector unit's instruction left for chained and accumulating reads (R423, R424). -/
structure UnitRes where
  /-- 1 multiply, 2 add, 3 permute. -/
  unit : Nat
  dst : Nat
  wide : Bool
  /-- A chain distance exists. -/
  chains : Bool
  /-- Bundles committed since the one that held it. -/
  age : Nat
  value : BitVec 1024
  value2 : BitVec 1024
  deriving DecidableEq, Repr

/-- What a slot of a bundle does when the bundle commits. -/
inductive CEff where
  /-- A trap: stage 0 decode, 1 address; its code, DETAIL and address. -/
  | trap (stage code detail addr : Nat)
  /-- A register write readable n bundles later (R380). -/
  | wr (n : Nat) (w : CWrite)
  /-- A scalar load of size bytes at a core address. -/
  | load (slot addr size : Nat) (signed : Bool) (dst : Nat) (verify ue : Bool)
  /-- A scalar store at a core address. -/
  | store (slot addr : Nat) (bs : List Byte) (barrier : Bool)
  /-- A vector access of width w: active elements with their addresses and, of a store, their bytes. -/
  | vmem (slot : Nat) (store : Bool) (w : Nat) (els : List (Nat × Nat × List Byte)) (dst : Nat) (ue : Option Nat)
  /-- A corrected error met at a core address; rmw when the read half of a narrow store met it. -/
  | ce (addr pos : Nat) (rmw : Bool)
  | csrRead (num dst : Nat)
  | csrWrite (num : Nat) (v : Word)
  | branch (target : Nat) (taken : Bool)
  | loop (l : Loop) (skip : Bool)
  | eret
  | wait (ue : Bool)
  | fence
  | clrProv
  | cp (o : CpOp)
  | cpwait
  | claim (gl elem : Nat)
  | unit (u : UnitRes)
  /-- A CLASS 0xE instruction, and the active elements it accesses in memory. -/
  | vector (elements : Nat)
  deriving DecidableEq, Repr

/-- A saved frame (R394): everything of a core that a pre-emption saves. -/
structure Frame where
  item : Nat
  regs : CoreRegs
  csrs : List (Nat × Word)
  pc : Nat
  loops : List Loop
  mLoops : List Loop
  sLoops : List Loop
  vlive : Bool
  /-- A BUS_ASYNC of the item is pending; a far store of it has failed (R608). -/
  async : Bool
  failed : Bool
  deriving DecidableEq, Repr

/-- A signal core beside its CSRs. -/
structure Core where
  regs : CoreRegs
  pc : Nat
  /-- Delay slots still to run, the address after them, and whether the branch was taken (R382, R387). -/
  branch : Option (Nat × Nat × Bool)
  /-- Active repeat levels, innermost first, and those that the last trap to machine and to supervisor mode
  saved (R384, R387). -/
  loops : List Loop
  mLoops : List Loop
  sLoops : List Loop
  /-- Register writes not yet readable: bundles left and the write (R380). -/
  flight : List (Nat × CWrite)
  /-- The bundle being issued: open, whole, its slots so far, what they do, and what its loads have returned. -/
  opened : Bool
  whole : Bool
  slots : List Nat
  staged : List CEff
  got : List LoadRes
  units : List UnitRes
  /-- Bundles committed since the last trap, interrupt, ERET, save or restore (R424). -/
  since : Nat
  /-- The next bundle to commit is the first after an ERET or a restore (R431). -/
  resumed : Bool
  /-- Executing WAIT; halted by debug; halted by a nested machine check. -/
  waiting : Bool
  halted : Bool
  dead : Bool
  /-- Executes no bundle until its coprocessor operation completes (W of R397). -/
  cpWait : Bool
  /-- The item held, by store key; the READY item selected to pre-empt it; saved frames, newest
  first; a restore is ordered. -/
  item : Option Nat
  order : Option Nat
  frames : List Frame
  restore : Bool
  /-- The load of a stalled bundle, and stores not yet acknowledged. -/
  load : Option FarReq
  stores : List FarReq
  /-- A far store of the item has failed (R608); a CX_DONE status held for stores. -/
  failed : Bool
  done : Option Nat
  /-- The queue slot of the coprocessor (R403), the operation of this core that runs, and the order of commit. -/
  cp : Option CpOp
  cpRun : Option CpOp
  cpSeq : Nat
  /-- The cycle counter and the programmable counters (R567); a debug step is under way (R578). -/
  cyc : Nat
  hpm : Tab Nat
  step : Bool
  /-- The bundle at the PC runs past its breakpoint: the core has just been resumed or stepped. -/
  pass : Bool
  deriving DecidableEq, Repr

def coreRegs0 : CoreRegs := ⟨[], [], [], [], [], [], [], [], []⟩

/-- A core after reset: every register 0, at address 0, idle at WAIT and holding nothing. -/
def core0 : Core where
  regs := coreRegs0
  pc := 0
  branch := none
  loops := []
  mLoops := []
  sLoops := []
  flight := []
  opened := false
  whole := false
  slots := []
  staged := []
  got := []
  units := []
  since := 0
  resumed := false
  waiting := true
  halted := false
  dead := false
  cpWait := false
  item := none
  order := none
  frames := []
  restore := false
  load := none
  stores := []
  failed := false
  done := none
  cp := none
  cpRun := none
  cpSeq := 0
  cyc := 0
  hpm := []
  step := false
  pass := false

/-! ### Engine queues (R217, R240, R276, R303) -/

/-- A command on an engine's queue: the work item's store key, the 64-byte command, and whether the
Dispatcher has told the engine that its due edge has occurred (R359); how much of it a Fourier engine has run,
in antenna-symbols or repetitions of an antenna, and the erasures met so far. A Fourier command that has started keeps the
command, the antenna table and the lists it fetched. -/
structure QCmd where
  item : Nat
  cmd : List Byte
  lists : List (List Nat)
  expired : Bool
  started : Bool
  done : Nat
  eras : Nat
  deriving DecidableEq, Repr

/-- A completion an engine reports: item, status of R361, erasures. -/
structure Completion where
  item : Nat
  status : Nat
  eras : Nat
  deriving DecidableEq, Repr

/-- An engine or FEC group as the Dispatcher sees it. -/
structure Engine where
  queue : List QCmd
  fin : List Completion
  deriving DecidableEq, Repr

def engine0 : Engine := ⟨[], []⟩

/-! ### Uplink front end (R209 to R239) -/

/-- An AGC entry beside FFE_AGC_STATE (R219 to R223). -/
structure Agc where
  /-- Gains of the last 28 symbols, newest first, in quarter dB; the oldest is INIT_GAIN until 28 are kept. -/
  hist : List Int
  /-- A release waits for the next step. -/
  rel : Bool
  /-- The last symbol of the occasion whose fire set the PRACH hold: slot (16 bits) and symbol. -/
  prach : Option (Nat × Nat)
  /-- The PRACH hold is in force: a release lifts it until the step after its own (R223). -/
  held : Bool
  /-- Slot and symbol of the last step. -/
  at_ : Nat × Nat
  deriving DecidableEq, Repr

def agc0 : Agc := ⟨[], false, none, false, (0, 0)⟩

/-- A detection of the trigger pipe (R231). -/
structure Peak where
  pre : Nat
  delay : Nat
  metric : Nat
  deriving DecidableEq, Repr

/-- The accumulator of one antenna of an occasion (R228): repetitions added, the gain its sum stands at, and the sum of
each sequence subcarrier. -/
structure AntSum where
  reps : Nat
  gain : Option Int
  vals : List (Int × Int)
  deriving DecidableEq, Repr

/-- An occasion in an accumulator of a preamble engine (R227, R228). -/
structure Occasion where
  item : Nat
  cmd : List Byte
  /-- The roots of ROOT_LIST, the antennas' sums, the erased tiles. -/
  roots : List Nat
  acc : List AntSum
  eras : Nat
  reps : Nat
  /-- Repetitions at the last trigger evaluation, the detection D, and superseded preambles. -/
  trigAt : Nat
  det : Option Peak
  sup : List Nat
  clipRel : Nat
  deriving DecidableEq, Repr

/-! ### Matrix engines and channel coding (R240 to R303) -/

/-- An entry that was given ITER 1, as the loop unit of a matrix engine keeps it (R265, R266). -/
structure LoopEnt where
  me : Nat
  carrier : Nat
  entry : Nat
  slot : Nat
  eligible : Bool
  /-- The command and its allocation table. -/
  cmd : List Byte
  tab : List Byte
  /-- Outer passes run. -/
  runs : Nat
  /-- The tiles of the latest decoder output of each code block (R267, R298). -/
  xt : Tab (List Nat)
  /-- The loop has ended. -/
  done : Bool
  deriving DecidableEq, Repr

/-- Where a code block of an open decode command stands (R279 to R285, R297). -/
inductive CbState where
  /-- No doorbell of this pass has matched. -/
  | waiting
  | queued (arrival : Nat)
  /-- On an engine, with what the decode will answer: iterations, and whether it satisfies. -/
  | decoding (engine : Nat)
  /-- In the check unit's queue. -/
  | checking
  | confirmed
  /-- Unsatisfied in its last pass, and the loop has not ended. -/
  | unsatisfied
  /-- Ended without CONFIRM. -/
  | failed
  deriving DecidableEq, Repr

/-- A code block of an open decode command. -/
structure CodeBlock where
  st : CbState
  iters : Nat
  satisfied : Bool
  erased : Nat
  /-- The pass that satisfied it, and the SEQ of its PROVISIONAL record, when one was written. -/
  pass : Nat
  seq : Option Nat
  /-- A PROVISIONAL record stands without CONFIRM or RETRACT. -/
  open_ : Bool
  /-- The combined LLRs its decoder works on (R295), and its decided bits with their CRC. -/
  soft : List Int
  bits_ : List Bool
  deriving DecidableEq, Repr

def codeBlock0 : CodeBlock := ⟨.waiting, 0, false, 0, 0, none, false, [], []⟩

/-- An open decode command (R277 to R300). -/
structure FecCmd where
  item : Nat
  cmd : List Byte
  cbs : List CodeBlock
  pass : Nat
  /-- The node whose doorbells fed the pass (R297). -/
  feeder : Nat
  /-- Waiting for the loop unit (R297). -/
  wait : Bool
  /-- A job has started; the soft buffer has been read. -/
  started : Bool
  sbRead : Bool
  /-- VALID bits and TXCOUNT of a valid soft buffer. -/
  sbValid : Nat
  sbTx : Nat
  sbLost : Bool
  provLost : Bool
  xDenied : Bool
  llrTiles : List Nat
  outTiles : List Nat
  ollrTiles : List Nat
  xtTiles : List Nat
  /-- The cause of the first block to fail (R289), 0 while none has. -/
  cause : Nat
  deriving DecidableEq, Repr

/-- An FEC group beside its registers. -/
structure FecGroup where
  cmds : List FecCmd
  /-- The doorbell store, oldest first: source node and INLINE (R278). -/
  store : List (Nat × Nat)
  /-- Doorbells matched so far; the next SEQ of the provisional ring. -/
  arrivals : Nat
  seq : Nat
  /-- Blocks waiting in the check unit: item and block. -/
  checkQ : List (Nat × Nat)
  /-- Completion records held (R289). -/
  held : List (List Byte)
  deriving DecidableEq, Repr

def fecGroup0 : FecGroup := ⟨[], [], 0, 0, [], []⟩

/-! ### Timing and Beam Control Ports (R327 to R335) -/

/-- A port beside its registers: slot and symbol of the pending swap, the address pins, and what DATA
drives. -/
structure Tbcp where
  swap : Option (Nat × Nat)
  addr : Nat
  data : Word
  /-- SEL changes at the next rising edge, without a strobe or with one (R331). -/
  due : Option Bool
  /-- EN as the port clock has last sampled it (R335). -/
  live : Bool
  deriving DecidableEq, Repr

def tbcp0 : Tbcp := ⟨none, 0, 0, none, false⟩

/-! ### DMA channels (R434 to R453) -/

/-- A DMA channel beside its registers. -/
structure Dma where
  /-- The descriptor in progress, none when there is none; its source and destination tile lists. -/
  desc : Option (List Byte)
  slist : List Byte
  dlist : List Byte
  /-- Units left of the burst in progress; 0 when none is. -/
  left : Nat
  /-- Destination tile entries that are open, each with the CRC register of what was written to it (R442), and those among
  them with the AIS mark. -/
  opened : List (Nat × Nat)
  ais : List Nat
  /-- Source tiles read: entry, payload, and whether it is a zero tile. -/
  src : List (Nat × List Byte × Bool)
  /-- A shadow has been written since the last hand-over. -/
  written : Bool
  /-- A request waits for its retry; the retries made after ASLEEP, after TARGET_ERR. -/
  stalled : Bool
  asleep : Nat
  errs : Nat
  /-- The request has been held FENCED once (R17). -/
  fenced : Bool
  /-- The descriptor that follows one that failed at its start; it starts at the engine's next grant. -/
  again : Option Nat
  /-- The base tick edge at which the channel made its last hand-over of an edge (R449). -/
  edgeOver : Option Nat
  deriving DecidableEq, Repr

def dma0 : Dma := ⟨none, [], [], 0, [], [], [], false, false, 0, 0, false, none, none⟩

/-! ### Lanes and framers (R147 to R208) -/

/-- A candidate of basic-frame alignment (R181): position modulo B, expected BFN, hits. -/
structure Cand where
  pos : Nat
  bfn : Nat
  hits : Nat
  deriving DecidableEq, Repr

/-- A basic frame of a lane group member, received (R198). -/
structure RxFrame where
  /-- (SFN × 20 + MFN) × 1500 + BFN, and when its block 0 arrived, in nanoseconds from TICK 0. -/
  num : Nat
  at_ : Nat
  payload : List Nat
  bad : Bool
  ovhd : Option Nat
  deriving DecidableEq, Repr

/-- A radio, twin or network lane beside its registers. -/
structure Lane where
  /-- The last 64 headers, newest first, true when invalid; the count in HUNT. -/
  hist : List Bool
  hunt : Nat
  /-- The last 58 payload bits received, and sent, the newest in bit 0 (R152). -/
  line : Nat
  tx : Nat
  /-- Invalid headers in this base tick; base ticks in a row above the limit; clean ones in training; block lock has not
  been held through the whole of this base tick (R164). -/
  bad : Nat
  badTicks : Nat
  clean : Nat
  broke : Bool
  /-- Positions of the CTLE and DFE settings (R162). -/
  eq : List Nat
  /-- The pattern checker's last 31 bits, the newest in bit 0 (R170). -/
  prbs : Nat
  /-- Filet: blocks between the PCS and the framer, with the errored mark and the arrival in nanoseconds from TICK 0
  (R160). -/
  fifo : List (Nat × Bool × Nat)
  /-- ETH_25: headers and payloads in the elastic buffer; the receive state of the PCS (0 idle, 1 in a frame, 2 frame just
  ended, 3 error); the frame in progress carries an error (R154, R161). -/
  eb : List (Nat × Nat)
  pcs : Nat
  spoilt : Bool
  /-- ETH_25: invalid headers and base ticks of the hi_ber window, and hi_ber (R154). -/
  ber : Nat
  berTicks : Nat
  hiBer : Bool
  /-- Stamp of the last frame's start at the PCS, and of the delay request last sent (R52, R202). -/
  stamp : Nat
  asked : Nat
  /-- The attempt under way is a recovery attempt (R166). -/
  recovering : Bool
  /-- Position of the next data block, modulo B. -/
  pos : Nat
  sync : Bool
  mf : Bool
  cands : List Cand
  /-- Barred positions, oldest first (R182). -/
  bars : List Nat
  base : Nat
  bfn : Nat
  miss : Nat
  /-- Counts of the current multiframe, once known; expected or previous counts; the previous
  multiframe was consistent; boundaries since SYNC; inconsistent ones in a row. -/
  count : Option (Nat × Nat)
  exp : Option (Nat × Nat)
  prevOk : Bool
  bounds : Nat
  badMf : Nat
  /-- Payload blocks of the basic frame so far, with the errored mark; its block 1 when CRC8 checks. -/
  frame : List (Nat × Bool)
  ovhd : Option Nat
  /-- Frames kept for the lane's group; visits until a miswired member is usable again (R200). -/
  frames : List RxFrame
  miswired : Nat
  /-- The basic frame in progress began before alignment and is not delivered (R184); the payload
  scrambler's register (R179). -/
  skip : Bool
  scr : Nat
  deriving DecidableEq, Repr

def lane0 : Lane where
  hist := []
  hunt := 0
  line := 0
  tx := 0
  bad := 0
  badTicks := 0
  clean := 0
  broke := false
  eq := []
  prbs := 0
  fifo := []
  eb := []
  pcs := 0
  spoilt := false
  ber := 0
  berTicks := 0
  hiBer := false
  stamp := 0
  asked := 0
  recovering := false
  pos := 0
  sync := false
  mf := false
  cands := []
  bars := []
  base := 0
  bfn := 0
  miss := 0
  count := none
  exp := none
  prevOk := false
  bounds := 0
  badMf := 0
  frame := []
  ovhd := none
  frames := []
  miswired := 0
  skip := false
  scr := 0

/-- A downlink tile at or past its send point (R308): the air half-subframe it belongs to, as SFN × 20 + MFN, the first of
its units after that half-subframe's mark and how many they are (R191), unit bytes, whether it has arrived, whether it is sent as
zeros with MUTE. -/
structure DlTile where
  half : Nat
  start : Nat
  n : Nat
  bytes : List Byte
  arrived : Bool
  mute : Bool
  deriving DecidableEq, Repr

/-- A measured symbol of an uplink container: its half-subframe and place there, the sum of its samples' powers, how many they
are, and whether any was AIS (R219). -/
structure SymEnd where
  half : Nat
  sym : Nat
  sum : Nat
  n : Nat
  ais : Bool
  deriving DecidableEq, Repr

/-- The PRB groups of one symbol received over Ethernet (R205). -/
structure EthSym where
  slot : Nat
  sym : Nat
  prbs : List (Nat × List Byte)
  deriving DecidableEq, Repr

/-- A framer container beside its registers. -/
structure Ctr where
  /-- Uplink: the burst being filled, bit i of flags for all ones in its 64-byte unit i, and the queue of
  64-byte units with that mark; none is a unit of a dropped burst's marker (R436). -/
  acc : List Byte
  flags : Nat
  queue : List (Option (List Byte × Bool))
  /-- Pointer machine: the last PTR and how many visits carried it; mismatches in a row; announcements
  of the opportunity; pointer change due; PTR_JUMP in this multiframe (R193, R194). -/
  ptr : Nat
  run : Nat
  mism : Nat
  votes : List Nat
  delta : Int
  jump : Bool
  /-- Units more than nominal that justifications have added to this multiframe (R192). -/
  adj : Int
  /-- The air half-subframe that the next unit of the stream belongs to and its place after that half-subframe's mark; none
  while the stream waits for its first mark (R190). -/
  half : Option Nat
  pos : Nat
  /-- The symbol under measurement, and measured ones whose step has not been taken (R219). -/
  sum : Nat
  n : Nat
  ais : Bool
  ends : List SymEnd
  /-- Downlink tiles; tiles that were late and whose data will be dropped; basic frames since a muted
  unit was sent (R191, R308). -/
  dl : List DlTile
  late : Nat
  muteAge : Nat
  /-- Ethernet: next SEQ_ID expected and to send, and symbols received. -/
  rxSeq : Option Nat
  txSeq : Nat
  syms : List EthSym
  deriving DecidableEq, Repr

def ctr0 : Ctr where
  acc := []
  flags := 0
  queue := []
  ptr := 0
  run := 0
  mism := 0
  votes := []
  delta := 0
  jump := false
  adj := 0
  half := none
  pos := 0
  sum := 0
  n := 0
  ais := false
  ends := []
  dl := []
  late := 0
  muteAge := 32
  rxSeq := none
  txSeq := 0
  syms := []

/-- A lane group: its last condition (coded as FIL_GRP_STATUS.STATE) and how many basic frames it has held. -/
structure LaneGroup where
  cond : Nat
  run : Nat
  skew : Nat
  frames : Nat
  deriving DecidableEq, Repr

def laneGroup0 : LaneGroup := ⟨0, 0, 0, 0⟩

/-! ### The twin link (R526 to R535) -/

/-- The twin engine beside its registers. Cells are 72 bytes, with the group they travel on. -/
structure Twin where
  tx : List (Nat × List Byte)
  rx : List (Nat × List Byte)
  /-- Next SEQ per group and type, 16 × group + type. -/
  seq : Tab Nat
  /-- Message queues per die: received bytes in 64-byte pieces with the end mark, and pieces to send. -/
  msgRx : Tab (List (List Byte × Bool))
  msgTx : Tab (List (List Byte × Bool))
  /-- Lines staged per group, a soft-buffer line at its address plus 1; the COMMIT each group has received and
  not yet applied: TICK, lines staged before it, and whether its count matched; staging has overflowed. -/
  stage : Tab (List (Nat × List Byte))
  commits : Tab (Option (Nat × Nat × Bool))
  bad : Bool
  /-- Lines still to send for the epoch under way, soft-buffer lines at their address plus 1; MIRROR cells sent
  per group in it; whether one is under way, and the TICK of its edge; soft-buffer lines written since. -/
  lines : List Nat
  sent : Tab Nat
  sending : Bool
  epochTick : Nat
  soft : List Nat
  /-- A full pass is wanted; TICK at which the last began; TICKs of the last COMMIT sent and the one before. -/
  full : Bool
  fullAt : Nat
  sentCommit : Nat
  prevCommit : Nat
  /-- TICK of the last COMMIT applied. -/
  applied : Nat
  /-- LEVEL in force. -/
  level : Nat
  /-- ACTIVE_SINCE and TICK of the last COMMIT the partner applied, from its last HEARTBEAT. -/
  peerSince : Nat
  peerCommit : Nat
  /-- Takeover at the next edge; stepping down at the next edge; a FATAL record has occurred. -/
  fatal : Bool
  /-- Level of TWIN_HB_OUT. -/
  hbOut : Bool
  /-- Since the last HEARTBEAT cell and the last TWIN_HB_IN edge the timeout has passed. -/
  cellSilent : Bool
  pinSilent : Bool
  deriving DecidableEq, Repr

def twin0 : Twin where
  tx := []
  rx := []
  seq := []
  msgRx := []
  msgTx := []
  stage := []
  commits := []
  bad := false
  lines := []
  sent := []
  sending := false
  epochTick := 0
  soft := []
  full := false
  fullAt := 0
  sentCommit := 0
  prevCommit := 0
  applied := 0
  level := 1
  peerSince := 0
  peerCommit := 0
  fatal := false
  hbOut := false
  cellSilent := true
  pinSilent := true

/-! ### DRAM (R454 to R478) -/

/-- The DRAM controller beside its registers. -/
structure Dram where
  /-- Requests waiting per channel, oldest first (R460). -/
  queue : Tab (List Packet)
  /-- Channels whose retraining is due, retraining slices run, edge counts of recent uncorrectable
  errors (R465). -/
  due : List Nat
  slices : Tab Nat
  ues : Tab (List Nat)
  /-- The redirected channel in force at the injecting routers; 7 none (R466). -/
  redirect : Nat
  /-- Bursts written back as unreadable (R475). -/
  unread : List Nat
  /-- Entries ever written to DRC_UE_LOG. -/
  logged : Nat
  /-- The channel of the repair window; bank groups whose repair resource is used, channel × 8 + group. -/
  ppr : Nat
  used : List Nat
  /-- What the channel's state was when the window opened. -/
  pprWas : Nat
  deriving DecidableEq, Repr

/-! ### Power domains (R495 to R502) -/

/-- The power controller, the heat and voltage controls beside their registers. -/
structure Power where
  /-- Domains with a latched edge-type wake or a wake request (R111, R499). -/
  edge : List Nat
  /-- Consecutive transactions each regulator has not acknowledged; regulators whose gain is held (R494). -/
  nacks : Tab Nat
  /-- Consecutive surplus measurements, and measurements since VDD_CORE was last lowered (R493). -/
  surplus : Nat
  lowered : Nat
  /-- Ring oscillator counts of the last window (R493). -/
  osc : Tab Nat
  /-- THERMTRIP_N is asserted: clocks stopped and transmitters off (R490). -/
  trip : Bool
  deriving DecidableEq, Repr

/-! ### Energy (R479 to R504) -/

/-- The energy ledger and the controls beside their registers. Energies in nJ. -/
structure Ledger where
  /-- What remains of D. -/
  d : Nat
  /-- M of the last ticks, newest first, at most eight. -/
  ms : List Int
  /-- Granted in this tick, by 32 × KIND + panel; refused in this tick, by KIND. -/
  granted : Tab Nat
  refused : Tab Nat
  /-- Shed stages a new pricking installs at the next edge. -/
  newStages : Option (List Nat)
  wearOut : Bool
  /-- Base ticks of VDD_CORE up not yet a second; base ticks above not yet 10 ms. -/
  opsTicks : Nat
  aboveTicks : Nat
  /-- Estimator gain per rail, in parts per thousand. -/
  gainCore : Int
  gainSram : Int
  deriving DecidableEq, Repr

/-! ### Hosts, network, boot (R539 to R566) -/

/-- A Lacework request an endpoint made of a TLP and retries after ASLEEP (R541). -/
structure HostReq where
  write : Bool
  addr : Nat
  len : Nat
  data : List Byte
  tries : Nat
  /-- It has been held FENCED once (R17). -/
  fenced : Bool
  deriving DecidableEq, Repr

/-- A host port: its link, its transmitters, and requests to be retried. -/
structure HostPort where
  linkUp : Bool
  txOn : Bool
  retry : List HostReq
  deriving DecidableEq, Repr

/-- A mailbox command in progress or finished: host, CODE, SEQ, arguments; whether the fuses or the flash do
what it asks, and the facts of a boot it starts; its response is discarded after an FLR; STATUS and DATA
once known. -/
structure MbxCmd where
  host : Nat
  code : Nat
  seq : Nat
  args : List Nat
  ok : Bool
  boot : BootFacts
  drop : Bool
  done : Option (Nat × List Nat)
  deriving DecidableEq, Repr

/-- A boot set of the flash: generation, Hayward image and whole-device pricking (R554). -/
structure FlashSet where
  gen : Nat
  image : List Byte
  pricking : List Byte
  deriving DecidableEq, Repr

/-- The flash record (R557). -/
structure FlashRec where
  banks : List Nat
  clusters : Nat
  engines : Tab Bool
  repairs : List Nat
  wearOps : Nat
  wearAbove : Nat
  deriving DecidableEq, Repr

def flashRec0 : FlashRec := ⟨[], 0, [], [], 0, 0⟩

/-- Hayward, the flash and the fuses. -/
structure Hayward where
  setA : Option FlashSet
  setB : Option FlashSet
  record : FlashRec
  /-- Soft repairs in force (R476); the record differs from what the flash holds. -/
  repairs : List Nat
  dirty : Bool
  /-- Key slots: digest, none while unprogrammed; revoked slots; the fused minimum security version (R63, R64). -/
  keys : Tab (Option (List Byte))
  revoked : List Nat
  minSec : Nat
  /-- The 4 MiB staging buffer (R68, R556); host boot phases accepted; generation booted. -/
  stage : Tab Byte
  phase : Nat
  gen : Nat
  /-- Mailbox commands in order of arrival (R558). -/
  mbx : List MbxCmd
  /-- SSM codes received per port; code sent and its port mask (R559). -/
  ssmRx : Tab Nat
  ssmTx : Nat
  ssmMask : Nat
  /-- The removal step reached, 0 while none; the edge count when step 2 began (R562). -/
  removal : Nat
  removeAt : Nat
  /-- READY_TO_REMOVE_N is asserted. -/
  ready : Bool
  /-- The level of POR_N (R556, R583), and the BOARD payload of the image booted (R555). -/
  porN : Bool
  board : List Byte
  deriving DecidableEq, Repr

/-- A transmit stamp (R551). -/
structure TxStamp where
  tag : Nat
  sec : Nat
  ns : Nat
  deriving DecidableEq, Repr

/-- The network ports beside their registers. Queues by 8 × die + queue, in 64-byte units. -/
structure Net where
  rx : Tab (List (List Byte))
  tx : Tab (List (List Byte))
  /-- Units for which the receive line has been raised; room freed not yet announced. -/
  rxLine : Tab Nat
  txFreed : Tab Nat
  /-- Units of the frame under way still to be pushed, and units still to be discarded. -/
  txLeft : Tab Nat
  txSkip : Tab Nat
  stamps : Tab (List TxStamp)
  deriving DecidableEq, Repr

/-! ### Counters, telemetry and the test port (R567 to R579, R592 to R595) -/

/-- A cluster's dump: SEQ of the next snapshot, DROPS and SKIPPED of the next record, in Heath the records
of the tile being filled and whether it was opened, and the cluster's role as the last base tick edge found it
(R571 to R574). -/
structure Dump where
  seq : Nat
  fill : Nat
  drops : Nat
  skipped : Nat
  tileOk : Bool
  lc : Nat
  deriving DecidableEq, Repr

def dump0 : Dump := ⟨0, 0, 0, 0, false, 0x1F⟩

/-- What the telemetry collector gathers over a millisecond (R577): the 16 counts, largest Tj per quadrant,
highest thermal state and shed level, sums of E and G, requests refused, ticks with MAND_OVER; once the
millisecond is over, its TICK, the wear balance and VSET. -/
structure TlmMs where
  counts : Tab Nat
  tj : Tab Int
  tstate : Nat
  level : Nat
  e : Nat
  g : Nat
  refused : Nat
  mandOver : Nat
  tick : Nat
  bal : Nat
  vset : Nat
  deriving DecidableEq, Repr

/-- The largest Tj of a quadrant before any sample: the lowest a sensor can report. -/
def tj0 (_ : Nat) : Int := -2048

def tlmMs0 : TlmMs := ⟨[], [], 0, 0, 0, 0, 0, 0, 0, 0, 0⟩

/-- The telemetry collector: SEQ, records lost since the last one written, the millisecond under way and the
last one that ended (R576). -/
structure Tlm where
  seq : Nat
  lost : Nat
  now : TlmMs
  last : TlmMs
  deriving DecidableEq, Repr

def tlm0 : Tlm := ⟨0, 0, tlmMs0, tlmMs0⟩

/-- The test access port: the instruction, the selected data register as captured, what the boundary
register's update stage holds, the DBG_LWK request that is outstanding, and its response. -/
structure Tap where
  ir : Nat
  dr : Nat
  boundary : Nat
  busy : Bool
  resp : Option (Nat × Nat)
  /-- A DBG_LWK request held FENCED (R17). -/
  held : Option Nat
  deriving DecidableEq, Repr

/-- The test port after its reset: IDCODE is selected (R593). -/
def tap0 : Tap := ⟨0x01, 0, 0, false, none, none⟩

/-! ### Outputs -/

/-- A Lacework answer: RESP code (R94), INLINE, PROV and VERIFY bits, data bytes. -/
structure Resp where
  code : Nat
  inl : Nat
  prov : Bool
  verify : Bool
  data : List Byte
  deriving DecidableEq, Repr

/-- The Ethernet header of a message sent on an ETH_25 lane: addresses and tag (R187). -/
structure EthHdr where
  dst : Nat
  src : Nat
  tci : Option Nat
  deriving DecidableEq, Repr

/-- What leaves the device, oldest first (log entry 9). -/
inductive Out where
  /-- An MSI-X message on host 0 or 1 of a vector. -/
  | msix (host vec : Nat)
  /-- A register read's answer to a requester. -/
  | regRead (who : Nat) (off : Nat) (v : Nat)
  /-- A target's answer to the node that asked. -/
  | resp (node : Nat) (r : Resp)
  /-- A basic frame sent on a lane and the fillers after it: the stamp of its block 0, and headers and payloads as the line
  carries them (R52, R152, R158, R174), or the test pattern in its place (R170). -/
  | frame (lane stamp : Nat) (blocks : List (Nat × Nat))
  | prbs (lane : Nat)
  /-- A U-plane message on an ETH_25 lane: stamp, header, eAxC ID, SEQ_ID, slot and symbol, and a section: its first PRB,
  compression header and PRB groups (R203, R206). -/
  | uplane (lane stamp : Nat) (hdr : EthHdr) (eaxc seq slot sym start comp : Nat) (prbs : List (List Byte))
  /-- A C-plane message of a slot: a section of type 1 with its beam, by index or by the weights of extension 1 (R203,
  R206). -/
  | cplane (lane stamp : Nat) (hdr : EthHdr) (eaxc seq slot : Nat) (beam : Nat ⊕ Nat)
  /-- A frame sent on a network port, with its tag and its transmit time when it asked for one (R549). -/
  | net (port : Nat) (tci : Option Nat) (bytes : List Byte) (oneStep : Bool)
  /-- The test pattern on the lanes of a network port in place of a frame (R170). -/
  | netPrbs (port : Nat)
  /-- A frame handed to Hayward's PTP and ESMC software, with its receive stamp (R52, R551). -/
  | hayward (port stamp : Nat) (bytes : List Byte)
  /-- A completion of a host read, with its data or aborted (R541). -/
  | tlp (host : Nat) (abort : Bool) (data : List Byte)
  /-- The answer of a queue window or a message window, with INLINE [0] (R527, R548). -/
  | window (node : Nat) (data : List Byte) (last : Bool)
  /-- A type 5 one-way delay message with its action and its stamp (R202). -/
  | delay (lane action stamp : Nat)
  /-- What a data register of the test port captured (R592, R594). -/
  | tdo (bits : Nat)
  /-- The balls as a test instruction leaves them: the instruction, and the boundary register's update stage (R595). -/
  | balls (ir boundary : Nat)
  deriving DecidableEq, Repr

/-! ### What an unlisted entry of a table reads as -/

/-- A tile header after power-on: FREE, generation 0, every other field 0 (R140). -/
def tile0 : Tile := ⟨0, .free, 0, false, false, false, false, 0, 0, 0, 0, 0, false, 0, 0, 0, 0, 0⟩

/-- An empty store entry. -/
def item0 : Item where
  st := .empty
  gen := 0
  panel := 0
  cls := 0
  glean := false
  nodue := false
  cmplRec := false
  prio := 0
  eclass := 0
  target := 0
  carrier := 0
  tag := 0
  dur := 0
  deps := 0
  release := 0
  due := 0
  entry := 0
  arg := 0
  lcMask := 0
  coreMask := 0
  baseTick := false
  succ := []
  relAddr := 0
  relCount := 0
  expAddr := 0
  expCount := 0
  level := 0
  checks := 0
  readySeq := 0
  accSeq := 0
  released := false
  firstLevel := 0
  ripens := 0
  preempts := 0
  floor := false
  deferred := false
  redisp := false
  overrun := false
  started := false
  barred := false
  atLc := 0
  atCl := 0
  atCore := 0
  atEng := 0
  startSeq := 0

/-- Statistics of a port that has counted nothing. -/
def stat0 : NodeStat := ⟨0, 0, 0, List.replicate 16 0, 0, 0⟩

/-- The word a register holds after reset (R7); an offset that no table lists reads 0. -/
def regReset (off : Nat) : Word :=
  match regBlocks.find? (fun b => decide (b.1 ≤ off) && decide (off ≤ b.2.1)) with
  | none => 0
  | some b =>
    match b.2.2.find? (fun r => r.holds off) with
    | none => 0
    | some r => r.resetWord

/-! ### The device -/

/-- Everything of the device but the queue of commands. -/
structure Device where
  regs : Tab Word
  mem : List Host.Cell
  tiles : Tab Tile
  time : TimeBase
  pkl : Loader
  lwk : Lacework
  heath : Heath
  items : Tab Item
  dsp : Dispatcher
  flt : FaultMgr
  msixA : Msix
  msixB : Msix
  hostA : HostPort
  hostB : HostPort
  hwd : Hayward
  net : Net
  ledger : Ledger
  power : Power
  dram : Dram
  /-- Cores by 8c + k; engine queues by 256 × TARGET + number (R338). -/
  cores : Tab Core
  engines : Tab Engine
  /-- AGC entries by 512q + e. -/
  agc : Tab Agc
  /-- Latched schedule masks by 2 × carrier + slot mod 2: slot (16 bits) plus one, and mask (R221). The slot plus one in
  which a Fourier engine last set CLIP_SCHED (R222). -/
  sched : Tab (Nat × Nat)
  clipSlot : Tab Nat
  /-- Occasions of preamble engine 0 to 3, oldest first, at most two each. -/
  occs : Tab (List Occasion)
  /-- Doorbells posted and not yet delivered: destination node, source node, INLINE. -/
  bells : List (Nat × Nat × Nat)
  loops : List LoopEnt
  fec : Tab FecGroup
  tbcp : Tab Tbcp
  /-- DMA channels by 32e + c; lanes; framer containers by 32 × lane + CID; lane groups, 16 + d for twin
  group d. -/
  dmas : Tab Dma
  lanes : Tab Lane
  ctrs : Tab Ctr
  groups : Tab LaneGroup
  twin : Twin
  /-- Lines written in mirrored regions since the last epoch edge (R528). -/
  marks : List Nat
  /-- Dumps by cluster; CSR halves latched by a read, by 2^26 × requester number + the offset of the LO register
  (R569). -/
  dumps : Tab Dump
  csrLatch : Tab Nat
  tlm : Tlm
  tap : Tap
  /-- Free values drawn so far (log entry 4). -/
  free : Nat
  out : List Out
  deriving DecidableEq, Repr

/-! ### After power-on reset of PD_AON (R7, R15, R40, R140, R335, R482, R583) -/

def time0 : TimeBase where
  sec := 0
  ns := 0
  frac := 0
  tick := 0
  edges := 0
  skip := false
  good := 0
  freqs := []
  baseFreq := 0
  stayStarted := false
  step := none
  frame := none
  latchHi := []
  latchSec := []
  heldStarts := []
  tlv := []
  ppsOut := false
  run := 0
  ppsAt := 0
  own := false

def loader0 : Loader where
  buf := []
  fetchOk := false
  staged := none
  req := 0
  active := []
  whole := []
  routes := none
  panelId := []
  cmd := .none
  stopped := false
  applied := false
  restart := []
  migCarrier := 0
  migE := 0
  migSrc := 0
  migDest := 0
  migFault := false

/-- The identity map of R15, and the rows of R108 that no section names. -/
def routes0 : Routes := ⟨List.range 20, []⟩

def lacework0 : Lacework where
  flights := []
  ready := []
  outst := []
  held := []
  moves := 0
  arb := []
  rt0 := routes0
  rt1 := routes0
  flipWanted := false
  flipAt := 0
  drained := true
  stat := []
  snap := []
  statEdges := 0
  xlinkUe := []
  ceSince := 0
  captured := false
  traced := 0

def msix0 : Msix := ⟨false, false, [], [], [], []⟩

def host0 : HostPort := ⟨false, false, []⟩

def faultMgr0 : FaultMgr where
  queue := []
  seq := 0
  fencedCl := []
  fencedCore := []
  fencedEng := []
  sparedEng := []
  unfence := []
  swap := []
  rotTo := none
  rotAt := 0
  early := []
  roleSince := []
  promoted := false
  replicaLost := false
  promoteDue := false

def hayward0 : Hayward where
  setA := none
  setB := none
  record := flashRec0
  repairs := []
  dirty := false
  keys := []
  revoked := []
  minSec := 0
  stage := []
  phase := 0
  gen := 0
  mbx := []
  ssmRx := []
  ssmTx := 0
  ssmMask := 0
  removal := 0
  removeAt := 0
  ready := false
  porN := false
  board := []

def ledger0 : Ledger where
  d := 0
  ms := []
  granted := []
  refused := []
  newStages := none
  wearOut := false
  opsTicks := 0
  aboveTicks := 0
  gainCore := 1000
  gainSram := 1000

/-- Every unit as power-on reset leaves it, with no flash set and no key programmed: PKL_STATUS.OPEN reads 1 (R64). -/
def device0 : Device where
  regs := []
  mem := []
  tiles := []
  time := time0
  pkl := loader0
  lwk := lacework0
  heath := ⟨[], [], [], 0, 0, [], 0⟩
  items := []
  dsp := ⟨0, [], [], [], false, 0⟩
  flt := faultMgr0
  msixA := msix0
  msixB := msix0
  hostA := host0
  hostB := host0
  hwd := hayward0
  net := ⟨[], [], [], [], [], [], []⟩
  ledger := ledger0
  power := ⟨[], [], 0, 0, [], false⟩
  dram := ⟨[], [], [], [], 7, [], 0, 0, [], 0⟩
  cores := []
  engines := []
  agc := []
  sched := []
  clipSlot := []
  occs := []
  bells := []
  loops := []
  fec := []
  tbcp := []
  dmas := []
  lanes := []
  ctrs := []
  groups := []
  twin := twin0
  marks := []
  dumps := []
  csrLatch := []
  tlm := tlm0
  tap := tap0
  free := 0
  out := []

/-- The state of the block: the device, and the commands that wait, first in, first out. -/
structure State where
  dev : Device
  pending : List Instr
  deriving DecidableEq, Repr

/-- The machine right after power-on reset, POR_N still low and nothing booted. -/
def State.reset : State := ⟨device0, []⟩

/-- Reasons the device stops. The spec gives every command an effect and the model stops at none;
this reason is raised by no meaning, and raising it would be safe. -/
inductive Fault where
  | unreachable
  deriving DecidableEq, Repr

/-- Reasons a command has no meaning. notModelled is raised by a dispatch arm whose meaning is not
written, and is safe: nothing is claimed of that command. -/
inductive Refusal where
  | notModelled (mnemonic : String)
  deriving DecidableEq, Repr

/-- A command's effect on the device alone: the queue stands, and the machine goes on. -/
def State.run (s : State) (f : Device → Device) : Host.Outcome State Fault Refusal :=
  .next { s with dev := f s.dev }

end Sys2Proof.Machine
end

