-- ==== Sys2Proof/Machine/Ops.lean ====
section
/-! DEFINITION. The named operations every unit uses: registers and their fields, memory bytes,
tick comparison, the place of every unit on Lacework, the event fabric, rings, and CRCs. -/

namespace Sys2Proof.Machine
open R

/-! ### Registers -/

/-- The word of the register at a BAR0 offset. -/
def Device.word (d : Device) (off : Nat) : Word := tabGet regReset d.regs off

/-- The device with the register at an offset holding w. -/
def Device.setWord (d : Device) (off : Nat) (w : Word) : Device :=
  { d with regs := tabSet regReset d.regs off w }

/-- The value of a field. -/
def Device.get (d : Device) (f : Fld) : Nat := bits (d.word f.reg).toNat f.hi f.lo

/-- The device with a field holding the low bits of v. -/
def Device.put (d : Device) (f : Fld) (v : Nat) : Device :=
  d.setWord f.reg (BitVec.ofNat 32 (putBits (d.word f.reg).toNat f.hi f.lo v))

/-- Whether a field is not zero. -/
def Device.on (d : Device) (f : Fld) : Bool := d.get f != 0

/-- The width of a field. -/
def Fld.width (f : Fld) : Nat := f.hi + 1 - f.lo

/-- Adds k to a counter field that stops at its largest value. -/
def Device.bump (d : Device) (f : Fld) (k : Nat) : Device := d.put f (satAdd f.width (d.get f) k)

/-- Adds k to a counter field that wraps. -/
def Device.count (d : Device) (f : Fld) (k : Nat) : Device := d.put f (d.get f + k)

/-- Adds k to one of the telemetry collector's counts, by its place in the record (R577). -/
def Device.tally (d : Device) (i k : Nat) : Device :=
  let m := d.tlm.now
  { d with tlm := { d.tlm with now := { m with
    counts := tabSet (fun _ => 0) m.counts i (tabGet (fun _ => 0) m.counts i + k) } } }

/-- A field whose 0 is treated as 1. -/
def Device.get1 (d : Device) (f : Fld) : Nat := max 1 (d.get f)

/-! ### Free values -/

/-- Draws a free value of w bits (log entry 4). -/
def Device.draw (d : Device) (w : Nat) : Nat × Device :=
  (Config.free d.free % 2 ^ w, { d with free := d.free + 1 })

/-- Draws a free choice. -/
def Device.drawBool (d : Device) : Bool × Device :=
  (Config.freeBool d.free, { d with free := d.free + 1 })

/-- Draws a measured duration of w bits, saturating (log entry 5). -/
def Device.drawTime (d : Device) (w : Nat) : Nat × Device :=
  (min (Config.measured d.free) (2 ^ w - 1), { d with free := d.free + 1 })

/-! ### Memory -/

/-- What a byte that nothing has written reads as (log entry 7). -/
def memDflt (_ : Nat) : Byte := 0

/-- The byte at an address. -/
def Device.byte (d : Device) (a : Nat) : Byte := tabGet memDflt d.mem a

/-- The n bytes from an address. -/
def Device.bytes (d : Device) (a n : Nat) : List Byte := (List.range n).map (fun i => d.byte (a + i))

/-- Memory with one byte written. -/
def memSet (m : List Host.Cell) (a : Nat) (b : Byte) : List Host.Cell := tabSet memDflt m a b

/-- Memory with bytes written from an address upward. -/
def memSets (m : List Host.Cell) (a : Nat) : List Byte → List Host.Cell
  | [] => m
  | b :: t => memSets (memSet m a b) (a + 1) t

/-- The canonical form of memory. -/
def Memory.wf (m : List Host.Cell) : Bool := tabWf memDflt m

/-- The 64-byte lines that n bytes from an address touch. -/
def linesOf (a n : Nat) : List Nat :=
  (List.range ((a + (n - 1)) / 64 + 1 - a / 64)).map (fun i => 64 * (a / 64 + i))

/-- Whether a mirror region holds a line (R528). -/
def Device.mirrored (d : Device) (line : Nat) : Bool :=
  (List.range 16).any (fun r => d.on (TWN_MIRROR_LEN_EN r) &&
    (let b := d.get (TWN_MIRROR_LO_ADDR r) + 2 ^ 32 * d.get (TWN_MIRROR_HI_ADDR r)
     decide (b ≤ line) && decide (line < b + 64 * d.get (TWN_MIRROR_LEN_LINES r))))

/-- The WRITTEN bit of every ACTIVE correction entry whose burst or word lies in the n bytes
written at an address (R470). -/
def Device.ctWritten (d : Device) (a n : Nat) : Device :=
  if a < 2 ^ 38 then
    (List.range 16).foldl (fun d i =>
      let e := d.get (DRC_CT_W0_ADDR_LO i) + 2 ^ 32 * d.get (DRC_CT_W1_ADDR_HI i)
      if d.get (DRC_CT_W2_STATE i) ≠ 0 && decide (e < a + n) && decide (a < e + 64) then
        d.put (DRC_CT_W2_WRITTEN i) 1 else d) d
  else if 0x5400000000 ≤ a then
    let c := (a - 0x5400000000) / 2 ^ 24
    let o := (a - 0x5400000000) % 2 ^ 24
    (List.range 8).foldl (fun d i =>
      let e := d.get (DRC_CLCT_W0_ADDR_LO c i)
      if d.get (DRC_CLCT_W2_STATE c i) ≠ 0 && decide (e < o + n) && decide (o < e + 8) then
        d.put (DRC_CLCT_W2_WRITTEN c i) 1 else d) d
  else d

/-- The logical address of a byte of storage: a mapped cluster's memory in the logical view. -/
def Device.logical (d : Device) (a : Nat) : Nat :=
  if a < 0x5400000000 then a
  else
    match (List.range 20).find? (fun l => d.get (FLT_LCMAP_PHYS l) == (a - 0x5400000000) / 2 ^ 24) with
    | some l => 0x5000000000 + 2 ^ 24 * l + (a - 0x5400000000) % 2 ^ 24
    | none => a

/-- What a write marks beside the bytes: mirrored lines (R528), correction entries (R470), and bursts
that are readable again once they are written whole (R475). -/
def Device.touched (d : Device) (a n : Nat) : Device :=
  let ls := (linesOf (d.logical a) n).filter (fun l => d.mirrored l && !d.marks.contains l)
  ({ d with
    marks := d.marks ++ ls
    dram := { d.dram with unread := d.dram.unread.filter (fun u => !(decide (a ≤ u) && decide (u + 64 ≤ a + n))) }
  }).ctWritten a n

/-- Whether n bytes of DRAM hold a burst written back as unreadable (R475). -/
def Device.unreadable (d : Device) (a n : Nat) : Bool :=
  d.dram.unread.any (fun u => decide (u < a + n) && decide (a < u + 64))

/-- The device with bytes stored from an address upward. -/
def Device.store (d : Device) (a : Nat) (bs : List Byte) : Device :=
  if bs.isEmpty then d else ({ d with mem := memSets d.mem a bs }).touched a bs.length

/-- A little-endian number from bytes. -/
def leNat : List Byte → Nat
  | [] => 0
  | b :: t => b.toNat + 256 * leNat t

/-- The n bytes of a number, little-endian. -/
def leBytes : Nat → Nat → List Byte
  | 0, _ => []
  | n + 1, v => BitVec.ofNat 8 v :: leBytes n (v / 256)

/-- The little-endian number of n bytes at an address. -/
def Device.load (d : Device) (a n : Nat) : Nat := leNat (d.bytes a n)

/-- Stores the n low bytes of v, little-endian. -/
def Device.storeNat (d : Device) (a n v : Nat) : Device := d.store a (leBytes n v)

/-- Word i of a list of little-endian 32-bit words in bytes. -/
def wordAt (bs : List Byte) (i : Nat) : Nat := leNat ((bs.drop (4 * i)).take 4)

/-! ### CRCs -/

/-- One bit of a reflected CRC register. -/
def crcRefStep (poly r : Nat) : Nat := if r % 2 = 1 then (r / 2).xor poly else r / 2

/-- One byte of a reflected CRC. -/
def crcRefByte (poly r : Nat) (b : Byte) : Nat :=
  let r := r.xor b.toNat
  crcRefStep poly (crcRefStep poly (crcRefStep poly (crcRefStep poly
    (crcRefStep poly (crcRefStep poly (crcRefStep poly (crcRefStep poly r)))))))

/-- CRC-32C: reflected, initial value all ones, final inversion (R401, R123). -/
def crc32c (bs : List Byte) : Nat :=
  (bs.foldl (crcRefByte 0x82F63B78) 0xFFFFFFFF).xor 0xFFFFFFFF

/-- One bit of an unreflected CRC register of w bits. -/
def crcBit (w poly r : Nat) (b : Bool) : Nat :=
  let top := (r / 2 ^ (w - 1) % 2 == 1) != b
  let r := r * 2 % 2 ^ w
  if top then r.xor poly else r

/-- The bits of a byte, most significant first. -/
def byteBits (b : Byte) : List Bool := (List.range 8).map (fun i => b.toNat / 2 ^ (7 - i) % 2 == 1)

/-- An unreflected CRC of w bits over bits, from an initial register. -/
def crcBits (w poly init : Nat) (bs : List Bool) : Nat := bs.foldl (crcBit w poly) init

/-- CRC-8 with polynomial 0x07 and initial value 0 (R123). -/
def crc8 (bs : List Byte) : Nat := crcBits 8 0x07 0 (bs.flatMap byteBits)

/-! ### Requesters and ticks -/

/-- The number of a requester in per-requester tables. -/
def reqNum : Req → Nat
  | .hostA => 0
  | .hostB => 1
  | .hayward => 2
  | .core c k => 16 + 8 * c.val + k.val
  | .node n => 1024 + n.toNat

/-- Requester codes of PKL_STATUS.REQ and DSP_ERR.REQ (R88, R368). -/
def reqCode : Req → Nat
  | .hostA => 0
  | .hostB => 1
  | .hayward => 2
  | .core _ _ => 3
  | .node _ => 4

/-- Whether a w-bit tick value counts as past against the current tick (R33). -/
def isPast (w v cur : Nat) : Bool :=
  let df := (v + (2 ^ w - cur % 2 ^ w)) % 2 ^ w
  df == 0 || decide (2 ^ (w - 1) < df)

/-- The frame offset F (R31). -/
def Device.frameF (d : Device) : Nat := d.get TTB_FRAME_FRAME_OFS

/-- TICK − F, below zero while TICK is below F (R31). -/
def Device.sinceF (d : Device) : Int := (d.time.tick : Int) - d.frameF

/-- The active section of a type and target. -/
def Device.section? (d : Device) (ty tgt : Nat) : Option Section :=
  d.pkl.active.find? (fun s => s.ty == ty && s.target == tgt)

/-- Base ticks per slot of a numerology (R30). -/
def slotTicks : Nat → Nat
  | 0 => 8
  | 1 => 4
  | 2 => 2
  | 3 => 1
  | _ => 8

/-- Slot length r of a carrier, as its CARRIER section sets the numerology (R30); a carrier that
the pricking does not define counts base ticks (log entry 10). -/
def Device.carrierR (d : Device) (c : Nat) : Nat :=
  match d.section? 0x50 c with
  | some s => slotTicks (Config.carrierNumer s.payload % 5)
  | none => 1

/-- The carrier tick number N of slot length r at the current TICK (R31). -/
def Device.carrierTickI (d : Device) (r : Nat) : Int := d.sinceF / r

/-- The same as a 64-bit number: below zero while TICK is below F, it wraps (R33). -/
def Device.carrierTick (d : Device) (r : Nat) : Nat := (d.carrierTickI r % 2 ^ 64).toNat

/-- Whether the current base tick edge is a carrier tick of slot length r (R31). -/
def Device.onCarrierTick (d : Device) (r : Nat) : Bool := d.sinceF % r == 0

/-- SFN, subframe, and slot within the frame of slot length r (R32). -/
def Device.sfn (d : Device) : Nat := ((d.sinceF / 80 + d.get TTB_FRAME_SFN_OFS) % 1024).toNat
def Device.subframe (d : Device) : Nat := (d.sinceF % 80).toNat / 8
def Device.slotInFrame (d : Device) (r : Nat) : Nat := (d.sinceF % 80).toNat / r

/-! ### Places on Lacework (R18) -/

/-- The number of node {die, x, y, port} (R89). -/
def nodeNum (die x y port : Nat) : Nat := die * 512 + x * 64 + y * 8 + port

/-- First row of quadrant q on its die. -/
def quadRow (q : Nat) : Nat := 4 * (q % 2)

def clusterNode (c port : Nat) : Nat :=
  let q := c / 5
  let i := c % 5
  if i < 4 then nodeNum (q / 2) 2 (quadRow q + i) port else nodeNum (q / 2) 3 (quadRow q) port

def bankNode (b : Nat) : Nat := clusterNode (b / 4) (1 + b % 4)
def feNode (e : Nat) : Nat := nodeNum (e / 16) 1 (quadRow (e / 8) + e % 8 / 2) (e % 2)
def peNode (q : Nat) : Nat := nodeNum (q / 2) 1 (quadRow q) 2
def dmaNode (e : Nat) : Nat := nodeNum (e / 4) 1 (quadRow (e / 2) + 1 + e % 2) 2
def meNode (q : Nat) : Nat := nodeNum (q / 2) 3 (quadRow q + 1) 0
def fecNode (q port : Nat) : Nat := nodeNum (q / 2) 3 (quadRow q + 2) port
def laneNode (n : Nat) : Nat := nodeNum (n / 32) 0 (quadRow (n / 16) + n % 16 / 4) (n % 4)
def dramNode (ch : Nat) : Nat := nodeNum (ch / 3) 4 (ch % 3) 0
def hostNode (h : Nat) : Nat := nodeNum h 4 3 0
def tbcpNode (p : Nat) : Nat := nodeNum p 4 3 1
def netNode (l : Nat) : Nat := nodeNum (l / 4) 4 4 (l % 4)
def twinNode (l : Nat) : Nat := nodeNum (l / 4) 4 5 (l % 4)
def aonNode (die : Nat) : Nat := nodeNum die 4 6 0

/-- The always-on block in service (R358, R524). -/
def Device.aon (d : Device) : Nat := aonNode (if d.flt.promoted then 1 else 0)

/-- Whether a node is an FEC group endpoint: x = 3, third row of a quadrant. -/
def isFecNode (n : Nat) : Bool := bits n 8 6 == 3 && bits n 5 3 % 4 == 2

/-- The quadrant of a node. -/
def nodeQuad (n : Nat) : Nat := 2 * bits n 9 9 + bits n 5 5

/-- Whether a node is a PCIe endpoint. -/
def isPcieNode (n : Nat) : Bool := n == hostNode 0 || n == hostNode 1

/-- Whether a node is a network port. -/
def isNetNode (n : Nat) : Bool := bits n 8 6 == 4 && bits n 5 3 == 4

/-- The node a requester sends from. -/
def Device.reqNode (d : Device) : Req → Nat
  | .hostA => hostNode 0
  | .hostB => hostNode 1
  | .hayward => d.aon
  | .core c _ => clusterNode c.val 0
  | .node n => n.toNat

/-- The physical cluster of a node that is a cluster port. -/
def nodeCluster (n : Nat) : Option Nat :=
  (List.range 20).find? (fun c => clusterNode c 0 == n)

/-! ### Logical and physical clusters -/

/-- The physical cluster of a logical one; none while unmapped (R15, R536). -/
def Device.physOf (d : Device) (l : Nat) : Option Nat :=
  let p := d.get (FLT_LCMAP_PHYS l)
  if p < 20 then some p else none

/-- The logical cluster a physical one holds. -/
def Device.lcOf (d : Device) (c : Nat) : Option Nat :=
  (List.range 20).find? (fun l => d.get (FLT_LCMAP_PHYS l) == c)

/-- The LC field of a fault record: the logical cluster, or 0x1F (R510). -/
def Device.lcField (d : Device) (c : Nat) : Nat := (d.lcOf c).getD 0x1F

/-! ### Address map (R23, R24, R458) -/

/-- Number of set bits among the low n. -/
def popcount (n w : Nat) : Nat := ((List.range n).filter (fun i => bit w i)).length

/-- Channels configured. -/
def Device.dramChans (d : Device) : List Nat := (List.range 6).filter (fun k => bit (d.get DRC_MAP_CHAN_EN) k)

/-- The populated end of DRAM (R458). -/
def Device.dramEnd (d : Device) : Nat := d.dramChans.length * (d.get DRC_CAP_USABLE * 2 ^ 26)

/-- The interleave grain in bytes (R458). -/
def Device.dramGrain (d : Device) : Nat := 2 ^ (8 + min 8 (d.get DRC_MAP_GRAIN))

/-- The channel and channel-local address of a DRAM address, with the redirect of R466. -/
def Device.dramMap (d : Device) (a : Nat) : Nat × Nat :=
  let cs := d.dramChans
  let n := cs.length
  let g := d.dramGrain
  let b := a / g
  let ch := cs.getD (b % n) 0
  let red := d.dram.redirect
  if red < 6 && ch == red then
    let ss := cs.filter (· ≠ red)
    let j := b / n
    (ss.getD (j % (n - 1)) 0, d.get DRC_CAP_USABLE * 2 ^ 26 + j / (n - 1) * g + a % g)
  else (ch, b / n * g + a % g)

/-- Whether a channel is retired. -/
def Device.chanRetired (d : Device) (ch : Nat) : Bool := bit (d.get DRC_MAP_RETIRED) ch

/-- Whether an offset within a cluster's stride is a memory (R24). -/
def cluOffset (o : Nat) : Bool :=
  decide (o < 0x100000) ||
    (decide (0x800000 ≤ o) && decide (o < 0xC00000) &&
      (let r := (o - 0x800000) % 0x80000
       decide (r < 0x18000) || (decide (0x20000 ≤ r) && decide (r < 0x60000))))

/-- The storage of physical cluster c. -/
def cluBase (c : Nat) : Nat := 0x5400000000 + 2 ^ 24 * c

/-- Where a DRAM, Heath payload or cluster-memory address is kept; none when it decodes to no memory
or to an unmapped role (R23, R24). A cluster's memory is kept under the physical view. -/
def Device.place (d : Device) (a : Nat) : Option Nat :=
  if a < 2 ^ 38 then (if a < d.dramEnd then some a else none)
  else if 0x4000000000 ≤ a && a < 0x400A000000 then some a
  else if 0x5000000000 ≤ a && a < 0x5014000000 then
    match d.physOf ((a - 0x5000000000) / 2 ^ 24) with
    | some c => if cluOffset (a % 2 ^ 24) then some (cluBase c + a % 2 ^ 24) else none
    | none => none
  else if 0x5400000000 ≤ a && a < 0x5414000000 then (if cluOffset (a % 2 ^ 24) then some a else none)
  else none

/-- Whether a physical cluster is fenced (R17). -/
def Device.cluFenced (d : Device) (c : Nat) : Bool := tabGet (fun _ => false) d.flt.fencedCl c

/-- Whether an address is DRAM or cluster-local memory in the logical view, for n bytes. -/
def isDescMem (a n : Nat) : Bool :=
  decide (a + n ≤ 2 ^ 38) || (decide (0x5000000000 ≤ a) && decide (a + n ≤ 0x5014000000))

/-- Whether the target of a kept address answers: its channel is not retired, its cluster not fenced and in Run (R17,
R109, R114). -/
def Device.answers (d : Device) (p : Nat) : Bool :=
  if p < 2 ^ 38 then !d.chanRetired (d.dramMap p).1
  else if 0x5400000000 ≤ p then
    let c := (p - 0x5400000000) / 2 ^ 24
    !d.cluFenced c && d.get (ELP_DOM_STATE_STATE c) == 0
  else true

/-- n bytes of DRAM or cluster memory at a Lacework address, when every byte is answered OKAY. -/
def Device.fetch (d : Device) (a n : Nat) : Option (List Byte) :=
  match d.place a, d.place (a + (n - 1)) with
  | some p, some q =>
    if q = p + (n - 1) && d.answers p && d.answers q && !d.unreadable p n then some (d.bytes p n) else none
  | _, _ => none

/-- Stores bytes at a Lacework address of DRAM or cluster memory; a write that is not answered OKAY
stores nothing. -/
def Device.send (d : Device) (a : Nat) (bs : List Byte) : Device :=
  match d.place a, d.place (a + (bs.length - 1)) with
  | some p, some q => if q = p + (bs.length - 1) && d.answers p && d.answers q then d.store p bs else d
  | _, _ => d

/-! ### Event fabric (R505 to R508) -/

/-- The MSI-X state of a host. -/
def Device.msix (d : Device) (h : Nat) : Msix := if h = 0 then d.msixA else d.msixB

def Device.setMsix (d : Device) (h : Nat) (m : Msix) : Device :=
  if h = 0 then { d with msixA := m } else { d with msixB := m }

def Device.host (d : Device) (h : Nat) : HostPort := if h = 0 then d.hostA else d.hostB

def Device.setHost (d : Device) (h : Nat) (p : HostPort) : Device :=
  if h = 0 then { d with hostA := p } else { d with hostB := p }

/-- Records an output. -/
def Device.emit (d : Device) (o : Out) : Device := { d with out := d.out ++ [o] }

/-- A vector is masked by its own bit or the function's (PCIe, R506). -/
def Msix.masked (m : Msix) (v : Nat) : Bool := m.fmask || tabGet (fun _ => true) m.mask v

/-- Sends vector v to host h: nothing while the link is down or MSI-X is off; a masked vector's
message waits in the pending bit array (R506). -/
def Device.sendVec (d : Device) (h v : Nat) : Device :=
  let m := d.msix h
  if !(d.host h).linkUp || !m.enable then d
  else if m.masked v then d.setMsix h { m with pend := tabSet (fun _ => false) m.pend v true }
  else d.emit (.msix h v)

/-- The pending flag of EVn. -/
def pendFld (n : Nat) : Fld := ⟨EVF_PEND (n / 32), n % 32, n % 32⟩

/-- Messages to the hosts that EVF_ROUTE n names (R506). -/
def Device.routeEvent (d : Device) (n : Nat) : Device :=
  let d := if d.on (EVF_ROUTE_HOST_A n) then d.sendVec 0 n else d
  if d.on (EVF_ROUTE_HOST_B n) then d.sendVec 1 n else d

/-- Fast wake selectors: a pulse of EVn is latched for every domain in Doze or Retain that has an
enabled selector of it with FAST 1 (R499). -/
def Device.fastWake (d : Device) (n : Nat) : Device :=
  let hit := (List.range 64).filter (fun m =>
    (d.get (ELP_DOM_STATE_STATE m) == 2 || d.get (ELP_DOM_STATE_STATE m) == 3) && !d.power.edge.contains m &&
      (List.range 4).any (fun s => d.on (ELP_WAKE_EN m s) && d.on (ELP_WAKE_FAST m s) && d.get (ELP_WAKE_EV m s) == n))
  { d with power := { d.power with edge := d.power.edge ++ hit } }

/-- A pulse of EVn: the flag sets, and when it rises the routed hosts get vector n (R505, R506). -/
def Device.pulse (d : Device) (n : Nat) : Device :=
  if 384 ≤ n then d
  else
    let d := d.fastWake n
    if d.on (pendFld n) then d else (d.put (pendFld n) 1).routeEvent n

/-- Sets a cause bit and pulses its event. -/
def Device.cause (d : Device) (f : Fld) (n : Nat) : Device := (d.put f 1).pulse n

/-- Whether an event routed to the core of a logical cluster has its flag set: the level of that
core's EVENT interrupt (R507). -/
def Device.coreEvent (d : Device) (l k : Nat) : Option Nat :=
  (List.range 384).find? (fun n => d.on (pendFld n) && d.on (EVF_ROUTE_CORE_EN n)
    && d.get (EVF_ROUTE_TGT_LC n) == l && d.get (EVF_ROUTE_TGT_CORE n) == k)

/-- EVF_NEXT for a requester: the lowest pending event routed to it (R507). -/
def Device.nextEvent (d : Device) (r : Req) : Option Nat :=
  (List.range 384).find? (fun n => d.on (pendFld n) &&
    (match r with
     | .hostA => d.on (EVF_ROUTE_HOST_A n)
     | .hostB => d.on (EVF_ROUTE_HOST_B n)
     | .hayward => true
     | .core c k => d.on (EVF_ROUTE_CORE_EN n) && d.physOf (d.get (EVF_ROUTE_TGT_LC n)) == some c.val
         && d.get (EVF_ROUTE_TGT_CORE n) == k.val
     | .node _ => false))

/-! ### Rings (R604) -/

/-- Records a ring of size records holds room for. -/
def ringRoom (size wr rd : Nat) : Nat := (rd + size - wr - 1) % size

/-- Writes one record of a ring at base, of size records of the record's length; none when the ring
is full. Answers the device and the new write index (R604). -/
def Device.ringPut (d : Device) (base size wr rd : Nat) (bs : List Byte) : Option (Device × Nat) :=
  if (wr + 1) % size = rd % size then none
  else some (d.send (base + wr * bs.length) bs, (wr + 1) % size)

/-- The index after i. -/
def ringNext (size i : Nat) : Nat := (i + 1) % size

/-- Bytes [47:0] of an address held in a low and a high register. -/
def Device.addr48 (d : Device) (lo hi : Fld) : Nat := d.get lo + 2 ^ 32 * d.get hi

end Sys2Proof.Machine
end

