-- ==== Sys2Proof/Machine/Nodes.lean ====
section
/-! DEFINITION. Lacework: endpoints and their domains, packet headers, error capture, route tables and how an address
resolves (R18, R89, R90, R93, R99, R108, R120, R121). -/

namespace Sys2Proof.Machine
open R

/-! ### Answers (R94) -/

def ok : Resp := ⟨0, 0, false, false, []⟩
def okInl (v : Nat) : Resp := ⟨0, v, false, false, []⟩
def asleep : Resp := ⟨1, 0, false, false, []⟩
def decodeErr : Resp := ⟨2, 0, false, false, []⟩
def targetErr : Resp := ⟨3, 0, false, false, []⟩
/-- TARGET_ERR marked FENCED (R17). -/
def fencedErr : Resp := ⟨3, 1, false, false, []⟩
/-- TILE_FAULT with its cause (R135). -/
def tileFault (c : Nat) : Resp := ⟨4, c, false, false, []⟩

/-! ### Domains and nodes -/

def pRun : Nat := 0
def pDoze : Nat := 2
def pRetain : Nat := 3
def pOff : Nat := 4
def pFailed : Nat := 6

/-- The group of an engine of the FEC groups. -/
def engGroup (e : Nat) : Nat :=
  if e < 12 then e / 3 else if e < 16 then e - 12 else if e < 20 then e - 16 else if e < 22 then 2 * (e - 20) else 2 * (e - 22)


/-- The power domain of a node's endpoint; none for PD_FABRIC and PD_AON (R27, R18). -/
def nodeDomain (n : Nat) : Option Nat :=
  let x := bits n 8 6
  let y := bits n 5 3
  let p := bits n 2 0
  let q := nodeQuad n
  let r := y % 4
  if x = 0 then some (56 + 2 * q + r / 2)
  else if x = 1 then (if p < 2 || (r = 0 && p = 2) then some (40 + 2 * q + r / 2) else none)
  else if x = 2 then (if p = 0 then some (5 * q + r) else some (20 + 5 * q + r))
  else if x = 3 then
    (if r = 0 then (if p = 0 then some (5 * q + 4) else some (20 + 5 * q + 4))
     else if r = 1 then some (48 + q) else if r = 2 then some (52 + q) else none)
  else none

/-- Whether R18 attaches an endpoint at a node; engines TB and TL stand in Q0 and Q2 alone (R11, R14). -/
def hasEndpoint (n : Nat) : Bool :=
  let x := bits n 8 6
  let r := bits n 5 3 % 4
  let up := bits n 5 3 / 4 == 1
  let p := bits n 2 0
  match x with
  | 0 => decide (p < 4)
  | 1 => decide (p < 2) || (p == 2 && decide (r < 3))
  | 2 => decide (p < 5)
  | 3 => if r = 0 then decide (p < 5) else if r = 1 then p == 0
    else if r = 2 then decide (p < (if up then 5 else 7)) else false
  | 4 =>
    if r = 0 then (if up then decide (p < 4) else p == 0)
    else if r = 1 then (if up then decide (p < 4) else p == 0)
    else if r = 2 then p == 0
    else if up then false else decide (p < 2)
  | _ => false

/-- Raises a domain's wake request and keeps it until Run (R111). -/
def Device.wakeReq (d : Device) (m : Nat) : Device :=
  if d.power.edge.contains m then d else { d with power := { d.power with edge := d.power.edge ++ [m] } }

/-! ### Errors (R120, R121) -/

/-- Header bits [127:0] of a packet (R89). -/
def pktLow (p : Packet) : Nat :=
  p.dest.toNat + 2 ^ 10 * p.src.toNat + 2 ^ 20 * p.cmd.toNat + 2 ^ 26 * p.len.toNat + 2 ^ 34 * p.tag.toNat +
    2 ^ 46 * p.cls.toNat + 2 ^ 49 * b2n p.epoch + 2 ^ 50 * p.tick.toNat + 2 ^ 64 * p.addr.toNat +
    2 ^ 112 * b2n p.posted + 2 ^ 113 * b2n p.barrier + 2 ^ 114 * b2n p.wake + 2 ^ 115 * b2n p.prov +
    2 ^ 116 * b2n p.verify + 2 ^ 117 * p.resp.toNat + 2 ^ 120 * p.xrow.toNat + 2 ^ 123 * p.la.toNat

/-- Sets an error bit, and captures the header unless one has been captured since LWK_ERR was wholly clear. -/
def Device.lwNote (d : Device) (f : Fld) (p : Packet) : Device :=
  let d := if d.word LWK_ERR = 0 || !d.lwk.captured then
      let d := (List.range 4).foldl (fun (d : Device) n =>
        d.setWord (LWK_ERR_HDR n) (BitVec.ofNat 32 ((pktLow p) / 2 ^ (32 * n)))) d
      { d with lwk := { d.lwk with captured := true } }
    else d
  d.put f 1

/-- The same, with its event. -/
def Device.lwErr (d : Device) (f : Fld) (ev : Nat) (p : Packet) : Device := (d.lwNote f p).pulse ev

/-- An error that no packet's header goes with. -/
def Device.lwErrBare (d : Device) (f : Fld) : Device :=
  ({ d with lwk := { d.lwk with captured := d.lwk.captured && d.word LWK_ERR != 0 } }).put f 1

/-! ### Route tables (R99, R105 to R108) -/

/-- Number of the router of a node on its die, and on both. -/
def routerOf (n : Nat) : Nat := 6 * bits n 5 3 + bits n 8 6
def routerAll (n : Nat) : Nat := 48 * bits n 9 9 + routerOf n

/-- XROW of an unnamed router of the other die: its own row (R108). -/
def xrowDflt (k : Nat) : Nat := k % 64 / 6

def Device.rt (d : Device) (e : Nat) : Routes := if e = 0 then d.lwk.rt0 else d.lwk.rt1
def Device.setRt (d : Device) (e : Nat) (r : Routes) : Device :=
  if e = 0 then { d with lwk := { d.lwk with rt0 := r } } else { d with lwk := { d.lwk with rt1 := r } }

/-- The physical cluster of a logical one in an epoch's table; 0x1F unmapped. -/
def Routes.phys (r : Routes) (l : Nat) : Nat := r.lc.getD l 0x1F

/-- XROW from router i (0 to 95) to router k of the other die. -/
def Routes.xrowOf (r : Routes) (i k : Nat) : Nat := tabGet xrowDflt r.xrow (64 * i + k)

/-- The router of a domain's boundary that holds a packet for it: the packet's destination. -/
def holdRouter (p : Packet) : Nat := routerAll p.dest.toNat

/-- Packets of an epoch that router i counts: those with a unit there or still to come through a buffer of it, and
those it holds for a closed domain (R106). -/
def Device.routerCount (d : Device) (e : Bool) (i : Nat) : Nat :=
  ((d.lwk.flights.filter (fun f => f.pkt.epoch == e)).map (fun f =>
      (f.trail.filter (fun g => g.inp / 13 == i)).length)).sum +
    (d.lwk.held.filter (fun p => p.1.epoch == e && holdRouter p.1 == i && p.2.domain.isSome)).length

/-- The count of the non-current epoch summed over the routers (R106). -/
def Device.oldCount (d : Device) : Nat :=
  ((List.range 96).map (d.routerCount (!d.on LWK_EPOCH_CUR))).sum

/-- The current map of FLT_LCMAP as a table holds it. -/
def Device.lcNow (d : Device) : List Nat := (List.range 20).map (fun l => d.get (FLT_LCMAP_PHYS l))

/-- Destination of an address in an epoch: the node, or the answer of the injecting router (R99, R23). -/
inductive Dest where
  | node (n : Nat)
  | answer (r : Resp)

/-- How many units a register's row has, and which of them an offset names. -/
def rowUnit (rows : List RegRow) (off : Nat) : Nat × Nat :=
  match (rows.find? (fun r => r.holds off)).map (fun r => (r.base, r.dims)) with
  | some (b, (c, st) :: _) => (c, (off - b) / st)
  | _ => (0, 0)

/-- The node of radio, twin or network lane l. -/
def lineNode (l : Nat) : Nat := if l < 64 then laneNode l else if l < 72 then twinNode (l - 64) else netNode (l - 72)

/-- The node that holds a register of BAR0: the endpoint of the unit whose register it is, and the always-on block
for a register of no unit. The spec names no endpoint for a block (R99 says only 'the endpoint that holds the
register block'): DESIGN CHOICE, log entry 48. -/
def Device.blockNode (d : Device) (off : Nat) : Nat :=
  if off < 0x800000 then d.aon
  else if off < 0xA00000 then
    match rowUnit rowsRLN off with
    | (80, l) => lineNode l
    | (16, _) => lineNode (4 * ((off - 0x800100) / 0x10))
    | (2, _) => lineNode (4 * ((off - 0x800100) / 0x10))
    | _ => d.aon
  else if off < 0xC00000 then
    if 0xB00000 ≤ off && off < 0xB80000 then laneNode ((off - 0xB00000) / 0x2000)
    else match rowUnit rowsFIL off with
    | (64, l) => laneNode l
    | _ => d.aon
  else if off < 0xD00000 then
    match rowUnit rowsNET off with
    | (4, j) => netNode (2 * j)
    | (2, j) => netNode (4 * j)
    | _ => d.aon
  else if off < 0xE00000 then
    match rowUnit rowsTWN off with
    | (2, g) => twinNode (4 * g)
    | _ => d.aon
  else if off < 0x1000000 then tbcpNode ((rowUnit rowsTBC off).2)
  else if off < 0x1400000 then dmaNode ((rowUnit rowsDMA off).2)
  else if off < 0x1800000 then
    match rowUnit rowsDRC off with
    | (6, k) => dramNode k
    | (20, c) => clusterNode c 0
    | _ => d.aon
  else if off < 0x2000000 then
    match rowUnit rowsHTH off with
    | (80, b) => bankNode b
    | (20, c) => bankNode (4 * c)
    | _ => d.aon
  else if off < 0x2A00000 then clusterNode ((off - 0x2000000) / 0x80000) 0
  else if 0x3800000 ≤ off && off < 0x3A00000 then
    match rowUnit rowsFFE off with
    | (32, e) => feNode e
    | (4, q) => feNode (8 * q)
    | _ => feNode 0
  else if 0x3A00000 ≤ off && off < 0x3C00000 then meNode ((rowUnit rowsMXE off).2)
  else if 0x3C00000 ≤ off && off < 0x3E00000 then
    match rowUnit rowsFEC off with
    | (24, e) => fecNode (engGroup e) 0
    | (_, q) => fecNode q 0
  else if 0x3E00000 ≤ off then peNode ((rowUnit rowsPRE off).2)
  else d.aon

/-- Resolves an address (R99). -/
def Device.resolve (d : Device) (e a : Nat) : Dest :=
  if a < 2 ^ 38 then (if a < d.dramEnd then .node (dramNode (d.dramMap a).1) else .answer decodeErr)
  else if 0x4000000000 ≤ a && a < 0x400A000000 then .node (bankNode ((a - 0x4000000000) / 0x200000))
  else if 0x4400000000 ≤ a && a < 0x4400140000 then .node (bankNode ((a - 0x4400000000) / 16384))
  else if 0x4800000000 ≤ a && a < 0x4804000000 then .node (d.blockNode (a - 0x4800000000))
  else if 0x5000000000 ≤ a && a < 0x5014000000 then
    let c := (d.rt e).phys ((a - 0x5000000000) / 2 ^ 24)
    if c < 20 then .node (clusterNode c 0) else .answer targetErr
  else if 0x5400000000 ≤ a && a < 0x5414000000 then .node (clusterNode ((a - 0x5400000000) / 2 ^ 24) 0)
  else .answer decodeErr

/-- Commands of R93. -/
def cRd : Nat := 0x01
def cWr : Nat := 0x02
def cAdd : Nat := 0x08
def cSwap : Nat := 0x09
def cEvent : Nat := 0x10
def cBell : Nat := 0x11
def isResp (c : Nat) : Bool := c == 3 || c == 4 || c == 5 || c == 10
def isAtom (c : Nat) : Bool := c == cAdd || c == cSwap

/-- Data bytes of a packet's request at LEN 0: 4 of a register, else 8. -/
def pktSize (p : Packet) : Nat :=
  if p.len = 0 then (if 0x4800000000 ≤ p.addr.toNat && p.addr.toNat < 0x5000000000 then 4 else 8) else 64 * p.len.toNat

/-- Address of a request's first byte: data units lie from a 64-byte aligned address (R90). -/
def pktBase (p : Packet) : Nat := if p.len = 0 then p.addr.toNat else p.addr.toNat / 64 * 64

/-- Data units a packet carries: those of a write or a read's response (R89). -/
def pktUnits (p : Packet) : Nat := if p.cmd.toNat = cWr || p.cmd.toNat = 3 then p.len.toNat else 0

/-- The last address of the range an address lies in. -/
def Device.rangeEnd (d : Device) (a : Nat) : Nat :=
  if a < 2 ^ 38 then d.dramEnd
  else if a < 0x4400000000 then 0x4000000000 + ((a - 0x4000000000) / 0x200000 + 1) * 0x200000
  else if a < 0x4800000000 then 0x4400000000 + ((a - 0x4400000000) / 16384 + 1) * 16384
  else if a < 0x5000000000 then 0x4804000000
  else if a < 0x5400000000 then 0x5000000000 + ((a - 0x5000000000) / 2 ^ 24 + 1) * 2 ^ 24
  else 0x5400000000 + ((a - 0x5400000000) / 2 ^ 24 + 1) * 2 ^ 24

/-- The checks of R90 that the injecting router answers DECODE_ERR; EVENT and DOORBELL have no address. -/
def Device.injectBad (d : Device) (p : Packet) : Bool :=
  decide (64 < p.len.toNat) ||
    (p.cmd.toNat ≠ cEvent && p.cmd.toNat ≠ cBell &&
      ((isAtom p.cmd.toNat && (p.len != 0 || p.addr.toNat % 8 != 0)) ||
        decide (d.rangeEnd (pktBase p) < (pktBase p) + (pktSize p))))

/-! ### Boundary routers (R17, R112, R114) -/

/-- The state of a domain. -/
def Device.domSt (d : Device) (m : Nat) : Nat := d.get (ELP_DOM_STATE_STATE m)

/-- What the boundary router of a node answers in place of the target: a fence, a domain that is Off, or one
that does not run (R17, R112, R114). -/
def Device.portAnswer (d : Device) (n : Nat) : Option Resp :=
  let closed := match nodeDomain n with
    | some m => if d.domSt m = pOff then some targetErr else if d.domSt m = pRun then none else some asleep
    | none => none
  match nodeCluster n with
  | some c => if d.cluFenced c then some fencedErr else closed
  | none => closed

end Sys2Proof.Machine
end

