-- ==== Sys2Proof/Machine/Mesh.lean ====
section
/-! DEFINITION. The routers of Lacework: the path of a packet, the look-ahead output, input buffers with their
credits, arbitration at an output, and the probes a header passes (R96, R100, R101, R103, R104, R118, R119),
and the statistics of a port (R116, R575). Routers
are numbered 48 × die + 6 × y + x, and an input 13 × router + the port's number, coded as LA. -/

namespace Sys2Proof.Machine
open R

/-! ### Path (R100, R101) -/

/-- The output a packet takes at a router: along x to its column, then along y to its row, then the local port; for
the other die to column 5, row XROW, and the crossing. -/
def outputAt (r : Nat) (p : Packet) : Nat :=
  let n := p.dest.toNat
  let along := fun (x y last : Nat) =>
    if r % 6 < x then 9 else if x < r % 6 then 11 else if r % 48 / 6 < y then 8 else if y < r % 48 / 6 then 10 else last
  if r / 48 = bits n 9 9 then along (bits n 8 6) (bits n 5 3) (bits n 2 0) else along 5 p.xrow.toNat 12

/-- The input at the far end of a router's output. A direction's input is the port on that side, so that a packet that
leaves by +x enters by the −x port (DEDUCED, log entry 49). -/
def farInput (r la : Nat) : Nat :=
  if la = 8 then 13 * (r + 6) + 10 else if la = 9 then 13 * (r + 1) + 11 else if la = 10 then 13 * (r - 6) + 8
  else if la = 11 then 13 * (r - 1) + 9 else 13 * ((r + 48) % 96) + 12

/-- The input of a node's local port. -/
def localInput (n : Nat) : Nat := 13 * routerAll n + bits n 2 0

/-- A header at an input of router r carries the output it takes there. -/
def aimed (p : Packet) (r : Nat) : Packet := { p with la := BitVec.ofNat 4 (outputAt r p) }

/-- The inputs a packet passes from an input on, and its header as it stands at each; a path has at most 28. -/
def pathFrom : Nat → Nat → Packet → List (Nat × Packet)
  | 0, _, _ => []
  | n + 1, inp, p =>
    let q := aimed p (inp / 13)
    (inp, q) :: (if q.la.toNat < 8 then [] else pathFrom n (farInput (inp / 13) q.la.toNat) q)

/-- The path of a packet from its source. -/
def pktPath (p : Packet) : List (Nat × Packet) := pathFrom 28 (localInput p.src.toNat) p

/-- The header of a packet as its injecting router launches it in an epoch: XROW from that epoch's table when it goes
to the other die (R99, R105). -/
def Device.launch (d : Device) (p : Packet) (e : Bool) : Packet :=
  let n := p.dest.toNat
  let x := if bits n 9 9 = bits p.src.toNat 9 9 then 0
    else (d.rt (b2n e)).xrowOf (routerAll p.src.toNat) (routerOf n)
  aimed { p with epoch := e, xrow := BitVec.ofNat 3 x } (routerAll p.src.toNat)

/-! ### Buffers and credits (R103) -/

/-- Flits an input buffer holds per virtual channel. -/
def bufDepth (inp : Nat) : Nat := if inp % 13 = 12 then 16 else 4

/-- Units of packets of a class in an input's buffer. -/
def bufUsed (fs : List Flight) (inp cls : Nat) : Nat :=
  (fs.flatMap (fun f => if f.pkt.cls.toNat = cls then (f.trail.filter (fun g => g.inp == inp)).map (·.units) else [])).sum

/-- Whether units of a packet are still to come into an input that its header has entered. -/
def Flight.feeds (f : Flight) (inp : Nat) : Bool :=
  f.trail.any (fun g => g.inp == inp) &&
    (f.left != 0 || (((f.trail.dropWhile (fun g => g.inp != inp)).drop 1).any (fun g => g.units != 0)))

/-- Whether a header may enter an input: the sender has a credit, and no packet holds the virtual channel on the
output into it. -/
def canEnter (fs : List Flight) (inp cls : Nat) : Bool :=
  decide (bufUsed fs inp cls < bufDepth inp) && !fs.any (fun f => f.pkt.cls.toNat == cls && f.feeds inp)

/-- Units of a packet drawn up behind its header: each buffer of the trail filled as far as its credits allow. -/
def fillTrail (free : Nat → Nat) : Nat → List Segment → List Segment × Nat
  | n, [] => ([], n)
  | n, g :: t =>
    let k := min n (free g.inp)
    match fillTrail free (n - k) t with
    | (t, left) => (if k = 0 && left = 0 && t.isEmpty then ([], 0) else ({ g with units := k } :: t, left))

/-- The flight with its units drawn up, among the others. -/
def Flight.drawnUp (f : Flight) (others : List Flight) : Flight :=
  let n := (f.trail.map (·.units)).sum + f.left
  match fillTrail (fun inp => bufDepth inp - bufUsed others inp f.pkt.cls.toNat) n f.trail with
  | (t, left) => { f with trail := t, left := left }

/-- Every packet's units drawn up in turn. -/
def drawUp (fs : List Flight) : List Flight :=
  (List.range fs.length).foldl (fun (fs : List Flight) i => match fs[i]? with
    | some f => fs.set i (f.drawnUp (fs.eraseIdx i))
    | none => fs) fs

/-- The same until nothing moves. -/
def settled : Nat → List Flight → List Flight
  | 0, fs => fs
  | n + 1, fs => settled n (drawUp fs)

/-- The packets under way, with units drawn up as far as credits allow. -/
def Device.setFlights (d : Device) (fs : List Flight) : Device :=
  let d := { d with lwk := { d.lwk with flights := settled fs.length fs } }
  { d with lwk := { d.lwk with drained := d.lwk.drained && d.oldCount == 0 } }

/-! ### Arbitration (R104) -/

/-- Weight of a class of the fourth group. -/
def Device.arbWeight (d : Device) (cls : Nat) : Nat :=
  let w := if cls = 1 then d.get LWK_ARB_W_WORK else if cls = 2 then d.get LWK_ARB_W_HOST
    else if cls = 7 then d.get LWK_ARB_W_MGMT else d.get LWK_ARB_W_GLEAN
  max 1 w

/-- The classes of the fourth group, in the order in which its round robin serves them (DESIGN CHOICE, log entry 49). -/
def group4 : List Nat := [1, 2, 7, 3]

/-- The class the weighted round robin of a stands at, among those that wait. -/
def Arbiter.turn (a : Arbiter) (cs : List Nat) : Option Nat :=
  if a.left ≠ 0 && cs.contains a.cls then some a.cls
  else (((group4.dropWhile (· != a.cls)).drop 1 ++ group4).find? (fun c => cs.contains c))

/-- The class an output grants among those whose headers wait for it; aged, those of the fourth group that have waited
AGE_LIMIT cycles for it. -/
def Arbiter.grant (a : Arbiter) (cs aged : List Nat) : Option Nat :=
  if cs.contains 6 then some 6
  else if cs.contains 4 || cs.contains 5 then
    (if cs.contains (9 - a.rsp) then some (9 - a.rsp) else some a.rsp)
  else if !aged.isEmpty then a.turn aged
  else if cs.contains 0 then some 0
  else a.turn cs

def Device.arbiter (d : Device) (r la : Nat) : Arbiter := tabGet (fun _ => arbiter0) d.lwk.arb (13 * r + la)

/-- The arbiter after a grant. -/
def Device.granted (d : Device) (r la cls : Nat) : Device :=
  let a := d.arbiter r la
  let a := if cls = 4 || cls = 5 then { a with rsp := cls }
    else if group4.contains cls then
      (if a.left ≠ 0 && a.cls = cls then { a with left := a.left - 1 } else { a with cls := cls, left := d.arbWeight cls - 1 })
    else a
  { d with lwk := { d.lwk with arb := tabSet (fun _ => arbiter0) d.lwk.arb (13 * r + la) a } }

/-- The input that holds a packet's header. -/
def Flight.at? (f : Flight) : Option Segment := f.trail.head?

/-- Whether a packet's header stands first in its buffer. -/
def Flight.first (f : Flight) (fs : List Flight) : Bool :=
  match f.at? with
  | none => false
  | some g => !fs.any (fun h => h.pkt.cls == f.pkt.cls && h.trail.any (fun k => k.inp == g.inp && decide (k.at_ < g.at_)))

/-- Whether a header can leave by the output it is aimed at: it stands first, and beyond the router there is room. -/
def Flight.canGo (f : Flight) (fs : List Flight) : Bool :=
  match f.at? with
  | none => false
  | some g => f.first fs &&
      (f.pkt.la.toNat < 8 || canEnter fs (farInput (g.inp / 13) f.pkt.la.toNat) f.pkt.cls.toNat)

/-- Classes of the headers that wait for an output and can leave by it. -/
def Device.waiting (d : Device) (r la : Nat) : List Nat :=
  (d.lwk.flights.filter (fun f => f.pkt.la.toNat == la && f.canGo d.lwk.flights &&
    (match f.at? with
     | some g => g.inp / 13 == r
     | none => false))).map (fun f => f.pkt.cls.toNat)

/-- Whether its output grants a header its passage; waited is how many cycles its virtual channel has waited for the
output (log entry 5). Which of two inputs goes first on one virtual channel is not stated, and is the command's. -/
def Device.mayGo (d : Device) (f : Flight) (waited : Nat) : Bool :=
  match f.at? with
  | none => false
  | some g =>
    let r := g.inp / 13
    let c := f.pkt.cls.toNat
    let aged := if group4.contains c && decide (d.get1 LWK_ARB_AGE_LIMIT ≤ waited) then [c] else []
    f.canGo d.lwk.flights && (d.arbiter r f.pkt.la.toNat).grant (d.waiting r f.pkt.la.toNat) aged == some c

/-! ### Probes and trace (R118, R119) -/

/-- Writes a trace record at WRPTR. -/
def Device.traceRec (d : Device) (probe : Nat) (p : Packet) : Device :=
  if !d.on LWK_TRC_CTRL_ARM || (!d.on LWK_TRC_CTRL_MODE && d.on LWK_TRC_STATUS_FULL) then d
  else
    match d.drawTime 18 with
    | (cyc, d) =>
      let n := d.get LWK_TRC_STATUS_WRPTR
      let a := cyc + 2 ^ 18 * (d.time.tick % 2 ^ 24) + 2 ^ 42 * probe
      let unit := if p.len = 0 then [] else p.data
      let ws := [a % 2 ^ 32, a / 2 ^ 32] ++ (List.range 4).map (fun i => (pktLow p) / 2 ^ (32 * i)) ++
        [leNat (unit.take 4), leNat ((unit.drop 4).take 4)]
      let d := ws.zipIdx.foldl (fun (d : Device) x => d.setWord (LWK_TRC_BUF (8 * n + x.2)) (BitVec.ofNat 32 x.1)) d
      let d := d.put LWK_TRC_STATUS_WRPTR ((n + 1) % 2048)
      let k := d.lwk.traced
      let d := { d with lwk := { d.lwk with traced := min 2048 (k + 1) } }
      if d.on LWK_TRC_CTRL_MODE then (if k = 2048 then d.put LWK_TRC_STATUS_WRAPPED 1 else d)
      else if k + 1 < 2048 then d
      else (d.put LWK_TRC_STATUS_FULL 1).pulse 265

/-- The probes that watch an input: probe 2y + d at the crossing receiver of row y from die d, and those placed there. -/
def Device.probesAt (d : Device) (inp : Nat) : List Nat :=
  let r := inp / 13
  let loc := 64 * (r / 48) + 8 * (r % 6) + r % 48 / 6
  (if inp % 13 = 12 then [2 * (r % 48 / 6) + (1 - r / 48)] else []) ++
    ((List.range 8).map (16 + ·)).filter (fun p =>
      d.get (LWK_PRB_CFG_LOCATION p) == loc && d.get (LWK_PRB_CFG_INPUT p) == inp % 13)

/-- A header unit at an input: every probe there that matches it counts it when it counts, and traces it when it
traces. -/
def Device.probe (d : Device) (inp : Nat) (p : Packet) : Device :=
  (d.probesAt inp).foldl (fun (d : Device) n =>
    let hit := (List.range 4).all (fun i =>
      (((pktLow p) / 2 ^ (32 * i) % 2 ^ 32).xor (d.get (LWK_PRB_MATCH_MATCH n i))).land (d.get (LWK_PRB_MASK_MASK n i)) == 0)
    let d := if d.on (LWK_PRB_CFG_EN n) && hit then d.bump (LWK_PRB_COUNT_COUNT n) 1 else d
    if d.on (LWK_PRB_CFG_TRACE n) && hit then d.traceRec n p else d) d

/-- A packet's header passes every input of its path. -/
def Device.probePath (d : Device) (p : Packet) : Device := (pktPath p).foldl (fun (d : Device) x => d.probe x.1 x.2) d

/-! ### Requests and their statistics (R95, R102, R116, R575) -/

/-- Whether the initiator's interface keeps a record of a request: one that awaits a response, or a posted write,
which awaits its acknowledgement. EVENT and DOORBELL are posted. -/
def pktAwaits (p : Packet) : Bool :=
  p.cmd.toNat ≠ cEvent && p.cmd.toNat ≠ cBell && (!p.posted || p.cmd.toNat == cWr)

/-- The response packet to a request. To a request of a CMD that R93 does not list, and to an EVENT or DOORBELL, the
spec names no response command: ATOM_RSP (DESIGN CHOICE, log entry 49). -/
def respPacket (p : Packet) (r : Resp) : Packet :=
  let c := p.cmd.toNat
  { p with
    dest := p.src, src := p.dest
    cmd := if c = cRd then 3 else if c = cWr then (if p.posted && r.code = 0 then 5 else 4) else 10
    len := if c = cRd && r.code = 0 then p.len else 0
    cls := if p.cls = 0 then 4 else 5
    posted := false, barrier := false, wake := false, prov := r.prov, verify := r.verify
    firstBE := BitVec.allOnes 64, lastBE := BitVec.allOnes 64
    resp := BitVec.ofNat 3 r.code, inl := BitVec.ofNat 64 r.inl, data := r.data }

/-- Counts a request at its initiator's port (R116). -/
def Device.statInject (d : Device) (p : Packet) : Device :=
  let n := p.src.toNat
  let s := tabGet (fun _ => stat0) d.lwk.stat n
  let bytes := if p.cmd.toNat = cWr then (if p.len = 0 then 8 else 64 * p.len.toNat) else 0
  let s := { s with bytes := s.bytes + bytes, pkts := s.pkts + 1 }
  { d with lwk := { d.lwk with stat := tabSet (fun _ => stat0) d.lwk.stat n s } }

/-- Counts the completion of a non-posted request at its initiator's port, with its latency when a response ended it
(R116; log entry 5). -/
def Device.statDone (d : Device) (p : Packet) (answered : Bool) : Device :=
  let n := p.src.toNat
  let keep := fun (d : Device) (f : NodeStat → NodeStat) =>
    { d with lwk := { d.lwk with stat := tabSet (fun _ => stat0) d.lwk.stat n (f (tabGet (fun _ => stat0) d.lwk.stat n)) } }
  if !answered then keep d (fun s => { s with np := s.np + 1 })
  else match d.drawTime 24 with
    | (t, d) =>
      let w := 2 ^ d.get LWK_STAT_CTRL_HIST_SHIFT
      let bin := ((List.range 15).find? (fun i => t < w * 2 ^ i)).getD 15
      keep d (fun s => { s with np := s.np + 1, hist := s.hist.set bin (s.hist.getD bin 0 + 1) })

/-- Counts what is ejected at a node (R575). -/
def Device.statEject (d : Device) (n bytes : Nat) : Device :=
  let s := tabGet (fun _ => stat0) d.lwk.stat n
  let s := { s with tgtBytes := s.tgtBytes + bytes, tgtPkts := s.tgtPkts + 1 }
  { d with lwk := { d.lwk with stat := tabSet (fun _ => stat0) d.lwk.stat n s } }

/-! ### Traffic of the engines, the Dispatcher and Hayward (R102, R109, R114, R116, R118) -/

/-- The engine queues that stand behind a node: TARGET and engine, as the Dispatcher numbers them (R338). -/
def nodeQueues (n : Nat) : List Nat :=
  ((List.range 32).filter (fun e => feNode e == n)).map (256 + ·) ++
    (List.range 4).flatMap (fun q =>
      (if meNode q = n then [512 + q] else []) ++ (if peNode q = n then [768 + q] else []) ++
        (if fecNode q 0 = n then [1024 + q] else []) ++ (if fecNode q 1 = n then [1280 + q] else []))

/-- CLASS of a request of a work item: 0 of the uplink, downlink and control work classes, else 1 (R102). -/
def itemClass (i : Item) : Nat := if i.cls < 5 then 0 else 1

/-- CLASS and TICK of a node's own request: of the item at the head of its queue; 7 and 0 of Hayward, 3 of a
cluster's dump (R571), 6 of another with no item (DESIGN CHOICE, log entry 49). -/
def Device.nodeMark (d : Device) (n : Nat) : Nat × Nat :=
  match (nodeQueues n).findSome? (fun k => (tabGet (fun _ => engine0) d.engines k).queue.head?) with
  | some q =>
    let i := tabGet (fun _ => item0) d.items q.item
    (itemClass i, i.release % 4096)
  | none => (if n = d.aon then 7 else if (nodeCluster n).isSome then 3 else 6, 0)

/-- The header of a node's own request. -/
def Device.ownPacket (d : Device) (src dst cmd units a : Nat) : Packet :=
  let m := d.nodeMark src
  ⟨BitVec.ofNat 10 dst, BitVec.ofNat 10 src, BitVec.ofNat 6 cmd, BitVec.ofNat 8 units, 0, BitVec.ofNat 3 m.1, false,
    BitVec.ofNat 12 m.2, BitVec.ofNat 48 a, false, false, false, false, false, 0, 0, 0, BitVec.allOnes 64, BitVec.allOnes 64, 0, []⟩

/-- One request of a node and its response, counted at both ports and past the probes of both ways. -/
def Device.askOnce (d : Device) (src dst cmd units a : Nat) : Device :=
  let e := d.get LWK_EPOCH_CUR
  let p := d.launch (d.ownPacket src dst cmd units a) (e == 1)
  let d := ((d.statInject p).probePath p).statEject dst (if cmd = cWr then (if units = 0 then 8 else 64 * units) else 0)
  let d := (d.statDone p true).probePath (d.launch (respPacket p ok) p.epoch)
  d.statEject src (if cmd = cRd then 64 * units else 0)

/-- A node reads or writes n bytes at an address: as few requests as R90's 64 data units allow (DESIGN CHOICE, log entry
49). -/
def Device.asks (d : Device) (src a n : Nat) (write : Bool) : Device :=
  match d.resolve (d.get LWK_EPOCH_CUR) a with
  | .answer _ => d
  | .node dst =>
    (List.range ((n + 4095) / 4096)).foldl (fun (d : Device) i =>
      d.askOnce src dst (if write then cWr else cRd) ((min 4096 (n - 4096 * i) + 63) / 64) (a + 4096 * i)) d

/-- A node's reads of several places: address and bytes of each. -/
def Device.reads (d : Device) (src : Nat) (l : List (Nat × Nat)) : Device :=
  l.foldl (fun (d : Device) x => d.asks src x.1 x.2 false) d

/-- A posted doorbell of a node, counted and past the probes of its way; whether the port of its target is open to it
(R109, R112, R114). -/
def Device.posts (d : Device) (src dst : Nat) : Device × Bool :=
  let p := d.launch { d.ownPacket src dst cBell 0 0 with cls := 6, posted := true } (d.on LWK_EPOCH_CUR)
  let d := ((d.statInject p).probePath p).statEject dst 0
  match d.portAnswer dst with
  | some r => (if r.code = 1 then d.pulse 269 else d, false)
  | none => (d, true)

/-- Whether the port of a Heath bank is open to a request (R109, R114). -/
def Device.heathOpen (d : Device) (b : Nat) : Bool := (d.portAnswer (bankNode b)).isNone

end Sys2Proof.Machine
end

