-- ==== Sys2Proof/Machine/Heath.lean ====
section
/-! DEFINITION. Heath: tile headers, the header operations, payload reads and writes, mismatches,
forced seals and bank retirement (R122 to R146, R605). -/

namespace Sys2Proof.Machine
open R

/-! ### Tiles and answers -/

/-- The header of a tile, by its global index 512 × bank + tile. -/
def Device.tile (d : Device) (t : Nat) : Tile := tabGet (fun _ => tile0) d.tiles t

def Device.setTile (d : Device) (t : Nat) (h : Tile) : Device :=
  { d with tiles := tabSet (fun _ => tile0) d.tiles t h }

/-- The Lacework address of a tile's payload (R23). -/
def tileAddr (t : Nat) : Nat := 0x4000000000 + t * 4096

/-- The bank of a tile. -/
def tileBank (t : Nat) : Nat := t / 512

/-- The causes of R135. -/
def cNotFree : Nat := 1
def cNotOpen : Nat := 2
def cWrongWriter : Nat := 3
def cNotSealed : Nat := 4
def cFaulted : Nat := 5
def cAis : Nat := 6
def cRetired : Nat := 7
def cProv : Nat := 8
def cNoBarrier : Nat := 9
def cStale : Nat := 10
def cFormat : Nat := 11
def cNotFec : Nat := 12

/-- STATE of word 1 (R123). -/
def TileState.code : TileState → Nat
  | .free => 0
  | .opened => 1
  | .sealed => 2
  | .faulted => 3

/-- Word 1 of a header (R123). -/
def Tile.word1 (h : Tile) : Nat :=
  h.st.code + 4 * (h.gen % 16) + 64 * b2n h.ais + 128 * b2n h.mute + 256 * b2n h.prov + 512 * b2n h.forced

/-- Word 2 of a header. -/
def Tile.word2 (h : Tile) : Nat :=
  h.slot % 65536 + 65536 * (h.carrier % 64) + 2 ^ 24 * (h.symbol % 16) + 2 ^ 28 * (h.format % 16)

/-- Word 3 of a header. -/
def Tile.word3 (h : Tile) : Nat := h.port % 512 + 512 * b2n h.kind + 65536 * (h.first % 65536)

/-- The 28 bytes of a header before word 7. -/
def Tile.bytes28 (h : Tile) : List Byte :=
  leBytes 4 h.picot ++ leBytes 4 h.word1 ++ leBytes 4 h.word2 ++ leBytes 4 h.word3 ++
  leBytes 4 (h.writer % 1024) ++ leBytes 4 (h.count % 16384 + 65536 * (h.erasures % 256)) ++
  leBytes 4 h.sealTick

/-- The 32 bytes of a header as the bank keeps it, HCHK last (R123, R124). -/
def Tile.bytes (h : Tile) : List Byte := h.bytes28 ++ leBytes 4 (2 ^ 24 * crc8 h.bytes28)

/-- Whether a bank is retired (R141). -/
def Device.retired (d : Device) (b : Nat) : Bool := d.get (HTH_BANK_STATE_STATE b) == 2

/-! ### Mismatches (R137, R141, R145) -/

/-- Writes one fault log entry at NEXT (R146). -/
def Device.heathLog (d : Device) (t cause node : Nat) : Device :=
  let n := d.get HTH_LOG_PTR_NEXT
  let d := ((((d.put (HTH_LOG_A_BANK n) (tileBank t)).put (HTH_LOG_A_TILE n) (t % 512)).put
    (HTH_LOG_A_CAUSE n) cause).put (HTH_LOG_A_NODE n) node).put (HTH_LOG_B_TICK n) d.time.tick
  let d := if d.heath.logged = 16 then d.put HTH_LOG_PTR_WRAPPED 1 else d
  { d with heath := { d.heath with logged := min 16 (d.heath.logged + 1) } }.put HTH_LOG_PTR_NEXT (n + 1)

/-- The event of a bank group with a cause bit (R145). -/
def Device.heathEvent (d : Device) (f : Nat → Fld) (b : Nat) : Device := d.cause (f (b / 4)) (236 + b / 4)

/-- A counted picot (cause 5) or HCHK (cause 13) mismatch of a tile that became FAULTED, found by
a node: counted, logged, and raised once per group and window; a bank that reaches RETIRE_LIMIT
is due for retirement (R141, R145). -/
def Device.mismatch (d : Device) (t cause node : Nat) : Device :=
  let b := tileBank t
  let d := ((d.count HTH_CNT_MISMATCH_COUNT 1).tally 2 1).bump (HTH_BANK_STATE_FAULTS b) 1
  let d := d.heathLog t cause node
  let c := tabGet (fun _ => 0) d.heath.cnt b + 1
  let d := { d with heath := { d.heath with cnt := tabSet (fun _ => 0) d.heath.cnt b c } }
  let d := if tabGet (fun _ => false) d.heath.seen (b / 4) then d
    else ({ d with heath := { d.heath with seen := tabSet (fun _ => false) d.heath.seen (b / 4) true } }).heathEvent
      HTH_EV_CAUSE_MISMATCH b
  if d.get1 HTH_CTRL_RETIRE_LIMIT ≤ c && !d.retired b && !d.heath.due.contains b then
    { d with heath := { d.heath with due := d.heath.due ++ [b] } }
  else d

/-- The HCHK check at a header access: a failing tile is set FAULTED first (R124, R605). -/
def Device.hchk (d : Device) (t : Nat) (bad : Bool) : Device :=
  if bad then
    (d.setTile t { d.tile t with st := .faulted }).mismatch t 13 (bankNode (tileBank t))
  else d

/-- The same for the headers that an access reaches, bad naming those that fail. -/
def Device.hchks (d : Device) (ts bad : List Nat) : Device :=
  ts.foldl (fun (d : Device) t => if d.retired (tileBank t) then d else d.hchk t (bad.contains t)) d

/-- Counts a refused write or operation, causes 1 to 3 and 9 to 12 (R146). -/
def Device.refuse (d : Device) (c : Nat) : Device × Resp :=
  (if c ≤ 3 || (9 ≤ c && c ≤ 12) then d.count HTH_CNT_REFUSED_COUNT 1 else d, tileFault c)

/-! ### Header operations (R125, R126, R605) -/

/-- OPEN: words 2 and 3 from INLINE. -/
def Device.opOpen (d : Device) (t src inl : Nat) (bad : Bool) : Device × Resp :=
  if d.retired (tileBank t) then (d, tileFault cRetired) else
  let d := d.hchk t bad
  let h := d.tile t
  let fmt := bits inl 31 28
  if 7 < fmt || (fmt == 6 && !isFecNode src) then d.refuse cFormat
  else if h.st ≠ .free then d.refuse cNotFree
  else (d.setTile t { h with
      st := .opened, gen := (h.gen + 1) % 16
      slot := bits inl 15 0, carrier := bits inl 21 16, symbol := bits inl 27 24, format := fmt
      port := bits inl 40 32, kind := bit inl 41, first := bits inl 63 48
      writer := src, ais := false, mute := false, prov := false, forced := false
      count := 0, erasures := 0 }, ok)

/-- SEAL: PICOT, AIS, MUTE, ERASURES and COUNT from INLINE. -/
def Device.opSeal (d : Device) (t src inl : Nat) (barrier bad : Bool) : Device × Resp :=
  if d.retired (tileBank t) then (d, tileFault cRetired) else
  let d := d.hchk t bad
  let h := d.tile t
  if !barrier then d.refuse cNoBarrier
  else if h.st ≠ .opened then d.refuse cNotOpen
  else if h.writer ≠ src then d.refuse cWrongWriter
  else (d.setTile t { h with
      st := .sealed, picot := bits inl 31 0, ais := bit inl 32, mute := bit inl 33
      erasures := bits inl 41 34, count := bits inl 55 42, sealTick := d.time.tick % 2 ^ 32 }, ok)

/-- RELEASE: GEN or ANY_GEN; every header field but STATE stays. -/
def Device.opRelease (d : Device) (t gen : Nat) (any bad : Bool) : Device × Resp :=
  if d.retired (tileBank t) then (d, tileFault cRetired) else
  let d := d.hchk t bad
  let h := d.tile t
  if !any && h.gen ≠ gen then d.refuse cStale
  else (d.setTile t { h with st := .free }, ok)

/-- MARK FAULT: an accepted one is counted and logged as a picot mismatch found by SRC (R132, R141). -/
def Device.opMarkFault (d : Device) (t src gen : Nat) (bad : Bool) : Device × Resp :=
  if d.retired (tileBank t) then (d, tileFault cRetired) else
  let d := d.hchk t bad
  let h := d.tile t
  if h.gen ≠ gen || h.st ≠ .sealed then d.refuse cStale
  else ((d.setTile t { h with st := .faulted }).mismatch t 5 src, ok)

/-- MARK CLR_PROV, from the FEC group only. -/
def Device.opClrProv (d : Device) (t src gen : Nat) (bad : Bool) : Device × Resp :=
  if d.retired (tileBank t) then (d, tileFault cRetired) else
  let d := d.hchk t bad
  let h := d.tile t
  if !isFecNode src then d.refuse cNotFec
  else if h.gen ≠ gen || h.st ≠ .sealed then d.refuse cStale
  else (d.setTile t { h with prov := false }, ok)

/-- A LEN = 0 write to the header region: which of the four operations its offset names; any other
write is answered DECODE_ERR (R125). -/
def Device.headerWrite (d : Device) (off src inl : Nat) (barrier bad : Bool) : Device × Resp :=
  let t := off / 32
  match off % 32 with
  | 0x00 => d.opOpen t src inl bad
  | 0x08 => d.opSeal t src inl barrier bad
  | 0x10 => d.opRelease t (bits inl 3 0) (bit inl 4) bad
  | 0x18 =>
    match bits inl 7 4 with
    | 1 => d.opMarkFault t src (bits inl 3 0) bad
    | 2 => d.opClrProv t src (bits inl 3 0) bad
    | _ => (d, decodeErr)
  | _ => (d, decodeErr)

/-! ### Payload (R127, R131 to R134) -/

/-- The bytes of a write with their byte enables: the first and the last data unit of 64 bytes
have enables of their own, and a single unit uses the first (R89, R90). -/
def enabled (firstBE lastBE : Nat) (n i : Nat) : Bool :=
  let units := (n + 63) / 64
  let be := if i / 64 = 0 then firstBE else if i / 64 + 1 = units then lastBE else 2 ^ 64 - 1
  bit be (i % 64)

/-- Stores the enabled bytes of a write. -/
def Device.storeBE (d : Device) (a firstBE lastBE : Nat) (bs : List Byte) : Device :=
  { d with mem := (bs.zipIdx).foldl (fun m p =>
      if enabled firstBE lastBE bs.length p.2 then memSet m (a + p.2) p.1 else m) d.mem }

/-- The tiles that n bytes from payload offset o touch. -/
def tilesOf (o n : Nat) : List Nat :=
  (List.range ((o + (n - 1)) / 4096 + 1 - o / 4096)).map (fun i => o / 4096 + i)

/-- Why a tile refuses a payload write, if it does (R127, R605). -/
def Device.writeBar (d : Device) (t src : Nat) : Option Nat :=
  if d.retired (tileBank t) then some cRetired
  else if (d.tile t).st ≠ .opened then some cNotOpen
  else if (d.tile t).writer ≠ src then some cWrongWriter
  else none

/-- A payload write of bytes at payload offset o: every tile is checked before any byte is written,
and PROV marks every tile it touches (R127). -/
def Device.payWrite (d : Device) (o src : Nat) (prov : Bool) (firstBE lastBE : Nat) (bs : List Byte)
    (bad : List Nat) : Device × Resp :=
  let ts := tilesOf o bs.length
  let d := d.hchks ts bad
  match ts.findSome? (fun t => d.writeBar t src) with
  | some c => d.refuse c
  | none =>
    let d := if prov then ts.foldl (fun d t => d.setTile t { d.tile t with prov := true }) d else d
    (d.storeBE (0x4000000000 + o) firstBE lastBE bs, ok)

/-- The payload bytes of a tile. -/
def Device.payload (d : Device) (t : Nat) : List Byte := d.bytes (tileAddr t) 4096

/-- The bank's own check of a tile for a VERIFY read, and R131's answer by state: none when the
data may go out (R131, R133). -/
def Device.tileBar (d : Device) (t : Nat) (verify : Bool) : Device × Option Nat :=
  let h := d.tile t
  match h.st with
  | .faulted => (d, some cFaulted)
  | .free => (d, some cNotSealed)
  | .opened => (d, some cNotSealed)
  | .sealed =>
    if h.ais then ((d.count HTH_CNT_AIS_COUNT 1).tally 3 1, some cAis)
    else if verify && crc32c (d.payload t) ≠ h.picot then
      ((d.setTile t { h with st := .faulted }).mismatch t 5 (bankNode (tileBank t)), some cFaulted)
    else (d, none)

/-- A whole-tile read (R131, R133, R134). -/
def Device.readWhole (d : Device) (t src : Nat) (verify bad : Bool) : Device × Resp :=
  if d.retired (tileBank t) then (d, tileFault cRetired) else
  let d := d.hchk t bad
  if (d.tile t).prov && isPcieNode src then (d, tileFault cProv) else
  match d.tileBar t verify with
  | (d, some c) => (d, tileFault c)
  | (d, none) =>
    let h := d.tile t
    (d, ⟨0, h.picot + 2 ^ 32 * h.word1, h.prov, verify, d.payload t⟩)

/-- The verified checks of several tiles, lowest address first; the first refusal answers. -/
def Device.tileBars : Device → List Nat → Device × Option Nat
  | d, [] => (d, none)
  | d, t :: ts =>
    match d.tileBar t true with
    | (d, some c) => (d, some c)
    | (d, none) => d.tileBars ts

/-- A partial read of n bytes at payload offset o (R133, R134). -/
def Device.readPart (d : Device) (o n src : Nat) (verify : Bool) (bad : List Nat) : Device × Resp :=
  let ts := tilesOf o n
  if ts.any (fun t => d.retired (tileBank t)) then (d, tileFault cRetired) else
  let d := d.hchks ts bad
  let prov := ts.any (fun t => (d.tile t).prov)
  if prov && isPcieNode src then (d, tileFault cProv)
  else if verify then
    match d.tileBars ts with
    | (d, some c) => (d, tileFault c)
    | (d, none) => (d, ⟨0, 0, prov, true, d.bytes (0x4000000000 + o) n⟩)
  else (d.count HTH_CNT_UNVERIFIED_COUNT 1, ⟨0, 0, prov, false, d.bytes (0x4000000000 + o) n⟩)

/-- A read of n bytes of the header region: headers as stored (R125), once their
checks are made (R124). -/
def Device.readHdr (d : Device) (o n : Nat) (bad : List Nat) : Device × Resp :=
  if d.retired (tileBank (o / 32)) then (d, tileFault cRetired)
  else
    let k := (o % 32 + n + 31) / 32
    let d := d.hchks ((List.range k).map (o / 32 + ·)) bad
    let bs := (List.range k).flatMap (fun i => (d.tile (o / 32 + i)).bytes)
    (d, ⟨0, 0, false, false, (bs.drop (o % 32)).take n⟩)

/-- A header or payload operation inside the device, whose answer the sender needs no more. -/
def Device.quiet (p : Device × Resp) : Device := p.1

/-! ### Seals that are not the writer's own (R139) -/

/-- Every OPEN tile of a writer is sealed by Heath with AIS and FORCED set and PICOT 0. -/
def Device.forceSeal (d : Device) (writer : Nat) : Device :=
  let hit := fun (h : Tile) => h.st == .opened && h.writer == writer
  let n := (d.tiles.filter (fun p => hit p.2)).length
  let d := d.count HTH_CNT_FORCED_COUNT n
  { d with tiles := d.tiles.map (fun p => (p.1, if hit p.2 then
      { p.2 with st := .sealed, ais := true, forced := true, picot := 0, sealTick := d.time.tick % 2 ^ 32 }
      else p.2)) }

/-- A writer's OPEN tile is sealed with AIS and PICOT 0, its payload as it stands (R139). -/
def Device.sealAis (d : Device) (writer t eras count : Nat) : Device :=
  let h := d.tile t
  if h.st == .opened && h.writer == writer && !d.retired (tileBank t) then
    d.setTile t { h with
      st := .sealed, ais := true, picot := 0, erasures := min eras 255, count := count, sealTick := d.time.tick % 2 ^ 32 }
  else d

/-- The same with COUNT and ERASURES as they stand. -/
def Device.sealLate (d : Device) (writer t : Nat) : Device := d.sealAis writer t (d.tile t).erasures (d.tile t).count

/-- A tile with 4,096 payload bytes, sealed by its writer with their CRC-32C and the given fields. -/
def Device.sealWith (d : Device) (writer t : Nat) (bs : List Byte) (mute prov : Bool) (erasures count : Nat) :
    Device :=
  let h := d.tile t
  if h.st == .opened && h.writer == writer && !d.retired (tileBank t) then
    let d := d.store (tileAddr t) bs
    d.setTile t { h with
      st := .sealed, picot := crc32c bs, ais := false, mute := mute, prov := h.prov || prov
      erasures := min erasures 255, count := count, sealTick := d.time.tick % 2 ^ 32 }
  else d

/-- 4,096 bytes of zeros. -/
def zeroTile : List Byte := List.replicate 4096 0

/-- A whole-tile read by an engine, which checks the picot itself: none is an erasure, and a
mismatch sends MARK FAULT (R132, R136). Whether the header passes its check is free (log entry 5). -/
def Device.engineRead (d : Device) (t node : Nat) : Device × Option (List Byte) :=
  let d := d.asks node (tileAddr t) 4096 false
  if !d.heathOpen (tileBank t) then (d, none)
  else match d.drawBool with
  | (bad, d) => match d.readWhole t node false bad with
    | (d, r) =>
      if r.code ≠ 0 then (d, none)
      else if crc32c r.data ≠ r.inl % 2 ^ 32 then
        ((d.opMarkFault t node (bits r.inl 37 34) false).1, none)
      else (d, some r.data)

/-- An engine opens a tile of an open port and ends it with f: its payload when it writes one, then its seal. -/
def Device.engineWrite (d : Device) (node t inl : Nat) (pay : Bool) (f : Device → Device) : Device :=
  if !d.heathOpen (tileBank t) then d
  else
    let h := 0x4400000000 + 32 * t
    let d := d.askOnce node (bankNode (tileBank t)) cWr 0 h
    let d := if pay then d.asks node (tileAddr t) 4096 true else d
    f (((d.askOnce node (bankNode (tileBank t)) cWr 0 (h + 8)).opOpen t node inl false).1)

/-! ### Retirement (R140 to R143) -/

/-- Every header of a bank group FREE with GEN 0 and all other fields 0, as on leaving Off (R140). -/
def Device.groupReset (d : Device) (g : Nat) : Device :=
  { d with tiles := d.tiles.filter (fun p => p.1 / 2048 ≠ g) }

/-- HTH_STATUS.HEADROOM and RETIRED from the bank states (R146). -/
def Device.heathStatus (d : Device) : Device :=
  let head := fun q => (List.range 20).any (fun i => d.get (HTH_BANK_STATE_STATE (20 * q + i)) == 1)
  let m := (List.range 4).foldl (fun n q => n + b2n (head q) * 2 ^ q) 0
  let r := ((List.range 80).filter (fun b => d.retired b)).length
  (d.put HTH_STATUS_HEADROOM m).put HTH_STATUS_RETIRED r

/-- A bank group's domain brought to Run: from Off, its headers reset first (R140, R141, R501). -/
def Device.runGroup (d : Device) (g : Nat) : Device :=
  let st := d.get (ELP_DOM_STATE_STATE (20 + g))
  if st = 6 then d
  else
    let d := if st = 4 then d.groupReset g else d
    d.put (ELP_DOM_STATE_STATE (20 + g)) 0

/-- Retires a bank: marked RETIRED; if a panel owned it, the quadrant's lowest headroom bank takes
its place, else NO_HEADROOM (R141). -/
def Device.retireBank (d : Device) (b : Nat) : Device :=
  let inPanel := d.get (HTH_BANK_STATE_STATE b) == 0
  let panel := d.get (HTH_BANK_STATE_PANEL b)
  let q := b / 20
  let d := (d.put (HTH_BANK_STATE_STATE b) 2).put (HTH_BANK_STATE_PANEL b) 0x1F
  let d := { d with heath := { d.heath with
    retired := d.heath.retired ++ [b], due := d.heath.due.filter (· ≠ b) } }
  let new := ((List.range 20).map (20 * q + ·)).find? (fun n => d.get (HTH_BANK_STATE_STATE n) == 1)
  let d := match inPanel, new with
    | true, some n => ((d.runGroup (n / 4)).put (HTH_BANK_STATE_STATE n) 0).put (HTH_BANK_STATE_PANEL n) panel
    | true, none => d.put (HTH_EV_CAUSE_NO_HEADROOM (b / 4)) 1
    | false, _ => d
  d.heathStatus.heathEvent HTH_EV_CAUSE_RETIRED b

/-! ### Meanings -/

/-- What a request to a bank comes to: the answer of a closed port, or the bank's (R109, R114, R140). -/
def Device.atBank (d : Device) (b : Nat) (f : Device → Device × Resp) : Device × Resp :=
  match d.portAnswer (bankNode b) with
  | some r => (d, r)
  | none => f d

/-- A command's effect that answers the asking node. -/
def State.answer (s : State) (src : Nat) (f : Device → Device × Resp) : Host.Outcome State Fault Refusal :=
  let p := f s.dev
  .next { s with dev := p.1.emit (.resp src p.2) }

/-- OPEN (R125, R126). -/
def execOpenTile (t : Fin 40960) (src : BitVec 10) (inl : BitVec 64) (hchkBad : Bool) (s : State) :
    Host.Outcome State Fault Refusal :=
  s.answer src.toNat (fun d => d.atBank (tileBank t.val) fun d => d.opOpen t.val src.toNat inl.toNat hchkBad)

/-- SEAL (R125, R126). -/
def execSealTile (t : Fin 40960) (src : BitVec 10) (inl : BitVec 64) (barrier hchkBad : Bool) (s : State) :
    Host.Outcome State Fault Refusal :=
  s.answer src.toNat (fun d => d.atBank (tileBank t.val) fun d => d.opSeal t.val src.toNat inl.toNat barrier hchkBad)

/-- RELEASE (R125, R126). -/
def execReleaseTile (t : Fin 40960) (src : BitVec 10) (inl : BitVec 64) (hchkBad : Bool) (s : State) :
    Host.Outcome State Fault Refusal :=
  s.answer src.toNat (fun d => d.atBank (tileBank t.val) fun d => d.opRelease t.val (bits inl.toNat 3 0) (bit inl.toNat 4) hchkBad)

/-- MARK with action FAULT (R125, R126, R132). -/
def execMarkFault (t : Fin 40960) (src : BitVec 10) (gen : BitVec 4) (hchkBad : Bool) (s : State) :
    Host.Outcome State Fault Refusal :=
  s.answer src.toNat (fun d => d.atBank (tileBank t.val) fun d => d.opMarkFault t.val src.toNat gen.toNat hchkBad)

/-- MARK with action CLR_PROV (R125, R126). -/
def execMarkClrProv (t : Fin 40960) (src : BitVec 10) (gen : BitVec 4) (hchkBad : Bool) (s : State) :
    Host.Outcome State Fault Refusal :=
  s.answer src.toNat (fun d => d.atBank (tileBank t.val) fun d => d.opClrProv t.val src.toNat gen.toNat hchkBad)

/-- A payload write (R127). -/
def execPayloadWrite (addr : Fin 167772160) (src : BitVec 10) (prov : Bool) (firstBE lastBE : BitVec 64)
    (data : List Byte) (hchkBad : List (Fin 40960)) (s : State) :
    Host.Outcome State Fault Refusal :=
  s.answer src.toNat (fun d => d.atBank (tileBank (addr.val / 4096)) fun d =>
    d.payWrite addr.val src.toNat prov firstBE.toNat lastBE.toNat data (hchkBad.map (·.val)))

/-- A whole-tile read (R131). -/
def execWholeTileRead (t : Fin 40960) (src : BitVec 10) (verify hchkBad : Bool) (s : State) :
    Host.Outcome State Fault Refusal :=
  s.answer src.toNat (fun d => d.atBank (tileBank t.val) fun d => d.readWhole t.val src.toNat verify hchkBad)

/-- A partial read of 64-byte units, or of 8 bytes when LEN is 0 (R133). -/
def execPartialRead (addr : Fin 167772160) (units : Fin 65) (src : BitVec 10) (verify : Bool)
    (hchkBad : List (Fin 40960)) (s : State) : Host.Outcome State Fault Refusal :=
  s.answer src.toNat (fun d => d.atBank (tileBank (addr.val / 4096)) fun d =>
    d.readPart addr.val (if units.val = 0 then 8 else 64 * units.val) src.toNat verify (hchkBad.map (·.val)))

/-- A read of the header region (R125). -/
def execHeaderRead (off : Fin 1310720) (units : Fin 65) (src : BitVec 10) (hchkBad : List (Fin 40960)) (s : State) :
    Host.Outcome State Fault Refusal :=
  s.answer src.toNat (fun d => d.atBank (tileBank (off.val / 32)) fun d =>
    d.readHdr off.val (if units.val = 0 then 8 else 64 * units.val) (hchkBad.map (·.val)))

/-- A retirement window closes at the edge that ends it; counts return to 0 and the next window
opens with the WIN then in force (R141). -/
def execRetireWindowClose (s : State) : Host.Outcome State Fault Refusal :=
  s.run (fun d =>
    if d.heath.winLen ≠ 0 && d.heath.winOpen + d.heath.winLen ≤ d.time.edges then
      let d := (List.range 80).foldl (fun d b => d.put (HTH_BANK_STATE_FAULTS b) 0) d
      { d with heath := { d.heath with
        cnt := [], seen := [], winOpen := d.time.edges, winLen := d.get1 HTH_RETIRE_WIN } }
    else d)

/-- A bank that is due is retired at the base tick edge (R141). -/
def execBankRetire (b : Fin 80) (s : State) : Host.Outcome State Fault Refusal :=
  s.run (fun d => if d.heath.due.contains b.val && !d.retired b.val then d.retireBank b.val else d)

end Sys2Proof.Machine
end

