-- ==== Sys2Proof/Machine/Ledger.lean ====
section
/-! DEFINITION. The energy ledger's own arithmetic: requests, the close of a base tick, shedding
and wear (R481 to R486, R492). Energies are in nJ. -/

namespace Sys2Proof.Machine
open R

/-- The shed stages in force, as registers hold them, up to the end of the list (R486). -/
def Device.stages (d : Device) : List Nat :=
  ((List.range 8).map (fun s => d.get (ELP_SHED_STAGE_STAGE s))).takeWhile (fun w => w % 16 ≠ 0)

/-- Whether a stage names a kind and panel pair. -/
def stageHas (w kind panel : Nat) : Bool :=
  w % 16 == kind && (bits w 23 4 == 0 || bit w (4 + panel))

/-- Whether a pair lies in stages 1 to L. -/
def stagesHave (ws : List Nat) (l kind panel : Nat) : Bool := (ws.take l).any (fun w => stageHas w kind panel)

/-- A discretionary request of a kind (R483) for a panel with a charge: granted when its pair is not
shed and the charge does not exceed what remains of D, which the grant reduces at once. -/
def Device.askEnergy (d : Device) (kind panel charge : Nat) : Bool × Device :=
  let l := d.ledger
  if stagesHave d.stages (d.get ELP_BUDGET_LEVEL) kind panel || l.d < charge then
    (false, { d with ledger := { l with
      refused := tabSet (fun _ => 0) l.refused kind (tabGet (fun _ => 0) l.refused kind + 1) } })
  else
    let key := 32 * kind + panel
    let l := { l with
      d := l.d - charge
      granted := tabSet (fun _ => 0) l.granted key (tabGet (fun _ => 0) l.granted key + charge) }
    (true, ({ d with ledger := l }).put ELP_BUDGET_D_UJ (min (l.d / 1000) 65535))

/-- The largest of a list of integers, 0 when empty. -/
def maxInt : List Int → Int
  | [] => 0
  | [a] => a
  | a :: t => max a (maxInt t)

/-- P_lim in units of 0.5 W and the term that sets it: thermal first, then wear, then envelope (R481). -/
def Device.powerLimit (d : Device) : Nat × Nat :=
  let env := min 376 (max 110 (d.get ELP_ENVELOPE_ENV))
  let th := if d.get ELP_BUDGET_TSTATE = 0 then 376 else 260
  let we := if d.ledger.wearOut then 260 else 376
  let p := min env (min th we)
  (p, if p = th then 1 else if p = we then 2 else 0)

/-- Energy granted in the closed tick to pairs outside stages 1 to L. -/
def grantedOutside (ws : List Nat) (g : Tab Nat) (l : Nat) : Nat :=
  g.foldl (fun n p => if stagesHave ws l (p.1 / 32) (p.1 % 32) then n else n + p.2) 0

/-- The shed level: the smallest L whose grants outside stages 1 to L fit D, else the number of
stages (R485). -/
def shedLevel (ws : List Nat) (g : Tab Nat) (dd : Nat) : Nat :=
  ((List.range ws.length).find? (fun l => grantedOutside ws g l ≤ dd)).getD ws.length

/-- Energy granted to a kind. -/
def grantedKind (g : Tab Nat) (k : Nat) : Nat := g.foldl (fun n p => if p.1 / 32 = k then n + p.2 else n) 0

/-- The shed stages a new SHED section installs, from the first edge after it is applied (R485). -/
def Device.installStages (d : Device) : Device :=
  match d.ledger.newStages with
  | none => d
  | some ws =>
    let d := (List.range 8).foldl (fun d s => d.put (ELP_SHED_STAGE_STAGE s) (ws.getD s 0)) d
    { d with ledger := { d.ledger with newStages := none } }

/-- The shed level of the next tick, with its causes (R485, R503). -/
def Device.setShed (d : Device) (dd : Nat) : Device :=
  let d := d.installStages
  let old := d.get ELP_BUDGET_LEVEL
  let l := shedLevel d.stages d.ledger.granted dd
  let d := d.put ELP_BUDGET_LEVEL l
  if old ≠ 0 && l = 0 then d.cause ELP_EV_CAUSE_SHED_OFF 10
  else if l ≠ 0 && (old = 0 || (d.on ELP_CTRL_EV_SHED_ALL && l ≠ old)) then d.cause ELP_EV_CAUSE_SHED_ON 10
  else d

/-- The wear counts and balance over a tick of energy e, with its causes (R492). -/
def Device.wear (d : Device) (e : Nat) : Device :=
  let ops := d.ledger.opsTicks + b2n (!d.on ELP_TRIP_TRIPPED)
  let abv := d.ledger.aboveTicks + b2n (decide (16250000 < e))
  let d := if ops = 8000 then d.count ELP_WEAR_OPS_SEC 1 else d
  let d := if abv = 80 then d.count ELP_WEAR_ABOVE_T10MS 1 else d
  let d := { d with ledger := { d.ledger with opsTicks := ops % 8000, aboveTicks := abv % 80 } }
  let exact : Int := 720000 + 2 * (d.get ELP_WEAR_OPS_SEC : Int) - (d.get ELP_WEAR_ABOVE_T10MS : Int)
  let bal : Int := exact / 100
  let d := d.put ELP_WEAR_BAL_SEC (ofSigned 32 bal)
  if !d.ledger.wearOut && exact ≤ 0 then
    ({ d with ledger := { d.ledger with wearOut := true } }).cause ELP_EV_CAUSE_WEAR_OUT 11
  else if d.ledger.wearOut && 6000 ≤ exact then
    ({ d with ledger := { d.ledger with wearOut := false } }).cause ELP_EV_CAUSE_WEAR_OK 11
  else d

/-- The close of a tick: E, G, M, the largest M of eight ticks, B, F and the next D (R482). -/
def Device.closeTick (d : Device) (domE : List Nat) : Device :=
  let e := domE.sum
  let g : Nat := d.ledger.granted.foldl (fun n p => n + p.2) 0
  let ms := (((e : Int) - g) :: d.ledger.ms).take 8
  let mh := maxInt ms
  let p := d.powerLimit
  let b : Int := 62500 * p.1
  let fl : Int := 625 * p.1
  let raw := b - mh - fl
  let dd := if d.get ELP_BUDGET_TSTATE = 2 then 0 else raw.toNat
  let d := (domE.zipIdx).foldl (fun d q => d.put (ELP_DOM_E_NJ q.2) (min q.1 (2 ^ 24 - 1))) d
  let d := (List.range 5).foldl (fun d k =>
      (d.put (ELP_KIND_GRANTED k) (min (grantedKind d.ledger.granted (k + 1) / 1000) 65535)).put
        (ELP_KIND_REFUSED k) (min (tabGet (fun _ => 0) d.ledger.refused (k + 1)) 65535)) d
  let d := (((d.put ELP_TICK_E_E (min (e / 1000) 65535)).put ELP_TICK_E_G (min (g / 1000) 65535)).put
    ELP_MFORE_MHAT (min (mh.toNat / 1000) 65535)).put ELP_MFORE_FLOOR (fl.toNat / 1000)
  let d := (d.put ELP_BUDGET_LIMIT p.2).put ELP_BUDGET_D_UJ (min (dd / 1000) 65535)
  let d := if raw < 0 then (d.put ELP_BUDGET_MAND_OVER 1).cause ELP_EV_CAUSE_MAND_OVER 10
    else d.put ELP_BUDGET_MAND_OVER 0
  let d := d.setShed dd
  let d := d.wear e
  { d with ledger := { d.ledger with d := dd, ms := ms, granted := [], refused := [] } }

end Sys2Proof.Machine
end

