-- ==== Sys2Proof/Machine/Time.lean ====
section
/-! DEFINITION. The tick and the time base: edges, steps, the servo's states, SyncE, 1PPS and the
frame offset (R29 to R56). -/

namespace Sys2Proof.Machine
open R

/-! ### Time-of-day -/

/-- The time-of-day in nanoseconds since the PTP epoch (R39). -/
def TimeBase.tod (t : TimeBase) : Nat := t.sec * 1000000000 + t.ns

/-- The time base at a time-of-day, with TICK recomputed (R29); seconds are 48 bits. -/
def TimeBase.at (t : TimeBase) (tod : Nat) : TimeBase :=
  let sec := tod / 1000000000 % 2 ^ 48
  let ns := tod % 1000000000
  { t with sec := sec, ns := ns, frac := 0, tick := sec * 8000 + ns / 125000 }

/-- The time-of-day of the second and nanoseconds of an event into nanoseconds after the last edge, corrected for the fixed
latency of its mode (R52). -/
def TimeBase.stamp (t : TimeBase) (into mode : Nat) : Nat := ((t.tod + into : Nat) + Config.stampLatency mode : Int).toNat

/-- The time-of-day of the next base tick edge (R29, R44). -/
def TimeBase.nextEdge (t : TimeBase) : Nat := (t.tod / 125000 + 1 + b2n t.skip) * 125000

def Device.setTime (d : Device) (t : TimeBase) : Device := { d with time := t }

/-- Whether any panel runs. -/
def Device.anyRun (d : Device) : Bool := d.on PKL_PANEL_RUN_RUN

/-- Whether a panel runs. -/
def Device.panelRuns (d : Device) (p : Nat) : Bool := bit (d.get PKL_PANEL_RUN_RUN) p

/-! ### Base tick edges -/

/-- Logical clusters of a panel (R61). -/
def Device.panelWord (d : Device) (p w : Nat) : Nat :=
  match d.section? 0x10 p with
  | some s => wordAt s.payload w
  | none => 0

def Device.panelLcs (d : Device) (p : Nat) : List Nat :=
  (List.range 20).filter (fun l => bit (d.panelWord p 0) l)

/-- Carriers mapped to a panel. -/
def Device.carriersOf (d : Device) (p : Nat) : List Nat :=
  (List.range 64).filter (fun c => d.on (PKL_CARRIER_MAP_VALID c) && d.get (PKL_CARRIER_MAP_PANEL c) == p)

/-- Whether this base tick edge is a carrier tick of every carrier a panel processes (R21). -/
def Device.panelEdge (d : Device) (p : Nat) : Bool := (d.carriersOf p).all (fun c => d.onCarrierTick (d.carrierR c))

/-- The gleaner floor credit of every running panel: 1.25 µs per core; a floor item that still runs counts as the
new tick's floor dispatch (R355). -/
def Device.floorCredit (d : Device) : Device :=
  let d := (List.range 20).foldl (fun d p =>
    if d.panelRuns p then d.put (DSP_FLOOR_CREDIT_NS p) (10000 * (d.panelLcs p).length)
    else d.put (DSP_FLOOR_CREDIT_NS p) 0) d
  let standing := (d.items.filter (fun p => p.2.st == .running && p.2.floor)).foldl (fun (t : Tab Bool) p =>
    tabSet (fun _ => false) t p.2.panel true) []
  { d with
    dsp := { d.dsp with floorDone := standing, mid := false, checkAt := 0 }
    items := d.items.map (fun p => (p.1, { p.2 with barred := false })) }

/-- The first retirement window opens at the first edge (R141). -/
def Device.firstWindow (d : Device) : Device :=
  if d.time.edges = 1 then
    { d with heath := { d.heath with winOpen := 1, winLen := d.get1 HTH_RETIRE_WIN } }
  else d

/-- A base tick edge: the time-of-day reaches the next multiple of 125,000 ns and TICK follows it
(R29); the floor credit, the ledger's close, the shed level and the wear counts go with it. -/
def Device.edge (d : Device) (domE : List Nat) : Device :=
  let t := d.time
  let d := d.setTime { t.at t.nextEdge with skip := false, edges := t.edges + 1, run := t.run + (t.nextEdge - t.tod) }
  let d := { d with lwk := { d.lwk with xlinkUe := [] } }
  (d.firstWindow.floorCredit).closeTick domE

/-! ### States of the time base (R41) -/

def stFreerun : Nat := 0
def stAcquiring : Nat := 1
def stLocked : Nat := 2
def stHoldover : Nat := 3

/-- A change of TTB_STATUS.STATE raises EV16; HOLDOVER also EV17; ACQUIRING begins a new stay (R41,
R42, R54). -/
def Device.timeState (d : Device) (st : Nat) : Device :=
  if d.get TTB_STATUS_STATE = st then d
  else
    let d := d.put TTB_STATUS_STATE st
    let d := d.setTime { d.time with
      good := 0, stayStarted := if st = stAcquiring then false else d.time.stayStarted }
    let d := d.pulse 16
    if st = stHoldover then d.pulse 17 else d

/-- A frequency adjustment in units of 1/16 ppb, clamped to ±100 ppm (R55). -/
def clampAdj (i : Int) : Int := clampInt (-1600000) 1600000 i

/-- TTB_SLEW_LIMIT with values above 1,600,000 treated as 1,600,000. -/
def Device.slewLimit (d : Device) : Int := (min (d.get TTB_SLEW_LIMIT_LIMIT) 1600000 : Nat)

/-- The servo's answer to a measurement: the correction it asks for, held to the slew limit while
any panel runs (R42). -/
def Device.servo (d : Device) (want : Int) : Device :=
  if d.on TTB_CTRL_SERVO_HOST then d
  else
    let lim := d.slewLimit
    let corr := if d.anyRun then clampInt (-lim) lim want else want
    let adj := clampAdj (d.time.baseFreq + corr)
    let d := d.put TTB_FREQ_ADJ_ADJ (ofSigned 32 adj)
    if corr ≠ want then (d.put TTB_STATUS_SLEW_LIMITED 1).pulse 24 else d.put TTB_STATUS_SLEW_LIMITED 0

/-- The frequency in force after a measurement is among the last 16 (R41). -/
def Device.noteFreq (d : Device) : Device :=
  d.setTime { d.time with freqs := (toSigned 32 (d.get TTB_FREQ_ADJ_ADJ) :: d.time.freqs).take 16 }

/-- An offset measurement from the source (R41, R42): the last offset, the state it leads to,
Hayward's own step or the servo's slew. -/
def Device.measure (d : Device) (offset want : Int) : Device :=
  let d := d.put TTB_STATUS_OFFSET_NS (ofSigned 16 (clampInt (-32767) 32767 offset))
  let st := d.get TTB_STATUS_STATE
  let d :=
    if st = stFreerun || st = stHoldover then d.timeState stAcquiring
    else if st = stAcquiring then
      let good := if offset.natAbs < 100 then d.time.good + 1 else 0
      let d := d.setTime { d.time with good := good }
      if 16 ≤ good then d.timeState stLocked else d
    else d
  if d.get TTB_STATUS_STATE = stAcquiring && !d.anyRun && !d.time.stayStarted && 1000 < offset.natAbs
      && d.time.step.isNone then
    ((d.setTime { d.time with step := some (-offset), own := true }).put TTB_STATUS_STEP_PENDING 1).noteFreq
  else (d.servo want).noteFreq

/-- Whether the source selected is PTP, PPS_IN, or none (3 is treated as free run). -/
def Device.source (d : Device) : Nat := min 2 (d.get TTB_CTRL_SOURCE)

/-- The average of the last adjustments; where it is no whole number, which neighbour it takes is
left open (R41). -/
def Device.averageFreq (d : Device) : Int × Device :=
  let l := d.time.freqs
  if l.isEmpty then (d.time.baseFreq, d)
  else
    let s := l.foldl (· + ·) 0
    let q := s / (l.length : Int)
    if s % (l.length : Int) = 0 then (q, d)
    else match d.drawBool with
      | (b, d) => (if b then q + 1 else q, d)

/-- The source is lost: from ACQUIRING or LOCKED the frequency is frozen at its average and HOLDOVER
is entered (R41). -/
def Device.sourceLost (d : Device) : Device :=
  let st := d.get TTB_STATUS_STATE
  if st = stAcquiring || st = stLocked then
    let d := match d.averageFreq with
      | (a, d) => (d.setTime { d.time with baseFreq := a }).put TTB_FREQ_ADJ_ADJ (ofSigned 32 (clampAdj a))
    d.timeState stHoldover
  else d

/-- A panel may start: LOCKED or HOLDOVER, or any state with RUN_UNLOCKED; a start once held waits for LOCKED. That a
held start goes on when RUN_UNLOCKED is set afterwards is a DESIGN CHOICE (log entry 50): the spec is silent (R41). -/
def Device.mayStart (d : Device) (p : Nat) : Bool :=
  d.on TTB_CTRL_RUN_UNLOCKED || d.get TTB_STATUS_STATE == stLocked ||
    (d.get TTB_STATUS_STATE == stHoldover && !d.time.heldStarts.contains p)

/-- Whether a panel's start is due at this edge: asked for, its tick past, R21's edge, and the swaps of its clusters made
(R21, R22, R41, R75). -/
def Device.startDue (d : Device) (p : Nat) : Bool :=
  match d.pkl.restart.find? (fun x => x.1 == p) with
  | none => false
  | some (_, boot) => !d.panelRuns p && d.panelEdge p && (boot || isPast 32 (d.get PKL_RESTART_TICK_TICK) d.time.tick) &&
      !d.flt.swap.any (fun x => (d.panelLcs p).contains x.lc)

/-! ### SyncE (R48) -/

/-- The network lane whose recovered clock SYNCE_RCLK0 or 1 carries, divided to 25 MHz; none drives it low. -/
def Device.rclk (d : Device) (n : Nat) : Option Nat :=
  if d.on TTB_CTRL_SYNCE_EN && d.get TTB_CTRL_SYNCE_LANE / 4 = n then some (d.get TTB_CTRL_SYNCE_LANE) else none

/-- Whether CD_PTP takes its frequency from REFCLK_NET, PTP then correcting phase alone. -/
def Device.phaseOnly (d : Device) : Bool := d.on TTB_CTRL_SYNCE_EN

/-! ### Registers with a rule of their own -/

/-- A write of TTB_CTRL: the SyncE fields change only in FREERUN, and free run moves the state there
(R41, R49). -/
def Device.writeTtbCtrl (d : Device) (v : Nat) : Device :=
  let st := d.get TTB_STATUS_STATE
  let en := d.get TTB_CTRL_SYNCE_EN
  let ln := d.get TTB_CTRL_SYNCE_LANE
  let ben := bits v 5 5
  let bln := bits v 8 6
  let refuse := st ≠ stFreerun && (ben ≠ en || bln ≠ ln)
  let d := (((((d.put TTB_CTRL_SOURCE (bits v 1 0)).put TTB_CTRL_PROFILE (bits v 2 2)).put TTB_CTRL_SERVO_HOST
    (bits v 3 3)).put TTB_CTRL_RUN_UNLOCKED (bits v 4 4)).put TTB_CTRL_PTP_DOMAIN (bits v 23 16)).put
    TTB_CTRL_ANNOUNCE_TIMEOUT (bits v 27 24)
  let d := if refuse then d.put TTB_STATUS_REFUSED 1
    else
      let d := (d.put TTB_CTRL_SYNCE_EN ben).put TTB_CTRL_SYNCE_LANE bln
      -- without SyncE the PLL is not locked to REFCLK_NET (DEDUCED, log entry 50)
      if ben = 0 && d.on TTB_STATUS_SYNCE_LOCK then (d.put TTB_STATUS_SYNCE_LOCK 0).pulse 23 else d
  if d.source = 2 then
    (d.setTime { d.time with baseFreq := toSigned 32 (d.get TTB_FREQ_ADJ_ADJ) }).timeState stFreerun
  else d

/-- A write of TTB_STEP_CTRL: FORCE is stored, and GO requests the step of R43. -/
def Device.writeStepCtrl (d : Device) (v : Nat) : Device :=
  let d := d.put TTB_STEP_CTRL_FORCE (bits v 1 1)
  if !bit v 0 then d
  else if d.anyRun && !d.on TTB_STEP_CTRL_FORCE then (d.put TTB_STATUS_STEP_REFUSED 1).pulse 19
  else
    let step := toSigned 32 (d.get TTB_STEP_SEC_SEC) * 1000000000 + (min (d.get TTB_STEP_NS_NS) 999999999 : Nat)
    (d.setTime { d.time with step := some step, own := false }).put TTB_STATUS_STEP_PENDING 1

/-- A write of TTB_FRAME: held pending, or refused while any panel runs (R56). -/
def Device.writeFrame (d : Device) (v : Nat) : Device :=
  if d.anyRun then d.put TTB_STATUS_REFUSED 1
  else
    let cur := (d.time.frame.getD (d.get TTB_FRAME_FRAME_OFS, d.get TTB_FRAME_SFN_OFS))
    let f := if 80 ≤ bits v 6 0 then cur.1 else bits v 6 0
    (d.setTime { d.time with frame := some (f, bits v 25 16) }).put TTB_STATUS_FRAME_PENDING 1

/-- A write of TTB_FREQ_ADJ: a host's is ignored unless SERVO_HOST is 1; clamped to ±100 ppm (R55). That cores and other
nodes may write it at any time, and Hayward also while SERVO_HOST is 1, is a DESIGN CHOICE (log entry 50): the spec gates
host writes alone. -/
def Device.writeFreqAdj (d : Device) (r : Req) (v : Nat) : Device :=
  if (r == .hostA || r == .hostB) && !d.on TTB_CTRL_SERVO_HOST then d
  else
    let a := clampAdj (toSigned 32 v)
    (d.setTime { d.time with baseFreq := a }).put TTB_FREQ_ADJ_ADJ (ofSigned 32 a)

/-- A read of TTB_TICK_LO latches TICK_HI for the requester (R55). -/
def Device.readTickLo (d : Device) (r : Req) : Device × Nat :=
  (d.setTime { d.time with latchHi := tabSet (fun _ => 0) d.time.latchHi (reqNum r) (d.time.tick / 2 ^ 32) },
    d.time.tick % 2 ^ 32)

/-- A read of TTB_TOD_NS, into nanoseconds after the last edge, latches the seconds (R55). -/
def Device.readTodNs (d : Device) (r : Req) (into : Nat) : Device × Nat :=
  let tod := d.time.tod + into
  (d.setTime { d.time with latchSec := tabSet (fun _ => 0) d.time.latchSec (reqNum r) (tod / 1000000000) },
    tod % 1000000000)

/-- The step applied at an edge: the time-of-day is replaced and TICK recomputed, unless the new
time lies outside 48 bits of seconds (R44); Hayward's own is void when a panel has started meanwhile (R42); the count of good offsets returns to 0 (R41). A forward
step across a second raises PPS_OUT once (R51). -/
def Device.applyStep (d : Device) : Device :=
  match d.time.step with
  | none => d
  | some st =>
    let own := d.time.own
    let d := (d.setTime { d.time with step := none, own := false }).put TTB_STATUS_STEP_PENDING 0
    let new := (d.time.tod : Int) + st
    if own && d.anyRun then d
    else if new < 0 || (2 ^ 48 : Int) * 1000000000 ≤ new then (d.put TTB_STATUS_STEP_REFUSED 1).pulse 19
    else
      let rise := d.on TTB_PPS_CTRL_OUT_EN && d.time.sec < new.toNat / 1000000000
      let t := d.time.at new.toNat
      let next := (t.tod / 125000 + 1) * 125000
      (d.setTime { t with
        good := 0, skip := decide (next - t.tod < 62500), ppsOut := rise || t.ppsOut
        ppsAt := if rise then t.run else t.ppsAt }).pulse 18

/-- A pending TTB_FRAME takes effect (R56). -/
def Device.applyFrame (d : Device) : Device :=
  match d.time.frame with
  | none => d
  | some (f, s) =>
    (((d.setTime { d.time with frame := none }).put TTB_STATUS_FRAME_PENDING 0).put TTB_FRAME_FRAME_OFS f).put
      TTB_FRAME_SFN_OFS s

/-! ### Meanings -/

/-- Whether the profile in force takes a PTP message: its transport, UDP over IPv4 or Ethernet, and its domain, within the
profile's range (R46). -/
def Device.ptpTakes (d : Device) (domain : Nat) (udp : Bool) : Bool :=
  domain == d.get TTB_CTRL_PTP_DOMAIN &&
    (if d.on TTB_CTRL_PROFILE then !udp && decide (24 ≤ domain) && decide (domain ≤ 43) else udp && decide (domain ≤ 127))

/-- A PTP event message: its offset counts when PTP is the source and the measurement is valid (R41, R46). -/
def execPtpEventMessageRx (domain : BitVec 8) (udp valid : Bool) (offset want : Int) (s : State) :
    Host.Outcome State Fault Refusal :=
  s.run (fun d => if d.ptpTakes domain.toNat udp && valid && d.source = 0 then d.measure offset want else d)

/-- What an Announce message brings: the UTC offset and leap flags, EV25 on a change; a new synchronization metadata TLV,
of ST 2059-2 alone, is stored with EV26 (R46, R54). -/
def Device.announce (d : Device) (utc : Nat) (leap61 leap59 : Bool) (tlv : Option (List Byte)) : Device :=
  let w := d.word TTB_UTC_OFS
  let d := ((d.put TTB_UTC_OFS_OFS utc).put TTB_UTC_OFS_LEAP61 (b2n leap61)).put TTB_UTC_OFS_LEAP59 (b2n leap59)
  let d := if d.word TTB_UTC_OFS = w then d else d.pulse 25
  match tlv with
  | none => d
  | some b => if d.on TTB_CTRL_PROFILE || d.time.tlv = b then d else (d.setTime { d.time with tlv := b }).pulse 26

/-- ANNOUNCE_RX (R46, R54). -/
def execAnnounceRx (domain : BitVec 8) (udp : Bool) (utc : BitVec 16) (leap61 leap59 : Bool) (tlv : Option (List Byte))
    (s : State) : Host.Outcome State Fault Refusal :=
  s.run (fun d => if d.ptpTakes domain.toNat udp then d.announce utc.toNat leap61 leap59 tlv else d)

/-- ANNOUNCE_TIMEOUT (R41, R54). That it raises EV22 only while PTP is the source is a DESIGN CHOICE (log entry 50). -/
def execAnnounceTimeout (s : State) : Host.Outcome State Fault Refusal :=
  s.run (fun d => if d.source = 0 then (d.pulse 22).sourceLost else d)

/-- SYNC_TIMEOUT (R41). -/
def execSyncTimeout (s : State) : Host.Outcome State Fault Refusal :=
  s.run (fun d => if d.source = 0 then d.sourceLost else d)

/-- An active edge on PPS_IN, into nanoseconds after the last base tick edge: captured, and the
offset measurement when PPS_IN is the source (R50, R54). -/
def execPpsInEdge (into : Nat) (want : Int) (s : State) : Host.Outcome State Fault Refusal :=
  s.run (fun d =>
    let d := d.put TTB_STATUS_PPS_IN_PRESENT 1
    if !d.on TTB_PPS_CTRL_IN_EN then d
    else
      let ns := d.time.stamp into 8 % 1000000000
      let d := d.put TTB_PPS_IN_NS_NS ns
      let off : Int := if ns < 500000000 then (ns : Int) else (ns : Int) - 1000000000
      let d := if d.get TTB_STATUS_STATE = stLocked && 1000 < off.natAbs then d.pulse 21 else d
      if d.source = 1 then d.measure off want else d)

/-- PPS_IN absent for 2 s (R41, R54). -/
def execPpsInAbsent (s : State) : Host.Outcome State Fault Refusal :=
  s.run (fun d =>
    let d := d.put TTB_STATUS_PPS_IN_PRESENT 0
    let d := if d.on TTB_PPS_CTRL_IN_EN then d.pulse 20 else d
    if d.source = 1 then d.sourceLost else d)

/-- SYNCE_LOCK falls (R54). -/
def execSynceRefLost (s : State) : Host.Outcome State Fault Refusal :=
  s.run (fun d => if d.on TTB_STATUS_SYNCE_LOCK then (d.put TTB_STATUS_SYNCE_LOCK 0).pulse 23 else d)

/-- The PLL locks to REFCLK_NET while SyncE is enabled (R48). -/
def execSynceLockGained (s : State) : Host.Outcome State Fault Refusal :=
  s.run (fun d => if d.on TTB_CTRL_SYNCE_EN then d.put TTB_STATUS_SYNCE_LOCK 1 else d)

/-- A write to TTB_CTRL (R49). -/
def execTtbCtrlWrite (_r : Req) (v : Word) (s : State) : Host.Outcome State Fault Refusal :=
  s.run (fun d => d.writeTtbCtrl v.toNat)

/-- A write to TTB_STEP_CTRL (R43). -/
def execStepGo (_r : Req) (v : Word) (s : State) : Host.Outcome State Fault Refusal :=
  s.run (fun d => d.writeStepCtrl v.toNat)

/-- A write to TTB_FRAME (R56). -/
def execTtbFrameWrite (_r : Req) (v : Word) (s : State) : Host.Outcome State Fault Refusal :=
  s.run (fun d => d.writeFrame v.toNat)

/-- A read of TTB_TICK_LO (R55). -/
def execTickLoRead (r : Req) (s : State) : Host.Outcome State Fault Refusal :=
  s.run (fun d => match d.readTickLo r with
    | (d, v) => d.emit (.regRead (reqNum r) TTB_TICK_LO v))

/-- A read of TTB_TOD_NS (R55). -/
def execTodNsRead (r : Req) (into : Nat) (s : State) : Host.Outcome State Fault Refusal :=
  s.run (fun d => match d.readTodNs r into with
    | (d, v) => d.emit (.regRead (reqNum r) TTB_TOD_NS v))

/-- Whether a whole second of the time-of-day falls on the last edge, or inside a tick whose edge there was omitted (R44,
R51). -/
def TimeBase.secondNow (t : TimeBase) : Bool :=
  t.ns == 0 || (t.skip && decide ((t.sec + 1) * 1000000000 < t.nextEdge))

/-- A whole second of the time-of-day: PPS_OUT rises while OUT_EN is 1 (R51). -/
def execPpsOutRise (s : State) : Host.Outcome State Fault Refusal :=
  s.run (fun d =>
    if d.on TTB_PPS_CTRL_OUT_EN && d.time.secondNow then
      d.setTime { d.time with
        ppsOut := true
        ppsAt := d.time.run + (if d.time.ns = 0 then 0 else (d.time.sec + 1) * 1000000000 - d.time.tod) }
    else d)

/-- OUT_WIDTH_MS after its rise, PPS_OUT falls: once that instant lies before the next edge (R51). -/
def execPpsOutFall (s : State) : Host.Outcome State Fault Refusal :=
  s.run (fun d =>
    if d.time.ppsAt + 1000000 * d.get1 TTB_PPS_CTRL_OUT_WIDTH_MS < d.time.run + (d.time.nextEdge - d.time.tod) then
      d.setTime { d.time with ppsOut := false }
    else d)

end Sys2Proof.Machine
end

