-- ==== Sys2Proof/Machine/Queue.lean ====
section
/-! DEFINITION. The fault queue: how an error becomes a record and what its action is (R510, R511,
R513 to R515). What an action does to a unit is Faults.lean's. -/

namespace Sys2Proof.Machine
open R

/-- Actions of R510. -/
def aLog : Nat := 0
def aFence : Nat := 1
def aSpare : Nat := 2
def aTakeover : Nat := 3

/-- Classes whose action escalates (R511). -/
def escalates (cls : Nat) : Bool := cls == 0 || cls == 3 || cls == 4 || cls == 5

/-- The causes a record raises (R509, R511). -/
def Device.recCauses (d : Device) (cls action : Nat) (recur lost : Bool) : Device :=
  let d := if recur then d.cause FLT_EV_CAUSE_RECURRENCE 33 else d
  let d := if lost then d.cause FLT_EV_CAUSE_OVERFLOW 34 else d
  let d := if action = aFence then d.cause FLT_EV_CAUSE_FENCE 35
    else if action = aSpare then d.cause FLT_EV_CAUSE_SPARE 36
    else if action = aTakeover then d.cause FLT_EV_CAUSE_TAKEOVER 37
    else d
  match cls with
  | 1 => d.cause FLT_EV_CAUSE_ACCESS 39
  | 2 => d.cause FLT_EV_CAUSE_DEADLINE 38
  | 3 => d.cause FLT_EV_CAUSE_BUS 40
  | _ => d

/-- Enters a record in the queue: SEQ and TICK are the manager's, a match in the queue makes it a
recurrence and may raise its action, and a full queue's newest record takes slot 64. Answers the
record as entered (R510, R513, R514). -/
def Device.record (d : Device) (r : FaultRec) : Device × FaultRec :=
  let hits := d.flt.queue.filter (fun q => q.kind == r.kind && q.index == r.index)
  let recur := !hits.isEmpty
  let up := min aSpare (1 + hits.foldl (fun n q => max n q.action) 0)
  let action := if recur && escalates r.cls && d.on FLT_CTRL_ESC_EN then max r.action up else r.action
  let r := { r with recurrence := recur, action := action, seq := d.flt.seq % 65536, tick := d.time.tick }
  let lost := decide (64 ≤ d.flt.queue.length)
  let q := if lost then d.flt.queue.take 63 ++ [r] else d.flt.queue ++ [r]
  let d := { d with flt := { d.flt with queue := q, seq := d.flt.seq + 1 } }
  let d := if lost then (d.count FLT_LOST_COUNT 1).tally 1 1 else d
  (((d.tally 0 1).pulse 32).recCauses r.cls action recur lost, r)

/-- A record with the fields every report gives; no core, no logical cluster. -/
def report (cls action kind index addr req detail event : Nat) : FaultRec where
  cls := cls
  action := action
  recurrence := false
  seq := 0
  kind := kind
  index := index
  core := 0
  coreV := false
  lc := 0x1F
  addr := addr
  req := req
  tick := 0
  detail := detail
  event := event

/-- A report of a unit whose kind takes no action but LOG (kinds 0 and 9 to 16 of R512). -/
def Device.note (d : Device) (r : FaultRec) : Device := (d.record r).1

/-- No requester, and no event (R510). -/
def noReq : Nat := 0x3FF
def noEvent : Nat := 0x1FF

/-- The record of a DEADLINE of a panel's item (R37). -/
def Device.deadline (d : Device) (panel lc handle event : Nat) : Device :=
  d.note { report 2 aLog 16 panel 0 noReq handle event with lc := lc }

/-- The record of an access that is discarded or decodes to nothing (R26, R67), DETAIL the RESP code. -/
def Device.accessRec (d : Device) (addr req detail : Nat) : Device :=
  d.note (report 1 aLog 0 0 addr req detail noEvent)

end Sys2Proof.Machine
end

