-- ==== Sys2Proof/Machine/Dispatcher.lean ====
section
/-! DEFINITION. The Dispatcher: the item store, submission, selection, dispatch, placement, ends,
expiries and re-dispatch (R338 to R368, R36 to R38). An item is known by its store key, bits [16:0]
of its handle. -/

namespace Sys2Proof.Machine
open R

/-! ### Stores -/

def Device.item (d : Device) (k : Nat) : Item := tabGet (fun _ => item0) d.items k
def Device.setItem (d : Device) (k : Nat) (i : Item) : Device :=
  { d with items := tabSet (fun _ => item0) d.items k i }
def Device.core (d : Device) (c k : Nat) : Core := tabGet (fun _ => core0) d.cores (8 * c + k)
def Device.setCore (d : Device) (c k : Nat) (x : Core) : Device :=
  { d with cores := tabSet (fun _ => core0) d.cores (8 * c + k) x }
def Device.engine (d : Device) (e : Nat) : Engine := tabGet (fun _ => engine0) d.engines e
def Device.setEngine (d : Device) (e : Nat) (x : Engine) : Device :=
  { d with engines := tabSet (fun _ => engine0) d.engines e x }

/-- The handle of the item at a store key (R340). -/
def Device.handleOf (d : Device) (k : Nat) : Nat := k + 2 ^ 17 * (d.item k).gen

/-- The number of an engine queue: TARGET and engine (R338). -/
def engKey (target i : Nat) : Nat := 256 * target + i

/-- The die of a panel's lists: that of its lowest logical cluster (R12); die 0 when it has none. -/
def Device.panelDie (d : Device) (p : Nat) : Nat :=
  match d.panelLcs p with
  | [] => 0
  | l :: _ => l / 10

/-- A cause of the Dispatcher of a die; EV375 and EV377 have enables (R367). -/
def Device.dspCause (d : Device) (f : Nat → Fld) (die n : Nat) : Device :=
  let d := d.put (f die) 1
  if (n == 375 && !d.on DSP_CTRL_EV_EXPIRY) || (n == 377 && !d.on DSP_CTRL_EV_URGENT) then d else d.pulse n

/-! ### Ticks of an item -/

/-- The tick number an item's RELEASE and DUE are compared with (R33). -/
def Device.itemTick (d : Device) (i : Item) : Nat :=
  if i.baseTick then d.time.tick else d.carrierTick (d.carrierR i.carrier)

def Device.releasePast (d : Device) (i : Item) : Bool := isPast 32 i.release (d.itemTick i)
def Device.duePast (d : Device) (i : Item) : Bool := !i.nodue && isPast 32 i.due (d.itemTick i)

/-- Nanoseconds from the last base tick edge to the edge that begins an item's due tick (R38). -/
def Device.toDue (d : Device) (i : Item) : Int :=
  let cur := d.itemTick i
  let ahead := toSigned 32 ((i.due + (2 ^ 32 - cur % 2 ^ 32)) % 2 ^ 32)
  if i.baseTick then 125000 * ahead
  else
    let r := d.carrierR i.carrier
    ((d.carrierTickI r + ahead) * r - d.sinceF) * 125000

/-! ### Energy (R357, R483) -/

/-- Asks for an item's energy as it is selected; a refused item stays READY and is barred to the
next edge (R357). Items under the floor are not charged (R355). -/
def Device.energyGrant (d : Device) (k : Nat) (floor : Bool) : Bool × Device :=
  let i := d.item k
  if i.eclass = 0 || floor then (true, d)
  else
    match d.askEnergy (if i.glean then 3 else 5) i.panel (1000 * 2 ^ i.eclass) with
    | (true, d) => (true, d)
    | (false, d) =>
      let die := d.panelDie i.panel
      let d := ((d.setItem k { i with barred := true, deferred := true }).count (DSP_CNT_DEFER_COUNT die) 1).tally 13 1
      (false, d.dspCause DSP_EV_CAUSE_DEFERRED die 378)

/-! ### Cores (R346 to R350) -/

def Device.coreFenced (d : Device) (c k : Nat) : Bool :=
  d.cluFenced c || tabGet (fun _ => false) d.flt.fencedCore (8 * c + k)

/-- Cores an item may take, lowest logical cluster and core first (R347, R348): a fenced core, a
cluster a rotation moves toward and a fallow cluster under test take no dispatch. -/
def Device.allowed (d : Device) (i : Item) : List (Nat × Nat) :=
  (List.range 20).flatMap (fun l =>
    if !bit i.lcMask l then []
    else match d.physOf l with
      | none => []
      | some c =>
        if d.cluFenced c || d.flt.rotTo == some c
            || (d.get (FLT_FALLOW_STATE (c / 5)) == 1 && d.get (FLT_FALLOW_PHYS (c / 5)) == c) then []
        else ((List.range 8).filter (fun k => bit i.coreMask k && !d.coreFenced c k && !(d.core c k).dead && !(d.core c k).halted)).map
          (fun k => (c, k)))

/-- A core that holds nothing. -/
def Core.idle (x : Core) : Bool := x.item.isNone && x.order.isNone && x.frames.isEmpty && x.done.isNone

/-- Marks an item dispatched or placed for the first time, and counts it. -/
def Device.counted (d : Device) (k : Nat) : Device :=
  let i := d.item k
  let d := d.count (DSP_CNT_DISPATCH_COUNT (d.panelDie i.panel)) 1
  if i.started then d else d.setItem k { i with started := true, firstLevel := i.level }

/-- Writes an item into a core's dispatch registers and raises its DISPATCH interrupt: the item runs,
PROV and the vector grant clear (R348, R392, R393, R413, R414). -/
def Device.dispatch (d : Device) (c k key : Nat) : Device :=
  let d := d.counted key
  let i := d.item key
  let d := d.setItem key { i with
    st := .running, atLc := d.lcField c, atCl := c, atCore := k, startSeq := d.dsp.seq }
  let d := { d with dsp := { d.dsp with seq := d.dsp.seq + 1 } }
  let d := (((((d.put (CX_DHANDLE_HANDLE c k) (d.handleOf key)).put (CX_DENTRY_ENTRY c k) i.entry).put
    (CX_DARG_LO_ARG c k) i.arg).put (CX_DARG_HI_ARG c k) (i.arg / 2 ^ 32)).put (CX_DINFO_CLASS c k) i.cls).put
    (CX_DINFO_CARRIER c k) i.carrier
  let d := ((((d.put (CX_STATUS_IDLE c k) 0).put (CX_STATUS_PROV c k) 0).put (CX_STATUS_VLIVE c k) 0).put
    (CX_VGRANT_GL c k) 0).put (CX_VSHAPE_ELEM c k) 0
  let d := d.put (CX_INT_PEND_PEND c k) (d.get (CX_INT_PEND_PEND c k) / 2 * 2 + 1)
  d.setCore c k { d.core c k with item := some key, order := none, failed := false, done := none }

/-- A floor dispatch: the item carries FLOOR, and the panel's tick has had its floor dispatch (R355, R356). -/
def Device.floorMark (d : Device) (k : Nat) : Device :=
  let i := d.item k
  let d := d.count (DSP_CNT_FLOOR_COUNT (d.panelDie i.panel)) 1
  { d.setItem k { i with floor := true } with
    dsp := { d.dsp with floorDone := tabSet (fun _ => false) d.dsp.floorDone i.panel true } }

/-- Whether an item that may expire is late (R34): its expiry is due and it is not dispatched (R365). -/
def Device.late (d : Device) (i : Item) : Bool := i.cls != 4 && d.duePast i

/-- The level the item of a core stands at: a floor item is ahead of every level below 15 while its panel has
floor credit, and at its own level after that (R355). -/
def Device.coreLevel (d : Device) (c k : Nat) : Nat :=
  match (d.core c k).item with
  | some key =>
    let i := d.item key
    if i.floor && d.on (DSP_FLOOR_CREDIT_NS i.panel) then max i.level 14 else i.level
  | none => 0

/-- Whether a core runs a late item, whose expiry frees it (R365). -/
def Device.coreLate (d : Device) (c k : Nat) : Bool :=
  match (d.core c k).item with
  | some key => d.late (d.item key)
  | none => false

/-- The core to pre-empt for an item, among cores it may take, that runs below a level and holds
fewer than DSP_NEST frames: the lowest level, then the latest start (R349). -/
def Device.victim (d : Device) (cores : List (Nat × Nat)) (nest lim : Nat) : Option (Nat × Nat) :=
  let ok := cores.filter (fun p =>
    let x := d.core p.1 p.2
    x.item.isSome && x.order.isNone && x.done.isNone && !x.halted && !d.coreLate p.1 p.2
      && decide (x.frames.length < nest) && decide (d.coreLevel p.1 p.2 < lim))
  let start : Nat × Nat → Nat := fun p => match (d.core p.1 p.2).item with
    | some key => (d.item key).startSeq
    | none => 0
  ok.foldl (fun b p => match b with
    | none => some p
    | some q =>
      let lp := d.coreLevel p.1 p.2
      let lq := d.coreLevel q.1 q.2
      if lp < lq || (lp == lq && decide (start q < start p)) then some p else some q) none

/-- Orders a pre-emption of a core for an item; the core takes it when R388 allows (R349). -/
def Device.orderOn (d : Device) (c k key : Nat) : Device :=
  d.setCore c k { d.core c k with order := some key }

/-! ### Engine placement (R351) -/

/-- Commands an engine queue holds: 16, or 32 for decode (R217, R240, R276, R303). -/
def queueCap (target : Nat) : Nat := if target = 4 then 32 else 16

/-- KIND of R512 of a target's engines; FEC engines are fenced one by one, not by group. -/
def targetFenced (d : Device) (target i : Nat) : Bool :=
  match target with
  | 1 => tabGet (fun _ => false) d.flt.fencedEng (256 * 2 + i)
  | 2 => tabGet (fun _ => false) d.flt.fencedEng (256 * 3 + i)
  | 3 => tabGet (fun _ => false) d.flt.fencedEng (256 * 4 + i)
  | _ => false

/-- The engine of a mask with room and the fewest queued commands, lowest number first. -/
def Device.pickEngine (d : Device) (target mask : Nat) (room : Bool) : Option Nat :=
  let len := fun i => (d.engine (engKey target i)).queue.length
  let ok := (List.range 32).filter (fun i => bit mask i && !targetFenced d target i
    && (!room || decide (len i < queueCap target)))
  ok.foldl (fun b i => match b with
    | none => some i
    | some j => if len i < len j then some i else some j) none

/-- Puts an item's command on an engine's queue. -/
def Device.enqueue (d : Device) (key i : Nat) (expired : Bool) : Device :=
  let it := d.item key
  let e := engKey it.target i
  let x := d.engine e
  let d := d.setEngine e { x with queue := x.queue ++ [⟨key, [], [], expired, false, 0, 0⟩] }
  d.setItem key { it with st := .queued, atEng := i }

/-! ### Selection (R346, R347, R351, R355) -/

/-- Whether an item entered READY before another; in one cycle, whether it was accepted before it (R347). -/
def older (a b : Item) : Bool :=
  decide (a.readySeq < b.readySeq) || (a.readySeq == b.readySeq && decide (a.accSeq < b.accSeq))

/-- Whether an item stands before another: level, then entry to READY, then acceptance (R347). -/
def before (a b : Item) : Bool := decide (b.level < a.level) || (a.level == b.level && older a b)

/-- Inserts a key in selection order. -/
def Device.insKey (d : Device) (k : Nat) : List Nat → List Nat
  | [] => [k]
  | j :: t => if before (d.item k) (d.item j) then k :: j :: t else j :: d.insKey k t

/-- Whether a core has been told to take an item. -/
def Device.ordered (d : Device) (key : Nat) : Bool := d.cores.any (fun p => p.2.order == some key)

/-- Items of running panels that are not late and that no core has been told to take. -/
def Device.openItems (d : Device) : List (Nat × Item) :=
  d.items.filter (fun p => d.panelRuns p.2.panel && !d.ordered p.1 && !d.late p.2)

/-- READY and PREEMPTED items that may be selected, in the order of R347. -/
def Device.selectable (d : Device) : List Nat :=
  ((d.openItems.filter (fun p => (p.2.st == .ready || p.2.st == .preempted) && !p.2.barred)).map
      (·.1)).foldl (fun l k => d.insKey k l) []

/-- READY gleaner items for a core, of one panel or of any. -/
def Device.gleaners (d : Device) (ok : Nat → Bool) : List (Nat × Item) :=
  d.openItems.filter (fun p => p.2.st == .ready && p.2.glean && p.2.target == 0 && p.2.level != 15 && ok p.2.panel)

/-- Inserts a key in the order of entry to READY. -/
def Device.insOld (d : Device) (k : Nat) : List Nat → List Nat
  | [] => [k]
  | j :: t => if older (d.item k) (d.item j) then k :: j :: t else j :: d.insOld k t

/-- The gleaner items of panels with floor credit left, in order of entry to READY (R355). -/
def Device.floorItems (d : Device) : List Nat :=
  ((d.gleaners (fun p => d.on (DSP_FLOOR_CREDIT_NS p))).map (·.1)).foldl (fun l k => d.insOld k l) []

/-- The first idle core an item may take. -/
def Device.idleFor (d : Device) (i : Item) : Option (Nat × Nat) :=
  (d.allowed i).find? (fun p => (d.core p.1 p.2).idle)

/-- One attempt to place an item: none when nothing can be done for it now. -/
def Device.attempt (d : Device) (key : Nat) (floor : Bool) : Option Device :=
  let i := d.item key
  if i.st == .preempted then
    if i.level ≤ d.coreLevel i.atCl i.atCore then none
    else (d.victim [(i.atCl, i.atCore)] (d.get (DSP_NEST_NEST i.panel)) i.level).map
      (fun p => d.orderOn p.1 p.2 key)
  else if i.target = 0 then
    match d.idleFor i with
    | some p =>
      match d.energyGrant key floor with
      | (true, d) => some ((if floor then d.floorMark key else d).dispatch p.1 p.2 key)
      | (false, d) => some d
    | none =>
      if floor then none
      else match d.victim (d.allowed i) (d.get (DSP_NEST_NEST i.panel)) i.level with
        | none => none
        | some p => match d.energyGrant key false with
          | (true, d) => some (d.orderOn p.1 p.2 key)
          | (false, d) => some d
  else
    match d.pickEngine i.target i.entry true with
    | none => none
    | some e => match d.energyGrant key false with
      | (true, d) => some ((d.counted key).enqueue key e false)
      | (false, d) => some d

/-- The first success among attempts. -/
def Device.tryAll (d : Device) : List (Nat × Bool) → Option Device
  | [] => none
  | p :: t => match d.attempt p.1 p.2 with
    | some d => some d
    | none => d.tryAll t

/-- Everything selectable in the order it is tried: level 15, the floor, then the rest (R355). -/
def Device.tries (d : Device) : List (Nat × Bool) :=
  let s := d.selectable
  let top := s.filter (fun k => (d.item k).level == 15)
  let rest := s.filter (fun k => (d.item k).level != 15)
  top.map (fun k => (k, false)) ++ d.floorItems.map (fun k => (k, true)) ++ rest.map (fun k => (k, false))

/-- Selection until nothing more can be placed; the fuel bounds the placements of one step. -/
def Device.select (d : Device) : Nat → Device
  | 0 => d
  | n + 1 => match d.tryAll d.tries with
    | some d => d.select n
    | none => d

/-- The Dispatcher's reaction to any change, none once a trip has stopped its clock (R490); the items that entered READY
before it did so in one cycle. -/
def Device.schedule (d : Device) : Device :=
  if d.power.trip then d
  else { d with dsp := { d.dsp with seq := d.dsp.seq + 1 } }.select (2 * d.items.length + 1)

/-! ### READY (R343, R346) -/

/-- An item whose release edge has occurred: a CONTROL item takes level 15 there; with DEPS 0 it is READY. -/
def Device.becomeReady (d : Device) (k : Nat) : Device :=
  let i := d.item k
  if i.st == .waiting && i.released && i.deps == 0 then
    d.setItem k { i with st := .ready, readySeq := d.dsp.seq, checks := 0 }
  else d

def Device.release (d : Device) (k : Nat) : Device :=
  let i := d.item k
  if i.st == .waiting && !i.released && d.releasePast i then
    (d.setItem k { i with released := true, level := if i.cls = 4 then 15 else i.level }).becomeReady k
  else d

/-! ### Dependencies (R344) -/

/-- One decrement of a handle's DEPS; a stale one only counts. -/
def Device.depDec (d : Device) (h : Nat) : Device :=
  let k := h % 2 ^ 17
  let i := d.item k
  if i.st == .empty || bits h 20 17 ≠ i.gen || i.deps = 0 then
    let die := bits h 16 16
    (d.count (DSP_CNT_STALE_COUNT die) 1).dspCause DSP_EV_CAUSE_STALE die 379
  else (d.setItem k { i with deps := i.deps - 1 }).becomeReady k

/-! ### The end of an item (R358, R361) -/

/-- A list of 16-bit tile indexes, up to the first read that is not answered OKAY; whether all were read. -/
def Device.readList (d : Device) (a : Nat) : Nat → List Nat × Bool
  | 0 => ([], true)
  | n + 1 => match d.fetch a 2 with
    | none => ([], false)
    | some bs => let r := d.readList (a + 2) n
      (leNat bs :: r.1, r.2)

/-- The record of a list walk that stopped (R338). -/
def Device.listFault (d : Device) (panel a handle : Nat) (whole : Bool) : Device :=
  if whole then d else d.note (report 3 aLog 16 panel a noReq handle noEvent)

/-- The completion record of an item (R361). -/
def Device.cmplBytes (d : Device) (i : Item) (handle status eras run wait : Nat) : List Byte :=
  leBytes 4 (i.cls + 2 ^ 4 * i.panel + 2 ^ 12 * status + 2 ^ 16 * i.firstLevel
    + 2 ^ 20 * min i.ripens 15 + 2 ^ 24 * i.tag) ++
  leBytes 4 handle ++ leBytes 4 i.due ++
  leBytes 4 (run % 2 ^ 24 + 2 ^ 24 * min eras 255) ++
  leBytes 8 d.time.tick ++
  leBytes 8 (wait % 2 ^ 32 + 2 ^ 32 * min i.preempts 255 + 2 ^ 40 * b2n i.floor + 2 ^ 41 * b2n i.deferred
    + 2 ^ 42 * b2n i.redisp)

/-- Writes a completion record to the panel's ring; RUN_NS and WAIT_NS are measured (log entry 5), and an item
that never ran has run for no time. -/
def Device.complete (d : Device) (k status eras : Nat) : Device :=
  let i := d.item k
  let p := i.panel
  match (if i.started then d.drawTime 24 else (0, d)) with
  | (run, d) =>
  match d.drawTime 32 with
  | (wait, d) =>
    let bs := d.cmplBytes i (d.handleOf k) status eras run wait
    let base := d.addr48 (DSP_RING_BASE_LO_ADDR p) (DSP_RING_BASE_HI_ADDR p)
    match d.ringPut base (max 2 (d.get (DSP_RING_SIZE_SIZE p))) (d.get (DSP_RING_WR_WR p))
        (d.get (DSP_RING_RD_RD p)) bs with
    | some (d, wr) => d.put (DSP_RING_WR_WR p) wr
    | none =>
      let die := d.panelDie p
      (d.count (DSP_CNT_RING_LOST_COUNT die) 1).dspCause DSP_EV_CAUSE_RING_LOST die 376

/-- The end processing of R358: REL_LIST, successors, record, and the entry freed for its next GEN. -/
def Device.endItem (d : Device) (k status eras : Nat) : Device :=
  let i := d.item k
  let l := d.readList i.relAddr i.relCount
  let d := l.1.foldl (fun d t => (d.opRelease t 0 true false).1) d
  let d := d.listFault i.panel i.relAddr (d.handleOf k) l.2
  let d := (i.succ.filter (fun s => bit s 31)).foldl (fun d s => d.depDec (s % 2 ^ 21)) d
  let d := if i.cmplRec || status ≠ 0 then d.complete k status eras else d
  d.setItem k { item0 with gen := (i.gen + 1) % 16 }

/-! ### Performance events and squashes of a core (R379, R567, R568) -/

/-- Whether counter n of a core counts in a mode: its U, S or M bit (R567). -/
def Device.hpmMode (d : Device) (c k n : Nat) (priv : Nat) : Bool :=
  match priv with
  | 0 => d.on (CX_HPM_CTL_U c k n)
  | 1 => d.on (CX_HPM_CTL_S c k n)
  | _ => d.on (CX_HPM_CTL_M c k n)

/-- Adds to counter n of a core; a wrap sets OVF (R567). -/
def Device.hpmStep (d : Device) (c k n j : Nat) : Device :=
  let x := d.core c k
  let v := tabGet (fun _ => 0) x.hpm n + j
  let d := if 2 ^ 48 ≤ v then d.put (CX_HPM_CTL_OVF c k n) 1 else d
  d.setCore c k { x with hpm := tabSet (fun _ => 0) x.hpm n (v % 2 ^ 48) }

/-- The index, past the eight counters, that holds the bundles committed since the cycles were last looked at. -/
def hpmRan : Nat := 8

/-- j occurrences of an event on a core, in the mode it is in (R568). -/
def Device.hpm (d : Device) (c k ev j : Nat) : Device :=
  if j = 0 || (d.core c k).halted then d
  else
    let d := (List.range 8).foldl (fun (d : Device) n =>
      if d.get (CX_HPM_CTL_EVENT c k n) = ev && d.hpmMode c k n (d.get (CX_STATUS_PRIV c k)) then d.hpmStep c k n j
      else d) d
    let x := d.core c k
    if ev = 2 then d.setCore c k { x with hpm := tabSet (fun _ => 0) x.hpm hpmRan (tabGet (fun _ => 0) x.hpm hpmRan + j) } else d

/-- a cycles of an event, split among the three modes by free values, on every counter that counts them (R567, R568). -/
def Device.hpmCycles (d : Device) (c k ev a : Nat) : Device :=
  match d.draw 48, (d.draw 48).2.draw 48 with
  | (u, _), (v, d) =>
    let u := u % (a + 1)
    let v := v % (a - u + 1)
    let part := fun (d : Device) n => (if d.hpmMode c k n 0 then u else 0) + (if d.hpmMode c k n 1 then v else 0) +
      (if d.hpmMode c k n 2 then a - u - v else 0)
    (List.range 8).foldl (fun (d : Device) n =>
      if d.get (CX_HPM_CTL_EVENT c k n) = ev then d.hpmStep c k n (part d n) else d) d

/-- Events 4 to 8, exclusive in each cycle, over the cycles left for them. -/
def Device.hpmStalls (d : Device) (c k : Nat) : List Nat → Nat → Device
  | [], _ => d
  | ev :: t, left =>
    match d.draw 48 with
    | (v, d) => (d.hpmCycles c k ev (v % (left + 1))).hpmStalls c k t (left - v % (left + 1))

/-- The cycles since a core's counters were last looked at: a measured number, beside one for each bundle committed.
The cycle counter and event 1 take them all, events 4 to 8 and 9 free shares of the rest, none of them under a debug
halt; nothing counts while the clock is gated (R567, R568, log entry 5). -/
def Device.syncCycles (d : Device) (c k : Nat) : Device :=
  if d.domSt c ≠ pRun || d.power.trip then d
  else
    match d.drawTime 48 with
    | (t, d) =>
      let x := d.core c k
      let all := tabGet (fun _ => 0) x.hpm hpmRan + t
      let d := d.setCore c k { x with cyc := (x.cyc + all) % 2 ^ 64, hpm := tabSet (fun _ => 0) x.hpm hpmRan 0 }
      let d := d.hpmCycles c k 1 all
      if x.halted then d
      else match d.draw 48 with
        | (v, d) => (d.hpmCycles c k 9 (v % (all + 1))).hpmStalls c k [4, 5, 6, 7, 8] t

/-- The bundle being issued is squashed: it has no effect, and will be issued again; its coprocessor operation
is discarded and counted (R379, R402, R568). -/
def Device.squash (d : Device) (c k : Nat) : Device :=
  let x := d.core c k
  if !x.opened && !x.whole then d
  else
    let isCp := fun (e : CEff) => match e with
      | .cp _ => true
      | _ => false
    let d := if x.staged.any isCp then d.count (CLU_CP_CNT_SQUASH_COUNT c) 1 else d
    (d.setCore c k { x with opened := false, whole := false, slots := [], staged := [], got := [], load := none }).hpm c k 3 1

/-- The coprocessor of a cluster takes up the operation committed first, if it runs none (R403). A running
operation has left its core's queue slot (DEDUCED from R405, log entry 39). -/
def Device.cpNext (d : Device) (c : Nat) : Device :=
  if (List.range 8).any (fun k => (d.core c k).cpRun.isSome) then d
  else
    let first := (List.range 8).foldl (fun (b : Option Nat) k => match (d.core c k).cp, b with
      | none, _ => b
      | some _, none => some k
      | some _, some j => if (d.core c k).cpSeq < (d.core c j).cpSeq then some k else b) none
    match first with
    | none => d.put (CLU_CP_STATUS_BUSY c) 0
    | some k =>
      let x := d.core c k
      let d := d.setCore c k { x with cpRun := x.cp, cp := none }
      let d := d.put (CLU_CP_STATUS_SLOT c) (putBits (d.get (CLU_CP_STATUS_SLOT c)) k k 0)
      (d.put (CLU_CP_STATUS_BUSY c) 1).put (CLU_CP_STATUS_RUN c) k

/-! ### Core stop and the core's next item (R350, R393 to R395) -/

/-- A core returns to idle in machine mode: uncommitted bundles are squashed, PROV, UNVER and VLIVE
clear, a pending BUS_ASYNC is cleared (R395, R414, R608), and its queued coprocessor operation is
dropped (R405). -/
def Device.coreStop (d : Device) (c k : Nat) : Device :=
  let d := ((((d.put (CX_STATUS_PROV c k) 0).put (CX_STATUS_UNVER c k) 0).put (CX_STATUS_VLIVE c k) 0).put
    (CX_STATUS_PRIV c k) 2).put (CX_STATUS_IDLE c k) 1
  let pend := d.get (CX_INT_PEND_PEND c k)
  let d := d.put (CX_INT_PEND_PEND c k) (pend % 8 / 2 * 2)
  let d := d.squash c k
  let d := d.put (CLU_CP_STATUS_SLOT c) (putBits (d.get (CLU_CP_STATUS_SLOT c)) k k 0)
  let x := d.core c k
  let d := d.setCore c k { x with
    item := none, branch := none, loops := [], load := none, waiting := true, failed := false, done := none, cp := none
    cpRun := none, cpWait := false, since := 0 }
  d.cpNext c

/-- Puts a saved frame back on its core: the item runs at its saved PC and mode (R394). -/
def Device.restoreFrame (d : Device) (c k : Nat) (f : Frame) : Device :=
  let d := f.csrs.foldl (fun (d : Device) p => d.setWord p.1 p.2) d
  let i := d.item f.item
  let d := d.setItem f.item { i with st := .running, startSeq := d.dsp.seq }
  let d := { d with dsp := { d.dsp with seq := d.dsp.seq + 1 } }
  let pend := d.get (CX_INT_PEND_PEND c k)
  let d := d.put (CX_INT_PEND_PEND c k) (pend % 8 + 8 * b2n f.async)
  let x := d.core c k
  let regs := if f.vlive then f.regs else { f.regs with v := x.regs.v, vp := x.regs.vp }
  d.setCore c k { x with
    regs := regs, pc := f.pc, branch := none, loops := f.loops, mLoops := f.mLoops, sLoops := f.sLoops, flight := []
    frames := x.frames.filter (fun g => g.item != f.item), item := some f.item, order := none, failed := f.failed
    waiting := false, resumed := true, since := 0, opened := false, whole := false, slots := [], staged := []
    got := [], restore := false }

/-- What a core at WAIT takes next: an ordered item, a READY item above its newest saved one, the
restore of that one, or nothing (R350, R365). -/
def Device.coreTake (d : Device) (c k : Nat) : Device :=
  let x := d.core c k
  let d := d.setCore c k { x with restore := false }
  match x.order with
  | some key =>
    match x.frames.find? (fun f => f.item == key) with
    | some f => d.restoreFrame c k f
    | none => d.dispatch c k key
  | none =>
    match x.frames with
    | [] => d
    | f :: _ =>
      let lvl := (d.item f.item).level
      let better := d.selectable.find? (fun key =>
        let i := d.item key
        i.st == .ready && i.target == 0 && decide (lvl < i.level) && (d.allowed i).contains (c, k))
      match better with
      | none => d.restoreFrame c k f
      | some key => match d.energyGrant key false with
        | (true, d) => d.dispatch c k key
        | (false, d) => d.restoreFrame c k f

/-- A core that holds no item takes its next one at WAIT (R393). -/
def Device.coreNext (d : Device) (c k : Nat) : Device :=
  let x := d.core c k
  if x.waiting && !x.halted then d.coreTake c k else d.setCore c k { x with restore := true }

/-- Takes an item off whatever holds it: its core, its saved frame, or an order. -/
def Device.detach (d : Device) (key : Nat) : Device :=
  let i := d.item key
  let d := { d with cores := d.cores.map (fun p =>
    (p.1, if p.2.order == some key then { p.2 with order := none } else p.2)) }
  match i.st with
  | .running => d.coreStop i.atCl i.atCore
  | .preempted =>
    let x := d.core i.atCl i.atCore
    d.setCore i.atCl i.atCore { x with frames := x.frames.filter (fun f => f.item != key) }
  | _ => d

/-- After an item has left a core, the core takes its next. -/
def Device.refill (d : Device) (was : ItemState) (i : Item) : Device :=
  if was == .running && !d.coreFenced i.atCl i.atCore then d.coreNext i.atCl i.atCore else d

/-! ### Expiry (R34, R36, R37, R359, R360) -/

/-- The node whose dispatch port acts for an item: the cluster that ran it, else that of the lowest
mapped logical cluster of LC_MASK; none when no role is mapped. -/
def Device.expiryNode (d : Device) (i : Item) : Option Nat :=
  let low := ((List.range 20).filter (bit i.lcMask)).findSome? (fun l =>
    (d.physOf l).map (fun c => clusterNode c 0))
  if i.started then
    match d.physOf i.atLc with
    | some c => some (clusterNode c 0)
    | none => low
  else low

/-- Words 2 and 3 of a FREE tile opened at an expiry: CARRIER, SLOT, SYMBOL 15 and FORMAT 7 (R360). -/
def expiryOpen (i : Item) : Nat := i.release % 65536 + 2 ^ 16 * i.carrier + 2 ^ 24 * 15 + 2 ^ 28 * 7

/-- The action of R360 on one EXP_LIST tile, by class, from a node. -/
def Device.expireTile (d : Device) (i : Item) (node : Nat) (mapped : Bool) (t : Nat) : Device :=
  let act := fun (d : Device) =>
    match i.cls with
    | 0 => d.sealLate node t
    | 1 => d.sealWith node t zeroTile false false 255 (d.tile t).count
    | 3 => d.sealWith node t zeroTile true false 0 (d.tile t).count
    | _ => d
  let h := d.tile t
  if t < 40960 && (h.st == .opened && h.writer == node) && mapped then act d
  else if t < 40960 && h.st == .free && !d.retired (tileBank t) then
    act (d.opOpen t node (expiryOpen i) false).1
  else d

/-- The core-item expiry of R360: every EXP_LIST tile is dealt with, then the item ends EXPIRED. -/
def Device.expireCore (d : Device) (k : Nat) : Device :=
  let i := d.item k
  let d := d.detach k
  let d :=
    if i.cls = 0 || i.cls = 1 || i.cls = 3 then
      let l := d.readList i.expAddr i.expCount
      let d := match d.expiryNode i with
        | some n => l.1.foldl (fun (d : Device) t => d.expireTile i n true t) d
        | none => l.1.foldl (fun (d : Device) t => d.expireTile i d.aon false t) d
      d.listFault i.panel i.expAddr (d.handleOf k) l.2
    else d
  (d.endItem k 2 0).refill i.st i

/-- Tells the engine that holds an item's command that its due edge has occurred. -/
def Device.flagExpired (d : Device) (k : Nat) : Device :=
  let i := d.item k
  let e := engKey i.target i.atEng
  let x := d.engine e
  d.setEngine e { x with queue := x.queue.map (fun q => if q.item = k then { q with expired := true } else q) }

/-- An expiry placement: the command goes to an engine of ENG_MASK outside the queue limit, which
performs its expiry action without computing; with no engine left the item ends EXPIRED. -/
def Device.expiryPlace (d : Device) (k : Nat) : Device :=
  let i := d.item k
  match d.pickEngine i.target i.entry false with
  | some e => (d.counted k).enqueue k e true
  | none => d.endItem k 2 0

/-- The logical cluster that ran an item, or 0x1F (R37). -/
def Device.ranLc (_d : Device) (i : Item) : Nat :=
  if i.started && i.target == 0 then i.atLc else 0x1F

/-- A CONTROL item past its due tick runs on at level 15 with OVERRUN, EV372 and a DEADLINE record (R37). -/
def Device.overrunItem (d : Device) (k : Nat) : Device :=
  let i := d.item k
  let die := d.panelDie i.panel
  let d := d.setItem k { i with level := 15, overrun := true }
  let d := ((d.count (DSP_CNT_EXPIRED_COUNT die) 1).tally 12 1).dspCause DSP_EV_CAUSE_OVERRUN die 372
  d.deadline i.panel (d.ranLc i) (d.handleOf k) 372

/-- The action of R359 at the edge that makes an item late. -/
def Device.expireItem (d : Device) (k : Nat) : Device :=
  let i := d.item k
  let die := d.panelDie i.panel
  if i.st == .empty then d
  else if i.cls = 4 then d.overrunItem k
  else
    let d := ((d.count (DSP_CNT_EXPIRED_COUNT die) 1).tally 12 1).dspCause DSP_EV_CAUSE_EXPIRED die 375
    if i.target = 0 then d.expireCore k
    else if i.st == .queued then d.flagExpired k
    else d.expiryPlace k

/-! ### Re-dispatch (R38, R362) -/

/-- R38 for one item that was in flight on a fenced core or cluster: back to READY at its level and
READY time, or expired; whether it was re-dispatched. -/
def Device.redispatch (d : Device) (k : Nat) : Device × Bool :=
  let i := d.item k
  if i.cls = 4 || i.nodue || (i.dur : Int) ≤ d.toDue i && !(d.toDue i == 0) then
    let d := (d.detach k).setItem k { i with st := .ready, redisp := true }
    (d.count (DSP_CNT_REDISPATCH_COUNT (d.panelDie i.panel)) 1, true)
  else (d.expireItem k, false)

/-- R38 for a list of items; REDISPATCH is set once when any returned to READY. -/
def Device.redispatchAll (d : Device) (ks : List Nat) : Device :=
  let r := ks.foldl (fun p k => let q := p.1.redispatch k
    (q.1, p.2 || q.2)) (d, false)
  match r.2, ks with
  | true, k :: _ => r.1.dspCause DSP_EV_CAUSE_REDISPATCH (d.panelDie (d.item k).panel) 381
  | _, _ => r.1

/-- Items running or pre-empted on a cluster, or on one core of it. -/
def Device.itemsOn (d : Device) (c : Nat) (core : Option Nat) : List Nat :=
  (d.items.filter (fun p => (p.2.st == .running || p.2.st == .preempted) && p.2.atCl == c
    && (match core with | none => true | some k => p.2.atCore == k))).map (·.1)

/-! ### Submission (R338 to R342) -/

/-- Classes a target permits (R339). -/
def classOk (target cls : Nat) : Bool :=
  match target with
  | 0 => cls == 0 || cls == 1 || cls == 3 || cls == 4 || cls == 5
  | 1 => cls == 0 || cls == 3
  | 2 => cls == 1 || cls == 5 || cls == 3
  | 3 => cls == 5
  | 4 => cls == 2
  | 5 => cls == 3
  | _ => false

/-- Engines of a target within a panel (R342). -/
def Device.panelEngines (d : Device) (p target : Nat) : Nat :=
  let w1 := d.panelWord p 1
  let w2 := d.panelWord p 2
  match target with
  | 1 => w1
  | 2 => bits w2 3 0
  | 3 => bits w2 7 4
  | 4 => (List.range 4).foldl (fun m i => m + b2n (bits (bits w2 19 8) (3 * i + 2) (3 * i) != 0) * 2 ^ i) 0
  | 5 => (List.range 4).foldl (fun m i =>
      m + b2n (bit w2 (20 + i) || bit w2 (24 + i) ||
        (i % 2 == 0 && (bit w2 (28 + i / 2) || bit w2 (30 + i / 2)))) * 2 ^ i) 0
  | _ => 0

/-- The item a descriptor describes (R338). -/
def parseItem (p : Nat) (bs : List Byte) : Item :=
  let w := wordAt bs
  { item0 with
    st := .waiting, panel := p, cls := bits (w 0) 2 0, glean := bit (w 0) 3, nodue := bit (w 0) 4
    cmplRec := bit (w 0) 5, prio := bits (w 0) 9 6, eclass := bits (w 0) 13 10, target := bits (w 0) 17 14
    carrier := bits (w 0) 23 18, tag := bits (w 0) 31 24, dur := bits (w 1) 23 0, deps := bits (w 1) 31 24
    release := w 2, due := w 3
    entry := if bits (w 0) 17 14 = 0 then bits (w 4) 16 0 else w 4
    arg := w 5 + 2 ^ 32 * bits (w 6) 15 0, lcMask := bits (w 7) 19 0, coreMask := bits (w 7) 27 20
    baseTick := bit (w 7) 28, succ := [w 8, w 9, w 10, w 11]
    relAddr := w 12 + 2 ^ 32 * bits (w 13) 15 0, relCount := bits (w 13) 31 16
    expAddr := w 14 + 2 ^ 32 * bits (w 15) 15 0
    expCount := if bits (w 0) 17 14 = 0 then bits (w 15) 31 16 else 0
    level := bits (w 0) 9 6 }

/-- Reserved fields of a descriptor that are not 0, and successors out of range (code 11). -/
def reservedBad (bs : List Byte) : Bool :=
  let w := wordAt bs
  (bits (w 0) 17 14 == 0 && bits (w 4) 31 17 != 0) || bits (w 6) 31 16 != 0 || bits (w 7) 31 29 != 0 ||
    (List.range 4).any (fun i => bits (w (8 + i)) 30 21 != 0 ||
      (bit (w (8 + i)) 31 && decide (40960 ≤ bits (w (8 + i)) 15 0)))

/-- Whether a list lies where R338 asks. -/
def listOk (a n : Nat) : Bool := n == 0 || (a % 2 == 0 && isDescMem a (2 * n))

/-- The refusal code of a submission, if any, in the order of R342; a whole descriptor otherwise. -/
def Device.refusal (d : Device) (r : Req) (p addr : Nat) (inl0 fetchOk : Bool) (full : Bool) : Option Nat :=
  if !(decide (p < 20) && bit (d.get PKL_PANEL_DEF_DEF) p) then some 2
  else if !d.panelRuns p then some 3
  else match (if fetchOk && addr % 64 == 0 && isDescMem addr 64 then d.fetch addr 64 else none) with
    | none => some 10
    | some bs =>
      let i := parseItem p bs
      if !listOk i.relAddr i.relCount || !listOk i.expAddr i.expCount then some 10
      else if reservedBad bs || !inl0 then some 11
      else if 5 < i.cls || !classOk i.target i.cls then some 6
      else if (!i.nodue && isPast 32 i.due i.release) || (i.nodue && i.cls ≠ 5) then some 4
      else if d.duePast i then some 5
      else if (i.prio == 15 && i.cls ≠ 4) || (i.prio == 14 &&
          (match r with
           | .hostA => false
           | .hostB => false
           | .hayward => false
           | .core c k => d.get (CX_STATUS_PRIV c.val k.val) != 2
           | .node _ => true)) then some 7
      else if i.target = 0 && (i.lcMask = 0 || i.coreMask = 0
          || i.lcMask.land (2 ^ 20 - 1 - d.panelWord p 0 % 2 ^ 20) ≠ 0) then some 8
      else if i.target ≠ 0 && (i.entry = 0
          || i.entry.land (2 ^ 32 - 1 - d.panelEngines p i.target % 2 ^ 32) ≠ 0) then some 9
      else if full then some 1
      else none

/-- Items a panel holds. -/
def Device.panelItems (d : Device) (p : Nat) : List (Nat × Item) :=
  d.items.filter (fun q => q.2.st != .empty && q.2.panel == p)

/-- The store entry an accepted item takes: the first empty one of the die at or after idx; which
empty entry it is the spec leaves open, and idx stands for the choice (log entry 4). -/
def Device.freeEntry (d : Device) (die idx : Nat) : Nat → Option Nat
  | 0 => none
  | n + 1 =>
    if (d.item (65536 * die + idx % 40960)).st == .empty then some (65536 * die + idx % 40960)
    else d.freeEntry die (idx + 1) n

/-- Entries in use in a die's store: those of its panels' items, and those that forward decrements to an item a
migration took to the other die (R363). -/
def Device.storeUsed (d : Device) (die : Nat) : Nat :=
  (d.items.filter (fun q => q.2.st != .empty && (q.1 / 65536 == die || d.panelDie q.2.panel == die))).length

/-- Whether an item's release is the edge of a migration's carrier tick E or later (R80, R363). -/
def Device.fromE (d : Device) (i : Item) : Bool :=
  let e := if i.baseTick then d.frameF + d.pkl.migE * d.carrierR d.pkl.migCarrier else d.pkl.migE
  !isPast 32 i.release e || i.release == e % 2 ^ 32

/-- An item of a carrier whose migration has switched goes to the destination (R363). -/
def Device.movedTo (d : Device) (i : Item) : Item :=
  if d.get PKL_MIG_STATUS_STATE = 3 && i.panel == d.pkl.migSrc && i.carrier == d.pkl.migCarrier && d.fromE i then
    let p := d.pkl.migDest
    { i with panel := p, lcMask := d.panelWord p 0 % 2 ^ 20
             entry := if i.target = 0 then i.entry else d.panelEngines p i.target }
  else i

/-- A submission: its result, a handle or a refusal with bit 31 set (R341, R342). -/
def Device.submit (d : Device) (r : Req) (p addr : Nat) (inl0 fetchOk : Bool) (idx : Nat) : Device × Nat :=
  let die := d.panelDie p
  let slot := d.freeEntry die idx 40960
  let full := decide (4096 ≤ (d.panelItems p).length) || slot.isNone || decide (40960 ≤ d.storeUsed die)
  match d.refusal r p addr inl0 fetchOk full, slot, d.fetch addr 64 with
  | none, some k, some bs =>
    let i := d.movedTo (parseItem p bs)
    let d := d.setItem k { i with gen := (d.item k).gen, accSeq := d.dsp.seq }
    let d := { d with dsp := { d.dsp with seq := d.dsp.seq + 1 } }
    let h := d.handleOf k
    let d := d.release k
    (d.schedule, h)
  | c, _, _ =>
    let c := c.getD 10
    let d := ((d.put DSP_ERR_CODE c).put DSP_ERR_PANEL p).put DSP_ERR_REQ (reqCode r)
    let d := d.dspCause DSP_EV_CAUSE_REFUSED die 373
    let d := if c = 1 then d.dspCause DSP_EV_CAUSE_FULL die 374 else d
    (d, 2 ^ 31 + c)

/-! ### Checks, midpoints, completions -/

/-- Ripening and urgency of one item at a check (R353, R354); into is the time since the last edge. The checks
made since the item entered its level count whatever its state, but for WAITING. -/
def Device.ripen (d : Device) (into : Nat) (k : Nat) : Device :=
  let i := d.item k
  let die := d.panelDie i.panel
  let live := i.st == .ready || i.st == .preempted || i.st == .waiting
  if i.st == .running then d.setItem k { i with checks := i.checks + 1 }
  else if !live then d
  else if !i.nodue && i.level ≠ 15 && 0 < i.dur && 4 * (d.toDue i - into) < 5 * (i.dur : Int) then
    ((d.setItem k { i with level := 15 }).count (DSP_CNT_URGENT_COUNT die) 1).dspCause DSP_EV_CAUSE_URGENT die 377
  else if i.st == .waiting || 12 < i.level || (i.glean && 6 ≤ i.level) then d
  else
    let th := if i.level % 2 = 0 then d.get (DSP_RIPEN_LVL_LO i.panel (i.level / 2))
      else d.get (DSP_RIPEN_LVL_HI i.panel (i.level / 2))
    if th ≠ 0 && i.checks + 1 = th then
      let d := (d.setItem k { i with level := i.level + 1, checks := 0, ripens := i.ripens + 1 }).count
        (DSP_CNT_RIPEN_COUNT die) 1
      if i.level + 1 = 13 then d.dspCause DSP_EV_CAUSE_TOP_RIPE die 382 else d
    else d.setItem k { i with checks := i.checks + 1 }

/-- The floor's pre-emption at a midpoint for one panel (R356). -/
def Device.midFloor (d : Device) (p : Nat) : Device :=
  if !d.panelRuns p || !d.on (DSP_FLOOR_CREDIT_NS p) || tabGet (fun _ => false) d.dsp.floorDone p then d
  else
    let gl := (d.gleaners (· == p)).filter (fun q => (d.idleFor q.2).isNone)
    match gl.foldl (fun b q => match b with
        | none => some q
        | some x => if older q.2 x.2 then some q else some x) (none : Option (Nat × Item)) with
    | none => d
    | some q =>
      match d.victim (d.allowed q.2) (d.get (DSP_NEST_NEST p)) 15 with
      | none => d
      | some v => (d.floorMark q.1).orderOn v.1 v.2 q.1

/-- The Dispatcher's handling of an engine's completion report, into nanoseconds after the last edge (R352). -/
def Device.engineDone (d : Device) (target into : Nat) (f : Completion) : Device :=
  let i := d.item f.item
  let slack := i.nodue || decide ((i.dur : Int) ≤ d.toDue i - into)
  if i.st != .queued then d
  else if f.status = 3 && (target = 1 || target = 2 || target = 5) then
    let others := d.panelEngines i.panel target
    let mask := if bit others i.atEng then others - 2 ^ i.atEng else others
    match d.pickEngine target mask true with
    | some e =>
      if slack then
        let d := (d.setItem f.item { i with redisp := true }).count (DSP_CNT_REDISPATCH_COUNT (d.panelDie i.panel)) 1
        d.enqueue f.item e false
      else d.expiryPlace f.item
    | none => if slack then d.endItem f.item 3 f.eras else d.expiryPlace f.item
  else d.endItem f.item f.status f.eras

/-- The end of a core's item at its CX_DONE write, once every far store is answered (R393, R608). -/
def Device.finish (d : Device) (c k status : Nat) : Device :=
  let x := d.core c k
  match x.item with
  | none => d
  | some key =>
    let i := d.item key
    let st := if i.overrun then 6 else if x.failed || status ≠ 0 then 1 else 0
    let pend := d.get (CX_INT_PEND_PEND c k)
    let d := d.put (CX_INT_PEND_PEND c k) (pend % 8)
    let d := (d.put (CX_STATUS_IDLE c k) 1).put (CX_STATUS_VLIVE c k) 0
    let d := d.setCore c k { x with item := none, failed := false, done := none }
    ((d.endItem key st 0).coreNext c k).schedule

/-- Whether a far store of the item a core holds awaits its acknowledgement (R608). -/
def Device.storesOut (d : Device) (c k : Nat) : Bool :=
  let x := d.core c k
  x.stores.any (fun q => q.item == x.item.map d.handleOf)

/-- A CX_DONE write: ignored with no item; held while far stores are outstanding (R393, R608). -/
def Device.doneWrite (d : Device) (c k status : Nat) : Device :=
  let x := d.core c k
  if x.item.isNone then d
  else if d.storesOut c k then d.setCore c k { x with done := some status }
  else d.finish c k status

/-! ### Meanings -/

/-- RELEASE_TICK: the release edge of an item has occurred, and with it that of every other item it releases;
they enter READY in one cycle (R34, R343, R347). -/
def execReleaseTick (h : Handle) (s : State) : Host.Outcome State Fault Refusal :=
  s.run (fun d =>
    let i := d.item (h.toNat % 2 ^ 17)
    if bits h.toNat 20 17 = i.gen && i.st == .waiting && !i.released && d.releasePast i then
      ((d.items.map (·.1)).foldl (fun d k => d.release k) d).schedule
    else d)

/-- SUBMIT: an ATOM_SWAP to DSP_SUBMIT p, answered with the result (R341). -/
def execSubmit (r : Req) (p : Fin 20) (inl : BitVec 64) (fetchOk : Bool) (idx : Fin 40960) (s : State) :
    Host.Outcome State Fault Refusal :=
  s.run (fun d =>
    let q := d.submit r p.val (bits inl.toNat 47 0) (bits inl.toNat 63 48 == 0) fetchOk idx.val
    q.1.emit (.resp (d.reqNode r) (okInl q.2)))

/-- HOST_SUBMIT: a read of DSP_HSUB_GO submits what the requester's DSP_HSUB registers hold (R341). -/
def execHostSubmit (r : Req) (fetchOk : Bool) (idx : Fin 40960) (s : State) :
    Host.Outcome State Fault Refusal :=
  s.run (fun d =>
    let lo := tabGet (fun _ => 0) d.dsp.hsubLo (reqNum r)
    let hi := tabGet (fun _ => 0) d.dsp.hsubHi (reqNum r)
    let q := d.submit r (bits hi 20 16) (lo + 2 ^ 32 * bits hi 15 0) true fetchOk idx.val
    q.1.emit (.regRead (reqNum r) DSP_HSUB_GO q.2))

/-- DEP_DEC (R344). -/
def execDepDec (v : Word) (s : State) : Host.Outcome State Fault Refusal :=
  s.run (fun d => (d.depDec v.toNat).schedule)

/-- CANCEL: a WAITING or READY item that is not selected ends CANCELLED (R345, R365). -/
def Device.cancelItem (d : Device) (v : Nat) : Device :=
  let k := v % 2 ^ 17
  let i := d.item k
  if bits v 20 17 = i.gen && (i.st == .waiting || i.st == .ready) && !d.ordered k then (d.endItem k 5 0).schedule else d

def execCancel (v : Word) (s : State) : Host.Outcome State Fault Refusal := s.run (fun d => d.cancelItem v.toNat)

/-- Charges the time since the last check to the floor credit of the panels whose floor items run (R355): the
model counts running time from check to check (log entry 5). -/
def Device.chargeFloor (d : Device) (into : Nat) : Device :=
  let dt := into - d.dsp.checkAt
  let d := { d with dsp := { d.dsp with checkAt := into } }
  (d.items.filter (fun p => p.2.st == .running && p.2.floor)).foldl (fun (d : Device) p =>
    d.put (DSP_FLOOR_CREDIT_NS p.2.panel) (d.get (DSP_FLOOR_CREDIT_NS p.2.panel) - dt)) d

/-- RIPEN_CHECK, into nanoseconds after the last base tick edge (R353 to R355). -/
def execRipenCheck (into : Nat) (s : State) : Host.Outcome State Fault Refusal :=
  s.run (fun d => ((d.items.map (·.1)).foldl (fun d k => d.ripen into k) (d.chargeFloor into)).schedule)

/-- BASE_TICK_MIDPOINT, once in a base tick (R356). -/
def execBaseTickMidpoint (s : State) : Host.Outcome State Fault Refusal :=
  s.run (fun d =>
    if d.dsp.mid then d
    else (List.range 20).foldl (fun d p => d.midFloor p) { d with dsp := { d.dsp with mid := true } })

/-- CX_DONE_WRITE (R393, R608). -/
def execCxDoneWrite (c : Fin 20) (k : Fin 8) (status : BitVec 16) (s : State) :
    Host.Outcome State Fault Refusal :=
  s.run (fun d =>
    if d.get (CX_STATUS_PRIV c.val k.val) = 2 then d.doneWrite c.val k.val status.toNat else d)

end Sys2Proof.Machine
end

