-- ==== Sys2Proof/Machine/Samples.lean ====
section
/-! DEFINITION. Numbers as tiles hold them: the sample and LLR layouts of R129 and R130, packed bits, the CRCs and Gold
sequences that 3GPP clauses name, and the kernels that stand for arithmetic without a stated rounding (log entry 11). -/

namespace Sys2Proof.Machine

def ceilDiv (a b : Nat) : Nat := (a + b - 1) / b

/-! ### Layouts (R129, R130) -/

/-- Bytes per group of a format, and groups per tile (R129). -/
def fmtBytes (f : Nat) : Nat := [48, 36, 28, 37, 43, 1, 1, 1].getD f 1
def fmtGroups (f : Nat) : Nat := [85, 113, 146, 110, 95, 4096, 8192, 4096].getD f 4096

/-- An LLR of four bits: −8 is never written (R130). -/
def llr4 (n : Nat) : Nat := if n = 8 then 9 else n

/-- Byte i of a tile in a format's layout: a block exponent has [7:4] at 0, and no LLR is the most negative value
(R130). -/
def layByte (fmt i : Nat) (b : Byte) : Byte :=
  if 2 ≤ fmt && fmt ≤ 4 then (if i % fmtBytes fmt = 0 then b.and 0x0F else b)
  else if fmt = 5 then (if b = 0x80 then 0x81 else b)
  else if fmt = 6 then BitVec.ofNat 8 (llr4 (b.toNat % 16) + 16 * llr4 (b.toNat / 16))
  else b

/-- Bytes in a format's layout. -/
def lay (fmt : Nat) (bs : List Byte) : List Byte := bs.zipIdx.map (fun p => layByte fmt p.2 p.1)

/-- Bytes of a tile, the rest zero. -/
def padTile (bs : List Byte) : List Byte := bs.take 4096 ++ List.replicate (4096 - bs.length) 0

/-- The 24 components of a PRB of a sample format, I and Q by turns (R130). -/
def comps (fmt : Nat) (g : List Byte) : List Int :=
  match fmt with
  | 0 => (List.range 24).map (fun i => toSigned 16 (leNat ((g.drop (2 * i)).take 2)))
  | 1 => (List.range 24).map (fun i => toSigned 12 (bits (leNat ((g.drop (3 * (i / 2))).take 3)) (12 * (i % 2) + 11) (12 * (i % 2))))
  | _ =>
    let m := [9, 12, 14].getD (fmt - 2) 9
    let bs := (g.drop 1).flatMap (fun b => (List.range 8).map (fun i => bit b.toNat (7 - i)))
    (List.range 24).map (fun i =>
      toSigned m (((bs.drop (m * i)).take m).foldl (fun v b => 2 * v + b2n b) 0) * 2 ^ ((g.headD 0).toNat % 16))

/-- A component saturated to cs16. -/
def sat16 (v : Int) : Int := clampInt (-32768) 32767 v

/-- Components as cs16 bytes, and how many saturated. -/
def cs16Bytes (vs : List Int) : List Byte × Nat :=
  (vs.flatMap (fun v => leBytes 2 (ofSigned 16 (sat16 v))), (vs.filter (fun v => sat16 v != v)).length)

/-- An LLR as a byte: never below −127 (R130). -/
def sat127 (v : Int) : Int := clampInt (-127) 127 v
def llrByte (v : Int) : Byte := BitVec.ofNat 8 (ofSigned 8 (sat127 v))
/-- A byte as an LLR. -/
def llrOf (b : Byte) : Int := toSigned 8 b.toNat

/-- LLR4 values packed two to a byte, the earlier in [3:0] (R130). -/
def packLlr4 : List Int → List Byte
  | [] => []
  | [a] => [BitVec.ofNat 8 (ofSigned 4 a)]
  | a :: b :: t => BitVec.ofNat 8 (ofSigned 4 a + 16 * ofSigned 4 b) :: packLlr4 t

/-- The LLR4 values of packed bytes. -/
def unpackLlr4 (bs : List Byte) : List Int := bs.flatMap (fun b => [toSigned 4 b.toNat, toSigned 4 (b.toNat / 16)])

/-! ### Packed bits (R283) -/

/-- Bit i of packed bits, first bit in bit 7 of byte 0. -/
def packedBit (bs : List Byte) (i : Nat) : Bool := bit (bs.getD (i / 8) 0).toNat (7 - i % 8)

/-- Bits packed, first bit into bit 7 of byte 0, the last byte filled with zeros. -/
def packBits0 (bs : List Bool) : List Byte :=
  (List.range (ceilDiv bs.length 8)).map (fun b =>
    BitVec.ofNat 8 ((List.range 8).foldl (fun v j => 2 * v + b2n (bs.getD (8 * b + j) false)) 0))

/-! ### CRCs (TS 38.212 clause 5.1, TS 36.212 clause 5.1.1; log entry 8) -/

/-- Width and polynomial of a code, by the numbers of R401. -/
def crcCode : Nat → Option (Nat × Nat)
  | 0 => some (24, 0x864CFB)
  | 1 => some (24, 0x800063)
  | 2 => some (24, 0xB2B117)
  | 3 => some (16, 0x1021)
  | 4 => some (11, 0xE21)
  | 5 => some (6, 0x21)
  | 6 => some (8, 0x9B)
  | 7 => some (32, 0x1EDC6F41)
  | _ => none

/-- The remainder of bits under a code. -/
def crcRem (code : Nat) (bs : List Bool) : Nat :=
  match crcCode code with
  | none => 0
  | some (w, poly) => crcBits w poly 0 bs

/-- The bits of a number of w bits, most significant first. -/
def msbBits : Nat → Nat → List Bool
  | 0, _ => []
  | w + 1, v => bit v w :: msbBits w v

/-- Bits with the parity bits of a code after them, masked by XOR with a number. -/
def crcAttach (code mask : Nat) (bs : List Bool) : List Bool :=
  match crcCode code with
  | none => bs
  | some (w, poly) => bs ++ msbBits w ((crcBits w poly 0 bs).xor mask)

/-! ### Gold sequences (TS 38.211 clause 5.2.1) -/

/-- One step of the two 31-bit registers. -/
def goldStep (s : Nat × Nat) : Nat × Nat :=
  let f1 := (bit s.1 3 != bit s.1 0)
  let f2 := ((bit s.2 3 != bit s.2 2) != (bit s.2 1 != bit s.2 0))
  (s.1 / 2 + 2 ^ 30 * b2n f1, s.2 / 2 + 2 ^ 30 * b2n f2)

/-- n steps. -/
def goldSkip : Nat → Nat × Nat → Nat × Nat
  | 0, s => s
  | n + 1, s => goldSkip n (goldStep s)

/-- n bits of the sequence from a state of the registers. -/
def goldRun : Nat → Nat × Nat → List Bool
  | 0, _ => []
  | n + 1, s => (bit s.1 0 != bit s.2 0) :: goldRun n (goldStep s)

/-- c(n0) to c(n0 + n − 1). -/
def goldBits (cInit n0 n : Nat) : List Bool := goldRun n (goldSkip (1600 + n0) (1, cInit % 2 ^ 31))

/-- c(n). -/
def goldBit (cInit n : Nat) : Bool := (goldBits cInit n 1).headD false

/-! ### Kernels (log entry 11) -/

/-- The n bytes a kernel gives. -/
def kbytes (kind : Nat) (ps : List Nat) (input : List Byte) (n : Nat) : List Byte :=
  (List.range n).map (fun i => BitVec.ofNat 8 (Config.kernel kind ps input i))

/-- A tile of n bytes of a kernel's result in a format, the rest zero. -/
def ktile (fmt kind : Nat) (ps : List Nat) (input : List Byte) (n : Nat) : List Byte :=
  padTile (lay fmt (kbytes kind ps input (min n 4096)))

/-- A kernel's result as a signed number. -/
def kint (kind : Nat) (ps : List Nat) (input : List Byte) (i : Nat) : Int := toSigned 32 (Config.kernel kind ps input i)

/-- Signed numbers as a kernel's parameters. -/
def codes (vs : List Int) : List Nat := vs.map (ofSigned 32)

/-- A PRB's 24 components in a sample format, and the components that saturated: cs16 holds the value itself, another
format a reduction with the rounding left open (log entry 11). -/
def packPrb (fmt : Nat) (vs : List Int) : List Byte × Nat :=
  if fmt = 0 then cs16Bytes vs
  else (lay fmt (kbytes 2 (fmt :: codes vs) [] (fmtBytes fmt)), Config.kernel 3 (fmt :: codes vs) [] 0 % 25)

/-- Several PRBs in a sample format. -/
def packPrbs (fmt : Nat) (ps : List (List Int)) : List Byte × Nat :=
  let r := ps.map (packPrb fmt)
  (r.flatMap (·.1), (r.map (·.2)).sum)

end Sys2Proof.Machine
end

