-- ==== Sys2Proof/Machine/FrontEnd.lean ====
section
/-! DEFINITION. Engine queues as engines use them, a container's entry, the Fourier engines' uplink commands and the
digital AGC (R209 to R225). Numeric results are kernels (log entry 11). -/

namespace Sys2Proof.Machine
open R

/-! ### Engine queues -/

/-- The front command of an engine's queue, when the engine has not been told that it is late. -/
def Device.front (d : Device) (target e : Nat) : Option QCmd :=
  (d.engine (engKey target e)).queue.find? (fun q => !q.expired)

/-- Takes an item's command off its queue and reports its completion (R217). -/
def Device.report (d : Device) (target e item status eras : Nat) : Device :=
  let x := d.engine (engKey target e)
  d.setEngine (engKey target e) { x with
    queue := x.queue.filter (fun q => q.item ≠ item), fin := x.fin ++ [⟨item, status, eras⟩] }

/-- An engine's node has read its command. -/
def Device.asksCommand (d : Device) (node item : Nat) : Device := d.asks node (d.item item).arg 64 false

/-- The 64-byte command an item's argument pointer names. -/
def Device.command (d : Device) (item : Nat) : Option (List Byte) := d.fetch (d.item item).arg 64

/-- Entries of a list of 16-bit numbers. -/
def halves : List Byte → List Nat
  | a :: b :: t => (a.toNat + 256 * b.toNat) :: halves t
  | _ => []

/-- Entries of a list of 32-bit numbers. -/
def wordsOf : List Byte → List Nat
  | a :: b :: c :: e :: t => leNat [a, b, c, e] :: wordsOf t
  | _ => []

/-- The n entries of a byte table. -/
def cutTable (bs : List Byte) (size n : Nat) : List (List Byte) :=
  (List.range n).map (fun i => (bs.drop (size * i)).take size)

/-- A tile list of n entries at an address. -/
def Device.tileList (d : Device) (a n : Nat) : Option (List Nat) :=
  if n = 0 then some [] else (d.fetch a (2 * n)).map halves

/-- A 48-bit address in words i and i + 1 of a command. -/
def addrOf (bs : List Byte) (i : Nat) : Nat := wordAt bs i + 2 ^ 32 * bits (wordAt bs (i + 1)) 15 0

/-! ### Entries of a CONTAINER section (R187) -/

def cCid (e : List Byte) : Nat := bits (wordAt e 0) 4 0
def cDown (e : List Byte) : Bool := bit (wordAt e 0) 5
def cLocked (e : List Byte) : Bool := bit (wordAt e 0) 6
def cFmt (e : List Byte) : Nat := bits (wordAt e 0) 9 7
def cFreq (e : List Byte) : Bool := bit (wordAt e 0) 10
def cCarrier (e : List Byte) : Nat := bits (wordAt e 0) 17 12
def cS (e : List Byte) : Nat := bits (wordAt e 1) 17 0
def cScale (e : List Byte) : Nat := bits (wordAt e 1) 19 18
def cOfs (e : List Byte) : Nat := bits (wordAt e 2) 12 0
def cLen (e : List Byte) : Nat := bits (wordAt e 2) 28 16
def cPtr0 (e : List Byte) : Nat := bits (wordAt e 3) 15 0
def cAdv (e : List Byte) : Nat := bits (wordAt e 3) 18 16
def cDreq (e : List Byte) : Nat := bits (wordAt e 3) 27 19
/-- Bytes of a unit. -/
def cUnit (e : List Byte) : Nat := if cFreq e then fmtBytes (cFmt e) else if cFmt e = 1 then 3 else 4
/-- Values of the pointer (R190). -/
def cPtrs (e : List Byte) : Nat := cS e / 2 ^ cScale e
/-- Units of basic frame k (R189). -/
def cNk (e : List Byte) (k : Nat) : Nat := (k + 1) * cS e / 1500 - k * cS e / 1500

/-- Entries of a CONTAINER section. -/
def Section.entries (s : Section) : List (List Byte) := cutTable (s.payload.drop 16) 16 (bits (wordAt s.payload 0) 5 0)

/-- Whether every uplink container of a carrier is of the frequency domain: no Fourier engine acts on it (R209). -/
def Device.freqCarrier (d : Device) (c : Nat) : Bool :=
  let es := (d.pkl.active.filter (fun s => s.ty == 0x51)).flatMap (fun s => s.entries.filter (fun e => cCarrier e == c && !cDown e))
  !es.isEmpty && es.all cFreq

/-- INLINE of an OPEN (R125). -/
def openWord (slot carrier symbol format port : Nat) (kind : Bool) (first : Nat) : Nat :=
  slot % 65536 + 2 ^ 16 * (carrier % 64) + 2 ^ 24 * (symbol % 16) + 2 ^ 28 * (format % 16) + 2 ^ 32 * (port % 512)
    + 2 ^ 41 * b2n kind + 2 ^ 48 * (first % 65536)

/-- Opens a tile, writes it and seals it. -/
def Device.putTile (d : Device) (node t inl : Nat) (bs : List Byte) (eras count : Nat) (mute prov : Bool) : Device :=
  d.engineWrite node t inl true (fun d => d.sealWith node t bs mute prov eras count)

/-- Opens a tile and seals it with AIS, nothing written, with the erased inputs that fed it (R136). -/
def Device.putAis (d : Device) (node t inl eras count : Nat) : Device :=
  d.engineWrite node t inl false (fun d => d.sealAis node t eras count)

/-- Whether an input tile's labels differ from the ones expected (R215). -/
def labelBad (h : Tile) (carrier slot symbol port : Nat) : Bool :=
  h.carrier != carrier || h.slot != slot % 65536 || h.symbol != symbol || h.port != port

/-- Reads one input tile, with a check of its labels: the payload, or an erasure; whether its labels were wrong. -/
def Device.inTileIf (d : Device) (node t : Nat) (wrong : Tile → Bool) : Device × Option (List Byte) × Bool :=
  match d.engineRead t node with
  | (d, none) => (d, none, false)
  | (d, some bs) => if wrong (d.tile t) then (d, none, true) else (d, some bs, false)

/-- The same against the labels of a command. -/
def Device.inTile (d : Device) (node t : Nat) (check : Bool) (carrier slot symbol port : Nat) :
    Device × Option (List Byte) × Bool :=
  d.inTileIf node t (fun h => check && labelBad h carrier slot symbol port)

/-- Reads several input tiles: payloads, erasures, wrong labels. -/
def Device.inTiles (d : Device) (node : Nat) (wrong : Tile → Bool) : List Nat → Device × List (List Byte) × Nat × Nat
  | [] => (d, [], 0, 0)
  | t :: ts =>
    match d.inTileIf node t wrong with
    | (d, r, bad) =>
      match d.inTiles node wrong ts with
      | (d, l, e, b) => (d, (r.getD zeroTile) :: l, e + b2n r.isNone, b + b2n bad)

/-! ### Fourier engine commands (R211 to R218) -/

/-- Transform sizes of NSIZE. -/
def nsize (i : Nat) : Nat := [256, 512, 1024, 1536, 2048, 3072, 4096].getD i 0

/-- Sets a cause of a Fourier engine (R238). -/
def Device.feCause (d : Device) (e : Nat) (f : Nat → Fld) : Device := d.cause (f e) (272 + e)

/-- A command that fails its checks: code, cause, completion with CMD_ERR (R213). -/
def Device.feErr (d : Device) (e item code : Nat) : Device :=
  ((d.put (FFE_ENG_ERR_CODE e) code).feCause e FFE_ENG_EV_CAUSE_CMD_ERR).report 1 e item 4 0

/-- The field checks of R213: the code of the first that fails. -/
def feCheck (w : Nat → Nat) : Nat :=
  let op := bits (w 0) 3 0
  let n := nsize (bits (w 0) 7 4)
  if op = 0 || 3 < op then 1
  else if 6 < bits (w 0) 7 4 then 2
  else if 4 < bits (w 0) 25 23 then 6
  else if bits (w 1) 22 16 = 0 || 64 < bits (w 1) 22 16 then 3
  else if bits (w 0) 21 18 < bits (w 0) 17 14 || 13 < bits (w 0) 21 18 then 4
  else if op = 1 && (n / 12 < bits (w 4) 8 0 + bits (w 4) 17 9 || n / 12 < bits (w 6) 8 0 + bits (w 6) 13 9) then 4
  else 0

/-- Whether symbol s of a slot begins on a 0.5 ms boundary of a carrier of slot length r (R214). -/
def longSymbol (r slot s : Nat) : Bool :=
  match r with
  | 8 => s == 0 || s == 7
  | 4 => s == 0
  | 2 => s == 0 && slot % 2 == 0
  | _ => s == 0 && slot % 4 == 0

/-- Tiles of one symbol: TPS of R210. -/
def tps (samples fmt : Nat) : Nat := ceilDiv (samples * (if fmt = 0 then 4 else 3)) 4096

/-! ### Gains and clipping (R219, R222, R223) -/

/-- The gain of an AGC entry in a symbol, when the entry still keeps it (R219). -/
def Device.gainAt (d : Device) (k slot sym : Nat) : Option Int :=
  let a := tabGet (fun _ => agc0) d.agc k
  if a.hist.length ≤ 1 then some (a.hist.headD (toSigned 8 (d.get (FFE_AGC_STATE_GAIN (k / 512) (k % 512)))))
  else
    let n : Int := 14 * toSigned 16 (a.at_.1 + 65536 - slot % 65536) + a.at_.2 + 1 - sym
    if n < 0 then none else a.hist[n.toNat]?

/-- A gain as a kernel's parameter; 0 when none is applied or kept. -/
def gainCode (g : Option Int) : Nat := match g with
  | none => 0
  | some g => 1 + ofSigned 8 g

/-- An AGC entry that takes a release: CLIP is cleared, and the PRACH hold is lifted for a full step; while SCHED holds, the
release is consumed (R222, R223). -/
def Device.agcRelease (d : Device) (k : Nat) : Device :=
  let a := tabGet (fun _ => agc0) d.agc k
  let m := d.get (FFE_AGC_STATE_MODE (k / 512) (k % 512))
  if a.prach.isNone then d
  else
    let d := d.put (FFE_AGC_STATE_CLIP (k / 512) (k % 512)) 0
    if m % 2 = 1 then d
    else ({ d with agc := tabSet (fun _ => agc0) d.agc k { a with rel := true, held := false } }).put
      (FFE_AGC_STATE_MODE (k / 512) (k % 512)) 0

/-- A saturation count added to an AGC entry's CLIP while its PRACH hold is set, with its release or
CLIP_SCHED (R222, R233); whether a release was taken. -/
def Device.clip (d : Device) (e agc carrier slot n : Nat) : Device × Bool :=
  let q := agc / 512
  let i := agc % 512
  let a := tabGet (fun _ => agc0) d.agc agc
  if !a.held then (d, false)
  else
    let c := min (d.get (FFE_AGC_STATE_CLIP q i) + n) 65535
    let d := d.put (FFE_AGC_STATE_CLIP q i) c
    if c ≤ d.get1 (FFE_AGC_CLIP_CLIP_LIMIT carrier) then (d, false)
    else if d.get (FFE_AGC_STATE_MODE q i) % 2 = 1 then
      if tabGet (fun _ => 0) d.clipSlot e = slot % 65536 + 1 then (d, false)
      else (({ d with clipSlot := tabSet (fun _ => 0) d.clipSlot e (slot % 65536 + 1) }).feCause e
        FFE_ENG_EV_CAUSE_CLIP_SCHED, false)
    else (d.agcRelease agc, true)

/-- A clipping release counted in the occasion that set the hold (R233). -/
def Device.countClipRel (d : Device) (carrier : Nat) : Device :=
  (List.range 4).foldl (fun d p =>
    let l := tabGet (fun _ => []) d.occs p
    if l.any (fun o => bits (wordAt o.cmd 0) 9 4 == carrier && o.det.isSome) then
      let l := l.map (fun o => if bits (wordAt o.cmd 0) 9 4 == carrier && o.det.isSome then
        { o with clipRel := o.clipRel + 1 } else o)
      (({ d with occs := tabSet (fun _ => []) d.occs p l }).count (PRE_CNT_CLIPREL_COUNT p) 1).cause
        (PRE_EV_CAUSE_CLIP_RELEASE p) (345 + 2 * p)
    else d) d

/-- An engine counts the saturations of an antenna's output, and its AGC entry those under a PRACH hold. -/
def Device.saturated (d : Device) (e agc carrier slot n : Nat) : Device :=
  let r := (d.count (FFE_ENG_CNT_SAT_COUNT e) n).clip e agc carrier slot n
  if r.2 then r.1.countClipRel carrier else r.1

/-! ### UL_FFT (R214, R224) -/

/-- What a Fourier command works with, once fetched and checked: antenna table and lists. -/
structure FeJob where
  cmd : List Byte
  ants : List Nat
  inList : List Nat
  outList : List Nat
  praList : List Nat

/-- PRBs of a transform in a sample format, and the components that saturated. Component i of kernel 1 is that of the
transform's resource elements in units of cs16 and before any format: I and Q by turns, from subcarrier 0 of PRB 0. -/
def prbBytes (fmt : Nat) (ps : List Nat) (input : List Byte) (prb n : Nat) : List Byte × Nat :=
  packPrbs fmt ((List.range n).map (fun p => (List.range 24).map (fun i => kint 1 ps input (24 * (prb + p) + i))))

/-- Labels of an output tile: those of its first input that is no erasure, else the command's (R214). -/
def Device.outLabels (d : Device) (ins : List Nat) (erased : Bool) (carrier slot sym port : Nat) : Nat × Nat × Nat × Nat :=
  match ins with
  | [] => (carrier, slot, sym, port)
  | t :: _ => if erased then (carrier, slot, sym, port) else
    let h := d.tile t
    (h.carrier, h.slot, h.symbol, h.port)

/-- Output of one antenna and symbol of UL_FFT: result tiles, and the PRACH tile (R214, R224); the components that
saturated. -/
def Device.fftOut (d : Device) (e : Nat) (j : FeJob) (s port agc : Nat) (inT : List Nat) (ins : List (List Byte)) (eras : Nat)
    (outs : List Nat) (pra : Option Nat) : Device × Nat :=
  let w := wordAt j.cmd
  let node := feNode e
  let l := d.outLabels inT (eras != 0) (bits (w 0) 13 8) (bits (w 1) 15 0) s port
  let fmt := if bit (w 5) s then 0 else bits (w 0) 25 23
  let g := fmtGroups fmt
  let first := bits (w 4) 8 0
  let total := bits (w 4) 17 9
  let long := longSymbol (d.carrierR (bits (w 0) 13 8)) (bits (w 1) 15 0) s
  let gain := if bit (w 0) 26 then gainCode (d.gainAt agc (bits (w 1) 15 0) s) else 0
  let ps := [bits (w 0) 7 4, if long then bits (w 2) 12 0 else bits (w 2) 25 13, bits (w 0) 22 22, bits (w 0) 27 27,
    bits (w 3) 12 0, gain]
  let input := ins.flatten
  let put := fun (a : Device × Nat) (t f p n : Nat) =>
    let inl := openWord l.2.1 l.1 l.2.2.1 f l.2.2.2 false p
    if eras = 0 then
      let r := prbBytes f ps input p n
      (a.1.putTile node t inl (padTile r.1) 0 n false false, a.2 + r.2)
    else (a.1.putAis node t inl eras n, a.2)
  let r := outs.zipIdx.foldl (fun a p => put a p.1 fmt (first + g * p.2) (min g (total - g * p.2))) (d, 0)
  let r := match pra with
    | none => r
    | some t => put r t 0 (bits (w 6) 8 0) (bits (w 6) 13 9)
  ((r.1.count (FFE_ENG_CNT_ERASE_COUNT e) eras).bump (FFE_ENG_CNT_XFORM_COUNT e) 1, r.2)

/-- One antenna and symbol of a command: inputs read and checked, outputs written, saturations counted. -/
def Device.fftOne (d : Device) (e : Nat) (j : FeJob) (s ant : Nat) (inT outs : List Nat) (pra : Option Nat) :
    Device × Nat :=
  let w := wordAt j.cmd
  let entry := j.ants.getD ant 0
  let carrier := bits (w 0) 13 8
  let check := d.on FFE_CTRL_LABEL_CHECK
  match d.inTiles (feNode e) (fun h => check && labelBad h carrier (bits (w 1) 15 0) s (bits entry 8 0)) inT with
  | (d, ins, eras, bad) =>
    let d := if bad ≠ 0 then d.feCause e FFE_ENG_EV_CAUSE_LABEL else d
    match d.fftOut e j s (bits entry 8 0) (bits entry 19 9) inT ins eras outs pra with
    | (d, sat) => (d.saturated e (bits entry 19 9) carrier (bits (w 1) 15 0) sat, eras)

/-- Symbols of a command. -/
def symbolsOf (w : Nat → Nat) : List Nat :=
  (List.range (bits (w 0) 21 18 + 1 - bits (w 0) 17 14)).map (fun i => bits (w 0) 17 14 + i)

/-- Input tiles per antenna of a symbol under OP 1. -/
def Device.feTps (d : Device) (w : Nat → Nat) (s : Nat) : Nat :=
  let long := longSymbol (d.carrierR (bits (w 0) 13 8)) (bits (w 1) 15 0) s
  tps ((if long then bits (w 2) 12 0 else bits (w 2) 25 13) + nsize (bits (w 0) 7 4)) (bits (w 0) 22 22)

/-- The rest of a list's length before symbol s. -/
def sumTo (f : Nat → Nat) (l : List Nat) (s : Nat) : Nat := ((l.takeWhile (· ≠ s)).map f).sum

/-- Antenna-symbol i of UL_FFT, in the order of its lists (R212, R214). -/
def Device.ulFft (d : Device) (e : Nat) (j : FeJob) (i : Nat) : Device × Nat :=
  let w := wordAt j.cmd
  let na := bits (w 1) 22 16
  let syms := symbolsOf w
  let s := syms.getD (i / na) 0
  let a := i % na
  let outs := fun s => ceilDiv (bits (w 4) 17 9) (fmtGroups (if bit (w 5) s then 0 else bits (w 0) 25 23))
  let pras := fun s => b2n (bit (bits (w 5) 29 16) s)
  let ti := d.feTps w s
  let bi := na * sumTo (d.feTps w) syms s
  let bo := na * sumTo outs syms s
  let bp := na * sumTo pras syms s
  d.fftOne e j s a ((j.inList.drop (bi + a * ti)).take ti) ((j.outList.drop (bo + a * outs s)).take (outs s))
    (if pras s = 1 then j.praList[bp + a]? else none)

/-! ### UL_PRACH_LONG (R225) -/

/-- The symbol in which the sample o samples after the start of symbol s of a slot lies, in slots of 14 symbols: symbols of
N samples with a prefix of 9N/128, and N/128 more for each 30.72 MHz of 15 kHz at a 0.5 ms boundary (PRESUMED,
log entry 50). -/
def symbolAfter : Nat → Nat → Nat → Nat → Nat → Nat → Nat × Nat
  | 0, _, _, slot, s, _ => (slot, s)
  | f + 1, r, n, slot, s, o =>
    let len := n + 9 * n / 128 + (if longSymbol r slot s then n * (8 / r) / 128 else 0)
    if o < len then (slot, s)
    else if s = 13 then symbolAfter f r n (slot + 1) 0 (o - len) else symbolAfter f r n slot (s + 1) (o - len)

/-- Repetition and antenna i of UL_PRACH_LONG: one cs16 tile of 70 groups (R225). -/
def Device.ulPrach (d : Device) (e : Nat) (j : FeJob) (i : Nat) : Device × Nat :=
  let w := wordAt j.cmd
  let na := bits (w 1) 22 16
  let r := i / na
  let a := i % na
  let carrier := bits (w 0) 13 8
  let slot := bits (w 1) 15 0
  let ti := tps (bits (w 2) 16 0 + bits (w 3) 16 0) (bits (w 0) 22 22)
  let entry := j.ants.getD a 0
  let port := bits entry 8 0
  let agc := bits entry 19 9
  let check := d.on FFE_CTRL_LABEL_CHECK
  let inT := (j.inList.drop (i * ti)).take ti
  match d.inTiles (feNode e) (fun h => check && (labelBad h carrier slot h.symbol port ||
      !(decide (bits (w 0) 17 14 ≤ h.symbol) && decide (h.symbol ≤ bits (w 0) 21 18)))) inT with
  | (d, ins, eras, bad) =>
    let d := if bad ≠ 0 then d.feCause e FFE_ENG_EV_CAUSE_LABEL else d
    let l := d.outLabels inT (eras != 0) carrier slot r port
    let inl := openWord l.2.1 l.1 r 0 l.2.2.2 false 0
    let t := j.praList.getD i 0
    let at_ := symbolAfter 128 (d.carrierR carrier) (nsize (bits (w 0) 7 4)) slot (bits (w 0) 17 14) (bits (w 2) 16 0 + r * bits (w 3) 16 0)
    let gain := if bit (w 0) 26 then gainCode (d.gainAt agc at_.1 at_.2) else 0
    let ps := [bits (w 2) 16 0, bits (w 3) 16 0, bits (w 4) 15 0, bits (w 0) 22 22, bits (w 0) 27 27, gain]
    let x := cs16Bytes ((List.range 1678).map (kint 4 ps ins.flatten))
    let d := if eras = 0 then d.putTile (feNode e) t inl (padTile x.1) 0 70 false false
      else d.putAis (feNode e) t inl eras 70
    let d := (d.count (FFE_ENG_CNT_ERASE_COUNT e) eras).bump (FFE_ENG_CNT_XFORM_COUNT e) 1
    (d.saturated e agc carrier slot (if eras = 0 then x.2 else 0), eras)

/-! ### Running a command (R213, R217) -/

/-- Entries of IN_LIST, OUT_LIST and PRACH_LIST of an uplink command (R212). -/
def Device.feLens (d : Device) (w : Nat → Nat) : Nat × Nat × Nat :=
  let na := bits (w 1) 22 16
  if bits (w 0) 3 0 = 2 then
    let nrep := bits (w 5) 2 0
    (na * nrep * tps (bits (w 2) 16 0 + bits (w 3) 16 0) (bits (w 0) 22 22), 0, na * nrep)
  else
    let syms := symbolsOf w
    (na * (syms.map (d.feTps w)).sum,
     na * (syms.map (fun s => ceilDiv (bits (w 4) 17 9)
        (fmtGroups (if bit (w 5) s then 0 else bits (w 0) 25 23)))).sum,
     na * (syms.filter (fun s => bit (bits (w 5) 29 16) s)).length)

/-- Antenna-symbols of a command, or repetitions of its antennas. -/
def feUnits (w : Nat → Nat) : Nat :=
  bits (w 1) 22 16 * (if bits (w 0) 3 0 = 2 then bits (w 5) 2 0 else (symbolsOf w).length)

/-- The lists of a command, when every fetch is answered OKAY. -/
def Device.feJob (d : Device) (cmd : List Byte) (n : Nat × Nat × Nat) : Option FeJob :=
  let w := wordAt cmd
  match d.fetch (addrOf cmd 8) (4 * bits (w 1) 22 16), d.tileList (addrOf cmd 10) n.1,
      d.tileList (addrOf cmd 12) n.2.1, d.tileList (addrOf cmd 14) n.2.2 with
  | some at_, some il, some ol, some pl => some ⟨cmd, wordsOf at_, il, ol, pl⟩
  | _, _, _, _ => none

/-- Runs units of a command from the one it stands at, at most as many as are given: the last one reports it; another
leaves it on the queue, to be run on or stopped (R217, R218). -/
def Device.feSome (d : Device) (e : Nat) (q : QCmd) (j : FeJob) (units most : Nat) (run : Device → Nat → Device × Nat) :
    Device :=
  let n := min most (units - q.done)
  let r := (List.range n).foldl (fun (a : Device × Nat) i =>
    let x := run a.1 (q.done + i)
    (x.1, a.2 + x.2)) (d, q.eras)
  if units ≤ q.done + n then r.1.report 1 e q.item 0 r.2
  else
    let x := r.1.engine (engKey 1 e)
    r.1.setEngine (engKey 1 e) { x with queue := x.queue.map (fun k => if k.item = q.item then { k with
      started := true, done := q.done + n, eras := r.2, cmd := j.cmd, lists := [j.ants, j.inList, j.outList, j.praList] } else k) }

/-- The front command of a Fourier engine when its OP is op or reserved: fetched and checked before anything of it is
run, then run. On a carrier of the frequency domain there is nothing for it to act on (R209). -/
def Device.feRun (d : Device) (e op most : Nat) (run : Device → FeJob → Nat → Device × Nat)
    (lens : Device → (Nat → Nat) → Nat × Nat × Nat) : Device :=
  match d.front 1 e with
  | none => d
  | some q =>
    if q.started then
      let j : FeJob := ⟨q.cmd, q.lists.getD 0 [], q.lists.getD 1 [], q.lists.getD 2 [], q.lists.getD 3 []⟩
      if bits (wordAt q.cmd 0) 3 0 = op then d.feSome e q j (feUnits (wordAt q.cmd)) most (fun d i => run d j i) else d
    else match d.command q.item with
    | none => d.feErr e q.item 5
    | some cmd =>
      let w := wordAt cmd
      let o := bits (w 0) 3 0
      let n := lens d w
      if o ≠ op && 1 ≤ o && o ≤ 3 then d
      else
        let d := d.asksCommand (feNode e) q.item
        if feCheck w ≠ 0 then d.feErr e q.item (feCheck w)
        else
          let d := d.reads (feNode e) [(addrOf cmd 8, 4 * bits (w 1) 22 16),
            (addrOf cmd 10, 2 * n.1), (addrOf cmd 12, 2 * n.2.1), (addrOf cmd 14, 2 * n.2.2)]
          match d.feJob cmd n with
          | none => d.feErr e q.item 5
          | some j =>
            if d.freqCarrier (bits (w 0) 13 8) then d.report 1 e q.item 0 0
            else d.feSome e q j (feUnits w) most (fun d i => run d j i)

/-! ### The digital AGC (R219 to R223) -/

/-- An integer divided by 2^k, rounded to nearest; a tie may go either way (log entry 4). -/
def Device.roundShift (d : Device) (v : Int) (k : Nat) : Int × Device :=
  let q := v / 2 ^ k
  let r := v % 2 ^ k
  if 2 * r < 2 ^ k then (q, d)
  else if 2 * r = 2 ^ k then
    match d.drawBool with
    | (b, d) => (if b then q + 1 else q, d)
  else (q + 1, d)

/-- The schedule mask of a carrier's slot as latched; every symbol when none was (R221). -/
def Device.schedMask (d : Device) (c slot : Nat) : Nat :=
  match (tabGet (fun _ => (0, 0)) d.sched (2 * c + slot % 2)) with
  | (s, m) => if s = slot % 65536 + 1 then m else 0x3FFF

/-- The latch of slot N's mask at the end of symbol 13 of slot N − 1, once for the carrier (R221). -/
def Device.schedLatch (d : Device) (c slot : Nat) : Device :=
  let b := slot % 2
  if (tabGet (fun _ => (0, 0)) d.sched (2 * c + b)).1 = slot % 65536 + 1 then d
  else
    let ok := d.on (FFE_SCHED_VALID c b) && d.get (FFE_SCHED_SLOT c b) == slot % 65536
    let d := if ok then d else d.bump FFE_CNT_SCHED_MISS_COUNT 1
    let v := (slot % 65536 + 1, if ok then d.get (FFE_SCHED_MASK c b) else 0x3FFF)
    { d with sched := tabSet (fun _ => (0, 0)) d.sched (2 * c + b) v }

/-- The step of an AGC entry that a CONTAINER section defines, at the end of symbol s of a slot with measured power p,
in quarter dB; AIS gives no measurement (R209, R219 to R223). -/
def Device.agcStep (d : Device) (q e c slot s : Nat) (p : Int) (ais : Bool) : Device :=
  if !d.on (FFE_AGC_STATE_VALID q e) then d
  else
    let d := if s = 13 then d.schedLatch c (slot + 1) else d
    let a := tabGet (fun _ => agc0) d.agc (512 * q + e)
    let next := if s = 13 then (slot + 1, 0) else (slot, s + 1)
    let was := d.get (FFE_AGC_STATE_MODE q e)
    let ended := a.prach == some (slot % 65536, s)
    let again := a.prach.isSome && !ended && !a.held && !a.rel
    let held := !ended && (a.held || again)
    let sched := bit (d.schedMask c next.1) next.2
    let g := toSigned 8 (d.get (FFE_AGC_STATE_GAIN q e))
    let fast : Int := d.get (FFE_AGC_CFG_FAST_MAX c)
    let err := toSigned 8 (d.get (FFE_AGC_CFG_TARGET c)) - (p + g)
    let r : Int × Device :=
      if ais || sched then (g, d)
      else if a.rel && !ended then (g + clampInt (-fast) fast err, d)
      else if held then (g, d)
      else
        let x := d.roundShift err (d.get (FFE_AGC_CFG_ALPHA_SHIFT c))
        (g + clampInt (-fast) fast x.1, x.2)
    let g := clampInt (-128) 127 r.1
    let d := (r.2.put (FFE_AGC_STATE_GAIN q e) (ofSigned 8 g)).put (FFE_AGC_STATE_MODE q e) (b2n sched + 2 * b2n held)
    let d := if again || (sched && was % 2 = 0) then d.put (FFE_AGC_STATE_CLIP q e) 0 else d
    { d with agc := tabSet (fun _ => agc0) d.agc (512 * q + e) { a with
        hist := (g :: a.hist).take 28, rel := false, prach := if ended then none else a.prach, held := held
        at_ := (slot % 65536, s) } }

/-- Sets an AGC entry's PRACH hold or a release, unless the occasion has passed its last symbol (R223, R231). -/
def Device.agcFire (d : Device) (k endSlot endSym : Nat) (release : Bool) : Device :=
  let a := tabGet (fun _ => agc0) d.agc k
  let past := isPast 16 endSlot a.at_.1 && (endSlot % 65536 ≠ a.at_.1 || decide (endSym ≤ a.at_.2)) && decide (1 < a.hist.length)
  if past || !d.on (FFE_AGC_STATE_VALID (k / 512) (k % 512)) then d
  else if release then d.agcRelease k
  else
    let m := d.get (FFE_AGC_STATE_MODE (k / 512) (k % 512))
    (({ d with agc := tabSet (fun _ => agc0) d.agc k { a with prach := some (endSlot % 65536, endSym), held := true } }).put
      (FFE_AGC_STATE_MODE (k / 512) (k % 512)) (m % 2 + 2)).put (FFE_AGC_STATE_CLIP (k / 512) (k % 512)) 0

/-! ### Meanings -/

/-- UL_FFT: n antenna-symbols more of the front command (R214). -/
def execUlFft (e : Fin 32) (n : Nat) (s : State) : Host.Outcome State Fault Refusal :=
  s.run (fun d => d.feRun e.val 1 n (fun d j => d.ulFft e.val j) Device.feLens)

/-- UL_PRACH_LONG: n repetitions of its antennas more of the front command (R225). -/
def execUlPrachLong (e : Fin 32) (n : Nat) (s : State) : Host.Outcome State Fault Refusal :=
  s.run (fun d => d.feRun e.val 2 n (fun d j => d.ulPrach e.val j) Device.feLens)

end Sys2Proof.Machine
end

