-- ==== Sys2Proof/Machine/Preamble.lean ====
section
/-! DEFINITION. The preamble engines: occasions, accumulation, correlation, the trigger pipe and the reports (R226 to
R239). Products and powers whose rounding the spec leaves open are kernels (log entry 11). -/

namespace Sys2Proof.Machine
open R

/-! ### Formats and commands (R226, R227) -/

/-- NREP, the antenna limit, the sequence length L and the correlation size Nc of a FORMAT (R226). -/
def preNrep (f : Nat) : Nat := [1, 2, 4, 4, 2, 4, 6, 2, 4, 6, 12, 1, 4].getD f 0
def preAnts (f : Nat) : Nat := if f < 4 then 64 else 256
def preL (f : Nat) : Nat := if f < 4 then 839 else 139
def preNc (f : Nat) : Nat := if f < 4 then 1024 else 256

/-- The tick number nearest the current one with given low w bits. -/
def nearTick (w : Nat) (cur : Int) (low : Nat) : Int := cur + toSigned w (ofSigned w (low - cur))

/-- TICK at the start of a carrier's slot: N × r + F (R53). -/
def Device.slotStart (d : Device) (carrier low : Nat) : Nat :=
  let r := d.carrierR carrier
  ((nearTick 32 (d.carrierTickI r) low * r + d.frameF) % 2 ^ 64).toNat

/-- A preamble command's checks (R226, R227): true when it fails. -/
def preBad (w : Nat → Nat) : Bool :=
  let f := bits (w 0) 3 0
  12 < f || bits (w 0) 13 10 ≠ preNrep f || bits (w 0) 24 16 = 0 || preAnts f < bits (w 0) 24 16 ||
    64 < (bits (w 2) 5 0 + 1) * (bits (w 2) 11 6 + 1) || 8 < bits (w 4) 23 20

/-- A cause of a preamble engine (R238). -/
def Device.preCause (d : Device) (p : Nat) (f : Nat → Fld) : Device := d.cause (f p) (345 + 2 * p)

/-! ### Accumulation (R228) -/

/-- Sequence subcarrier i of a cs16 tile whose sequence begins at subcarrier k. -/
def tileRe (bs : List Byte) (k i : Nat) : Int × Int :=
  let w := wordAt bs (k + i)
  (toSigned 16 w, toSigned 16 (w / 2 ^ 16))

/-- A sum scaled by the ratio of two gains; the result's rounding is open (log entry 11). -/
def rescale (was now : Int) (v : Int × Int) : Int × Int :=
  let k := fun (x : Int) i => toSigned 48 (Config.kernel 5 [ofSigned 8 was, ofSigned 8 now, ofSigned 48 x] [] i)
  (k v.1 0, k v.2 1)

/-- One repetition of an antenna added, coherently or by power. -/
def addRe (ncoh : Bool) (a x : Int × Int) : Int × Int :=
  if ncoh then (a.1 + (x.1 * x.1 + x.2 * x.2), a.2) else (a.1 + x.1, a.2 + x.2)

/-- A repetition's tile taken at a gain: the sum brought to that gain first. An erased tile is left out (R136). -/
def AntSum.take (a : AntSum) (len k : Nat) (ncoh : Bool) (gain : Option Int) (tile : Option (List Byte)) : AntSum :=
  match tile with
  | none => a
  | some bs =>
    let old := match a.gain, gain with
      | some g, some h => if g = h then a.vals else a.vals.map (rescale g h)
      | _, _ => a.vals
    let xs := (List.range len).map (tileRe bs k)
    ⟨a.reps + 1, gain, if old.isEmpty then xs.map (addRe ncoh (0, 0)) else (old.zip xs).map (fun p => addRe ncoh p.1 p.2)⟩

/-- The gain in the history at which a repetition's tile was written: of the symbol its labels name, or, of a long
format, of the symbol in which the repetition begins, which its labels do not tell (log entry 50). -/
def Device.repGain (d : Device) (f agc t : Nat) : Option Int × Device :=
  let h := d.tile t
  if 4 ≤ f then (d.gainAt agc h.slot h.symbol, d)
  else match d.draw 5 with
    | (n, d) => ((tabGet (fun _ => agc0) d.agc agc).hist[n]?, d)

/-! ### Correlation (R229, R230) -/

/-- Parameters of an occasion's correlation from a command. -/
structure PreCorr where
  len : Nat
  nc : Nat
  roots : List Nat
  per : Nat
  ncs : Nat
  /-- A bin's length in units of 16 Tc. -/
  bin : Nat

/-- Length of a correlation bin in units of 16 Tc (1 / 122.88 MHz): 1 / (spacing × Nc), with the spacing of R226. -/
def Device.preCorr (d : Device) (o : Occasion) : PreCorr :=
  let w := wordAt o.cmd
  let f := bits (w 0) 3 0
  ⟨preL f, preNc f, o.roots, bits (w 2) 11 6 + 1, bits (w 2) 21 12,
    if f < 3 then 96 else if f = 3 then 24 else 4 * d.carrierR (bits (w 0) 9 4)⟩

/-- The power of a correlation bin of a root, added over the antennas' sums: each multiplied by the conjugate of the
root's sequence and transformed (log entry 11). -/
def binPower (c : PreCorr) (ncoh : Bool) (acc : List AntSum) (u b : Nat) : Nat :=
  (acc.map (fun a => if a.vals.isEmpty then 0 else
    Config.kernel 6 ([c.len, c.nc, b2n ncoh, u, b] ++ a.vals.flatMap (fun v => [ofSigned 64 v.1, ofSigned 64 v.2])) [] 0)).sum

/-- The bins of cyclic shift v: from v × NCS × Nc / L up to (v + 1) × NCS × Nc / L; with NCS 0, all of them for the one
preamble of the root. -/
def window (c : PreCorr) (v : Nat) : List Nat :=
  if c.ncs = 0 then (if v = 0 then List.range c.nc else [])
  else (List.range c.nc).filter (fun b => decide (v * c.ncs * c.nc ≤ b * c.len) && decide (b * c.len < (v + 1) * c.ncs * c.nc))

/-- Inserts a bin among bins in falling order of power. -/
def insertBin (x : Nat × Nat) : List (Nat × Nat) → List (Nat × Nat)
  | [] => [x]
  | y :: t => if y.2 < x.2 then x :: y :: t else y :: insertBin x t

/-- The three strongest bins of a window, with their powers, the strongest first. -/
def strongest (ps : List (Nat × Nat)) : List (Nat × Nat) := (ps.foldl (fun l x => insertBin x l) []).take 3

/-- The noise: the sum of the bins that remain over all roots when the three strongest of each window are left out, and
how many they are; its mean is the noise. -/
def noiseOf (c : PreCorr) (pow : Nat → Nat → Nat) : Nat × Nat :=
  let left := c.roots.flatMap (fun u =>
    let out := (List.range c.per).flatMap (fun v => (strongest ((window c v).map (fun b => (b, pow u b)))).map (·.1))
    ((List.range c.nc).filter (fun b => !out.contains b)).map (pow u))
  (left.sum, left.length)

/-- A peak's delay: its position in the window, moved by the parabola through the bin and its two neighbours, in units of
16 Tc. Its rounding is open, as is the result where the parabola has no top or lies before the window. -/
def delayOf (c : PreCorr) (pow : Nat → Nat) (v b : Nat) : Nat :=
  let lo : Int := pow ((b + c.nc - 1) % c.nc)
  let hi : Int := pow ((b + 1) % c.nc)
  let den := 2 * (2 * (pow b : Int) - lo - hi)
  let num := (((b * c.len : Nat) - (v * c.ncs * c.nc : Nat) : Int) * den + c.len * (hi - lo)) * c.bin
  let k := fun i => Config.kernel 7 [c.len, c.nc, c.bin, v, b, lo.toNat, pow b, hi.toNat] [] i
  if den ≤ 0 || num < 0 then k 0 % (max 1 (window c v).length * c.bin)
  else
    let q := (num / (c.len * den)).toNat
    if num % (c.len * den) = 0 then q else q + k 1 % 2

/-- The peaks of a correlation over some antennas' sums, one for each window that has bins: its strongest bin (among equals,
whichever), its metric, the power over the noise in dB, and its delay. -/
def peaksOf (c : PreCorr) (ncoh : Bool) (acc : List AntSum) : List Peak :=
  let pow := binPower c ncoh acc
  let noise := noiseOf c pow
  (List.range (c.roots.length * c.per)).filterMap (fun k =>
    let u := c.roots.getD (k / c.per) 0
    let v := k % c.per
    let ps := (window c v).map (fun b => (b, pow u b))
    match strongest ps with
    | [] => none
    | (_, top) :: _ =>
      let best := (ps.filter (fun x => x.2 == top)).map (·.1)
      let b := best.getD (Config.kernel 8 (u :: best) [] 0 % best.length) 0
      some ⟨k, delayOf c (pow u) v b % 2 ^ 20, Config.kernel 9 [top, noise.1, noise.2] [] 0 % 65536⟩)

/-- The peaks of an occasion's first n antennas; none while no tile of them has been added. -/
def Device.prePeaks (d : Device) (o : Occasion) (n : Nat) : List Peak :=
  let acc := o.acc.take n
  if acc.any (fun a => a.reps != 0) then peaksOf (d.preCorr o) (bit (wordAt o.cmd 0) 14) acc else []

/-! ### Reports (R235, R236) -/

/-- The occasion record (R235). -/
def Device.occRecord (d : Device) (o : Occasion) (ndet status noise : Nat) : List Byte :=
  let w := wordAt o.cmd
  leBytes 4 (1 + 16 * bits (w 0) 9 4 + 2 ^ 16 * min ndet 64 + 2 ^ 23 * status) ++ leBytes 4 (w 1) ++
  leBytes 4 (bits (w 5) 15 0 + 2 ^ 16 * min o.eras 65535) ++
  leBytes 4 (noise % 65536 + 2 ^ 16 * min o.sup.length 255 + 2 ^ 24 * min o.clipRel 255) ++
  leBytes 8 (d.slotStart (bits (w 0) 9 4) (w 1)) ++ leBytes 8 (d.time.tick % 2 ^ 32)

/-- The detection record of a peak (R235). -/
def detRecord (o : Occasion) (k : Peak) (ants power : Nat) : List Byte :=
  let npre := bits (wordAt o.cmd 2) 11 6 + 1
  leBytes 4 (2 + 16 * k.pre + 2 ^ 10 * (k.pre / npre) + 2 ^ 16 * (k.metric % 65536)) ++
  leBytes 4 (k.delay % 2 ^ 20) ++ leBytes 4 (power % 65536 + 2 ^ 16 * (ants % 512)) ++
  leBytes 4 (b2n (o.det.any (fun x => x.pre == k.pre))) ++ leBytes 16 0

/-- Writes records in turn to a preamble ring. -/
def Device.preWrite (d : Device) (p : Nat) (rs : List (List Byte)) : Device :=
  let base := d.addr48 (PRE_RING_BASE_LO_ADDR p) (PRE_RING_BASE_HI_ADDR p)
  let size := max 2 (d.get (PRE_RING_SIZE_SIZE p))
  rs.foldl (fun d r =>
    match d.ringPut base size (d.get (PRE_RING_WR_WR p)) (d.get (PRE_RING_RD_RD p)) r with
    | some (d', wr) => (d'.asks (peNode p) (base + r.length * d.get (PRE_RING_WR_WR p)) r.length true).put (PRE_RING_WR_WR p) wr
    | none => d) d

/-- The noise of an occasion and the power of a preamble in dBFS, with the gains removed (log entry 11). -/
def Device.preNoise (d : Device) (o : Occasion) : Nat :=
  let n := noiseOf (d.preCorr o) (binPower (d.preCorr o) (bit (wordAt o.cmd 0) 14) o.acc)
  Config.kernel 38 ([n.1, n.2] ++ o.acc.map (fun a => gainCode a.gain)) [] 0
def prePower (o : Occasion) (k : Nat) : Nat :=
  Config.kernel 39 (k :: (wordsOf o.cmd ++ o.acc.flatMap (fun a =>
    gainCode a.gain :: a.vals.flatMap (fun v => [ofSigned 64 v.1, ofSigned 64 v.2])))) [] 0

/-- The report of an occasion: its records as far as the ring has room, and REPORT (R235, R236, R238). -/
def Device.preReport (d : Device) (p : Nat) (o : Occasion) (dets : List Peak) (status : Nat) : Device :=
  let size := max 2 (d.get (PRE_RING_SIZE_SIZE p))
  let room := ringRoom size (d.get (PRE_RING_WR_WR p)) (d.get (PRE_RING_RD_RD p) % size)
  let noise := d.preNoise o
  let ants := (o.acc.filter (fun a => a.reps != 0)).length
  let d := d.count (PRE_CNT_OCC_COUNT p) 1
  let d :=
    if room < 1 + dets.length then
      let d := (d.count (PRE_CNT_DROP_COUNT p) 1).preCause p PRE_EV_CAUSE_OVERFLOW
      if room = 0 then d else d.preWrite p [d.occRecord o dets.length 4 noise]
    else (d.count (PRE_CNT_DET_COUNT p) dets.length).preWrite p (d.occRecord o dets.length status noise ::
      dets.map (fun k => detRecord o k ants (prePower o k.pre)))
  if dets ≠ [] || status ≠ 0 || room < 1 || d.on (PRE_CTRL_EV_ALL p) then d.cause (PRE_EV_CAUSE_REPORT p) (344 + 2 * p)
  else d

/-! ### Holds (R220, R231, R232) -/

/-- Antenna table entries of an occasion. -/
def Device.preTable (d : Device) (o : Occasion) : List Nat :=
  ((d.fetch (addrOf o.cmd 8) (4 * bits (wordAt o.cmd 0) 24 16)).map wordsOf).getD []

/-- Releases the PRACH holds an occasion set. -/
def Device.dropHolds (d : Device) (o : Occasion) : Device :=
  if o.det.isNone then d
  else (d.preTable o).foldl (fun d w =>
    let k := bits w 19 9
    let a := tabGet (fun _ => agc0) d.agc k
    let m := d.get (FFE_AGC_STATE_MODE (k / 512) (k % 512))
    if a.prach.isNone then d
    else ({ d with agc := tabSet (fun _ => agc0) d.agc k { a with prach := none, held := false, rel := false } }).put
      (FFE_AGC_STATE_MODE (k / 512) (k % 512)) (m % 2)) d

/-- The PRACH hold, or a release, in the entry of every antenna of an occasion's table. -/
def Device.fireAll (d : Device) (o : Occasion) (release : Bool) : Device :=
  let w := wordAt o.cmd
  (d.preTable o).foldl (fun d e =>
    d.agcFire (bits e 19 9) (bits (w 1) 15 0 + bits (w 5) 26 24) (bits (w 5) 23 20) release) d

/-- Ends every occasion of an engine that a predicate picks, with a status, and reports the items (R237). -/
def Device.preEnd (d : Device) (p : Nat) (pick : Nat → Bool) (status fin : Nat) : Device :=
  let l := tabGet (fun _ => []) d.occs p
  let d := (l.filter (fun o => pick o.item)).foldl (fun d o =>
    (((d.dropHolds o).preReport p { o with det := none } [] status).report 3 p o.item fin 0)) d
  { d with occs := tabSet (fun _ => []) d.occs p (l.filter (fun o => !pick o.item)) }

/-- An occasion that has not begun: an accumulator for each antenna. -/
def occ0 (item : Nat) (cmd : List Byte) : Occasion :=
  ⟨item, cmd, [], List.replicate (bits (wordAt cmd 0) 24 16) ⟨0, none, []⟩, 0, 0, 0, none, [], 0⟩

/-- A trigger evaluation over the trigger antennas: the first window at the threshold fires, or a stronger distant peak
supersedes D (R231, R232). -/
def Device.trigger (d : Device) (p : Nat) (o : Occasion) : Device × Occasion :=
  let w := wordAt o.cmd
  let o := { o with trigAt := o.reps }
  let ks := d.prePeaks o (bits (w 4) 23 20)
  match o.det with
  | none =>
    match ks.find? (fun k => bits (w 3) 31 16 ≤ k.metric) with
    | none => (d, o)
    | some k => (d.fireAll o false, { o with det := some k })
  | some x =>
    let guard := bits (w 4) 15 8 * (d.preCorr o).bin
    let far := fun (k : Peak) => decide (guard < (if x.delay ≤ k.delay then k.delay - x.delay else x.delay - k.delay))
    match ks.find? (fun k => far k && decide (x.metric + 16 * bits (w 4) 7 0 ≤ k.metric)) with
    | none => (d, o)
    | some k =>
      (((d.fireAll o true).count (PRE_CNT_SUP_COUNT p) 1).preCause p PRE_EV_CAUSE_SUPERSEDED,
        { o with det := some k, sup := o.sup ++ [x.pre] })

/-- Replaces an engine's occasion of an item. -/
def Device.setOcc (d : Device) (p : Nat) (o : Occasion) : Device :=
  let l := (tabGet (fun _ => []) d.occs p).map (fun x => if x.item = o.item then o else x)
  { d with occs := tabSet (fun _ => []) d.occs p l }

/-! ### Meanings -/

/-- PRE_OCCASION: the next queued occasion takes a free accumulator, or fails its checks (R227). -/
def execPreOccasion (p : Fin 4) (s : State) : Host.Outcome State Fault Refusal :=
  s.run (fun d =>
    let l := tabGet (fun _ => []) d.occs p.val
    let fail := fun (d : Device) (item : Nat) (cmd : List Byte) =>
      ((d.preReport p.val (occ0 item cmd) [] 2).preCause p.val PRE_EV_CAUSE_CMD_ERR).report 3 p.val item 4 0
    match (d.engine (engKey 3 p.val)).queue.find? (fun q => !q.expired && !q.started) with
    | none => d
    | some q =>
      match d.command q.item with
      | none => fail d q.item zeroTile
      | some cmd =>
        let w := wordAt cmd
        if preBad w || (d.fetch (addrOf cmd 8) (4 * bits (w 0) 24 16)).isNone ||
            (d.tileList (addrOf cmd 10) (bits (w 0) 13 10 * bits (w 0) 24 16)).isNone then fail d q.item cmd
        else match d.tileList (addrOf cmd 12) (bits (w 2) 5 0 + 1) with
          | none => fail d q.item cmd
          | some roots =>
            if 2 ≤ l.length then d
            else
              let x := d.engine (engKey 3 p.val)
              let d := (d.asksCommand (peNode p.val) q.item).reads (peNode p.val) [(addrOf cmd 8, 4 * bits (w 0) 24 16),
                (addrOf cmd 12, 2 * (bits (w 2) 5 0 + 1))]
              let d := d.setEngine (engKey 3 p.val) { x with
                queue := x.queue.map (fun r => if r.item = q.item then { r with started := true } else r) }
              { d with occs := tabSet (fun _ => []) d.occs p.val (l ++ [{ occ0 q.item cmd with roots := roots }]) })

/-- One repetition's tiles, by antenna, read and added. -/
def Device.accumulate (d : Device) (p : Nat) (o : Occasion) (ts : List Nat) : Device × Occasion :=
  let w := wordAt o.cmd
  let f := bits (w 0) 3 0
  let tab := d.preTable o
  ts.zipIdx.foldl (fun (a : Device × Occasion) t =>
    let x := a.1.engineRead t.1 (peNode p)
    let g := x.1.repGain f (bits (tab.getD t.2 0) 19 9) t.1
    let s := (a.2.acc.getD t.2 ⟨0, none, []⟩).take (preL f) (bits (w 5) 19 16) (bit (w 0) 14) g.1 x.2
    (g.2, { a.2 with acc := a.2.acc.set t.2 s, eras := a.2.eras + b2n x.2.isNone })) (d, { o with reps := o.reps + 1 })

/-- REPETITION_ACCUMULATE: the next repetition of the oldest occasion still accumulating (R228). -/
def execRepetitionAccumulate (p : Fin 4) (s : State) : Host.Outcome State Fault Refusal :=
  s.run (fun d =>
    match (tabGet (fun _ => []) d.occs p.val).find? (fun o => o.reps < bits (wordAt o.cmd 0) 13 10) with
    | none => d
    | some o =>
      let na := bits (wordAt o.cmd 0) 24 16
      match d.tileList (addrOf o.cmd 10 + 2 * o.reps * na) na with
      | none => d.setOcc p.val { o with reps := o.reps + 1, eras := o.eras + na }
      | some ts =>
        let r := (d.asks (peNode p.val) (addrOf o.cmd 10 + 2 * o.reps * na) (2 * na) false).accumulate p.val o ts
        r.1.setOcc p.val r.2)

/-- TRIGGER_EVALUATION, due after every TRIG_EVERY repetitions (R231). -/
def execTriggerEvaluation (p : Fin 4) (s : State) : Host.Outcome State Fault Refusal :=
  s.run (fun d =>
    match (tabGet (fun _ => []) d.occs p.val).find? (fun o =>
        let ev := bits (wordAt o.cmd 4) 19 16
        ev ≠ 0 && o.reps % ev = 0 && decide (o.trigAt < o.reps)) with
    | none => d
    | some o => match d.trigger p.val o with
      | (d, o) => d.setOcc p.val o)

/-- FINAL_CORRELATION of the oldest occasion, all of whose repetitions are in (R234, R235). -/
def execFinalCorrelation (p : Fin 4) (s : State) : Host.Outcome State Fault Refusal :=
  s.run (fun d =>
    match tabGet (fun _ => []) d.occs p.val with
    | [] => d
    | o :: t =>
      if o.reps < bits (wordAt o.cmd 0) 13 10 then d
      else
        let ks := (d.prePeaks o o.acc.length).filter (fun k => bits (wordAt o.cmd 3) 15 0 ≤ k.metric && !o.sup.contains k.pre)
        let d := (d.preReport p.val o ks 0).report 3 p.val o.item 0 o.eras
        { d with occs := tabSet (fun _ => []) d.occs p.val t })

end Sys2Proof.Machine
end

