-- ==== Sys2Proof/Machine/Matrix.lean ====
section
/-! DEFINITION. The matrix engines' uplink commands: entries and their checks, estimation, combining, sounding and records
(R240 to R265). What the spec gives by a formula without a rounding is a kernel of that formula's own inputs (log entry 11);
the mappings of the 3GPP clauses it names are log entry 52's. -/

namespace Sys2Proof.Machine
open R

/-! ### What commands share -/

/-- Sets a cause of a matrix engine; every bit but REPORT raises the second event (R272). -/
def Device.meCause (d : Device) (m : Nat) (f : Nat → Fld) : Device := d.cause (f m) (305 + 4 * m)
def Device.loopCause (d : Device) (m : Nat) (f : Nat → Fld) : Device := d.cause (f m) (306 + 4 * m)
def Device.dlCause (d : Device) (m : Nat) (f : Nat → Fld) : Device := d.cause (f m) (307 + 4 * m)

/-- Posts a doorbell to a node. -/
def Device.bell (d : Device) (dest src inl : Nat) : Device :=
  match d.posts src dest with
  | (d, true) => { d with bells := d.bells ++ [(dest, src, inl)] }
  | (d, false) => d

/-- The FEC group the CHAIN section of a panel names; the quadrant of its lowest cluster without one
(log entry 10). -/
def Device.chainGroup (d : Device) (p : Nat) : Nat :=
  match d.section? 0x30 p with
  | some s => Config.chainGroup s.payload % 4
  | none => match d.panelLcs p with
    | [] => 0
    | l :: _ => l / 5

/-- INLINE of an OPEN with labels the spec does not fix left free (log entry 4). -/
def Device.loose (d : Device) (slot carrier fmt : Nat) (symbol port first : Option Nat) (kind : Option Bool) :
    Nat × Device :=
  match d.draw 30 with
  | (v, d) => (openWord slot carrier (symbol.getD v) fmt (port.getD (v / 16)) (kind.getD (bit v 13))
      (first.getD (v / 2 ^ 14)), d)

/-- Bits per symbol of QM (R243, R313). -/
def qmBits (q : Nat) : Nat := [1, 2, 4, 6, 8, 10].getD q 1

/-- E_r of code block r: the bit selection lengths of TS 38.212 clause 5.4.2.1 and TS 36.212 clause
5.1.4.1.2, which R255 names. -/
def blockE (g c qm nl r : Nat) : Nat :=
  let u := nl * qm
  let t := g / u
  if c = 0 || u = 0 then 0 else if r + t % c < c then u * (t / c) else u * ceilDiv t c

/-- Tiles of LLRs, and the index of block r's first tile in LLR_LIST (R255). -/
def llrTiles (n : Nat) : Nat := ceilDiv n 4096
def blockOfs (g c qm nl r : Nat) : Nat := ((List.range r).map (fun i => llrTiles (blockE g c qm nl i))).sum

/-! ### Commands and entries (R241 to R245, R261) -/

/-- What an uplink command works with once it is fetched. -/
structure MeJob where
  cmd : List Byte
  ants : List Nat
  inList : List Nat
  tab : List Byte

def MeJob.w (j : MeJob) (i : Nat) : Nat := wordAt j.cmd i
def MeJob.ent (j : MeJob) (i : Nat) : List Byte := (j.tab.drop (64 * i)).take 64
def MeJob.ents (j : MeJob) : List (List Byte) := (List.range (bits (j.w 0) 18 13)).map j.ent

/-- FORMAT of the tiles of a symbol. -/
def meFmt (w : Nat → Nat) (s : Nat) : Nat := if bit (w 2) s then 0 else bits (w 0) 29 27

/-- NUMER 4 (R241). -/
def isLte (w : Nat → Nat) : Bool := bits (w 0) 12 10 == 4

/-- The places of IN_LIST: symbol, antenna, tile (R242). -/
def mePos (w : Nat → Nat) : List (Nat × Nat × Nat) :=
  ((List.range 14).filter (bit (w 3))).flatMap (fun s =>
    (List.range (bits (w 0) 26 19)).flatMap (fun a =>
      (List.range (ceilDiv (bits (w 2) 31 23) (fmtGroups (meFmt w s)))).map (fun i => (s, a, i))))

/-- Fields of an entry. -/
def eNl (e : Nat → Nat) : Nat := bits (e 0) 25 24 + 1
def ePrb0 (e : Nat → Nat) : Nat := bits (e 1) 8 0
def ePrbs (e : Nat → Nat) : Nat := bits (e 1) 17 9
def eSym0 (e : Nat → Nat) : Nat := bits (e 1) 21 18
def eSym1 (e : Nat → Nat) : Nat := bits (e 1) 25 22
def eGrp (e : Nat → Nat) : Nat := 2 ^ bits (e 1) 28 26
def eMode (e : Nat → Nat) : Nat := bits (e 0) 19 18
def eTp (e : Nat → Nat) : Bool := bit (e 0) 17
def eQm (e : Nat → Nat) : Nat := qmBits (bits (e 0) 23 21)
def eCb (e : Nat → Nat) : Nat := bits (e 4) 31 24
def eE (e : Nat → Nat) (r : Nat) : Nat := blockE (bits (e 4) 23 0) (eCb e) (eQm e) (eNl e) r
/-- Tiles of an entry's LLR_LIST, and the bits of its UCI streams (R255). -/
def eLlrTiles (e : Nat → Nat) : Nat := ((List.range (eCb e)).map (fun r => llrTiles (eE e r))).sum
def eUci (e : Nat → Nat) : List Nat := [bits (e 5) 15 0, bits (e 5) 31 16, bits (e 6) 15 0]

/-- Whether a symbol lies in the second hop of intra-slot hopping: the later half of the entry's symbols (R243). -/
def eHop2 (e : Nat → Nat) (s : Nat) : Bool := bit (e 6) 23 && decide (eSym0 e + (eSym1 e + 1 - eSym0 e) / 2 ≤ s)

/-- First PRB of an entry in a symbol. -/
def ePrbAt (e : Nat → Nat) (s : Nat) : Nat := if eHop2 e s then bits (e 7) 8 0 else ePrb0 e

/-- Whether an entry covers a PRB in a symbol. -/
def eCovers (e : Nat → Nat) (p s : Nat) : Bool :=
  decide (eSym0 e ≤ s) && decide (s ≤ eSym1 e) && decide (ePrbAt e s ≤ p) && decide (p < ePrbAt e s + ePrbs e)

/-- Subcarrier k of a PRB of a DMRS symbol lies in a CDM group without data: groups of type 1 take every second subcarrier,
of type 2 every third pair (log entry 52). -/
def dmrsHole (e : Nat → Nat) (k : Nat) : Bool :=
  decide ((if bit (e 2) 14 then k % 6 / 2 else k % 2) < bits (e 2) 29 28)

/-- The symbols that carry data: every symbol of the entry but DMRS symbols with no subcarrier left for data. -/
def dataSyms (lte : Bool) (e : Nat → Nat) : List Nat :=
  let full := lte || (List.range 12).all (dmrsHole e)
  (List.range 14).filter (fun s => decide (eSym0 e ≤ s) && decide (s ≤ eSym1 e) && !(full && bit (e 2) s))

/-- The first two of a list together, then the next two. -/
def pairUp : List Nat → List (List Nat)
  | a :: b :: t => [a, b] :: pairUp t
  | [a] => [[a]]
  | [] => []

/-- The DMRS occasions: single symbols, or the pairs of double-symbol DMRS (R248). -/
def occList (e : Nat → Nat) : List (List Nat) :=
  let ms := (List.range 14).filter (bit (e 2))
  if bit (e 2) 15 then pairUp ms else ms.map (fun s => [s])

/-- Symbols between a symbol and an occasion. -/
def occDist (s : Nat) (o : List Nat) : Nat := o.foldl (fun m t => min m ((s - t) + (t - s))) 14

/-- The occasion a data symbol uses: the nearest of its hop, the earlier of two as near (R248). -/
def occAt (e : Nat → Nat) (s : Nat) : Nat :=
  let os := occList e
  let mine := (List.range os.length).filter (fun i => eHop2 e ((os.getD i []).headD 0) == eHop2 e s)
  (mine.foldl (fun (b : Option Nat) i => match b with
    | none => some i
    | some k => if occDist s (os.getD i []) < occDist s (os.getD k []) then some i else b) none).getD 0

/-- The symbols an entry needs in IN_LIST under an OP. -/
def needSyms (op : Nat) (lte : Bool) (e : Nat → Nat) : List Nat :=
  match op with
  | 1 => (List.range 14).filter (bit (e 2))
  | 2 => dataSyms lte e
  | _ => (List.range (2 ^ bits (e 1) 23 22)).map (eSym0 e + ·)

/-- Only the factors 2, 3 and 5. -/
def smooth5 (n : Nat) : Bool :=
  let strip := fun p n => (List.range 12).foldl (fun n _ => if n % p = 0 then n / p else n) n
  strip 5 (strip 3 (strip 2 n)) == 1

/-- PRBs of a carrier: the CARRIER section's, at most 275 (log entry 10). -/
def Device.prbLimit (d : Device) (c : Nat) : Nat :=
  match d.section? 0x50 c with
  | some s => min 275 (Config.carrierPrbs s.payload % 276)
  | none => 275

/-- A PRB range is empty, beyond the carrier or beyond the input tiles. -/
def rangeBad (lim : Nat) (w : Nat → Nat) (first n : Nat) : Bool :=
  n == 0 || lim < first + n || first < bits (w 2) 22 14 || bits (w 2) 22 14 + bits (w 2) 31 23 < first + n

/-- BAD_ENTRY for a PUSCH entry. -/
def puschBad (lim : Nat) (w e : Nat → Nat) : Bool :=
  bit (e 0) 16 || eMode e == 3 || 4 < bits (e 0) 23 21 || bits (e 0) 31 28 != 0 || rangeBad lim w (ePrb0 e) (ePrbs e) ||
    bit (e 6) 23 && rangeBad lim w (bits (e 7) 8 0) (ePrbs e) ||
    eSym1 e < eSym0 e || 13 < eSym1 e || 4 < bits (e 1) 28 26 || bits (e 1) 31 29 != 0 ||
    (if isLte w then bits (e 3) 15 6 != 0
      else bit (e 2) 31 || bits (e 2) 29 28 == 0 || popcount 12 (bits (e 2) 27 16) != eNl e) ||
    bits (e 3) 31 26 != 0 || eCb e == 0 || bits (e 6) 19 18 == 3 || bits (e 6) 31 24 != 0 || bits (e 7) 31 9 != 0

/-- BAD_ENTRY for an SRS entry. -/
def srsBad (lim : Nat) (w e : Nat → Nat) : Bool :=
  !bit (e 0) 16 || bits (e 0) 31 17 != 0 || ePrbs e % 4 != 0 || rangeBad lim w (ePrb0 e) (ePrbs e) ||
    bits (e 1) 23 22 == 3 || 14 < eSym0 e + 2 ^ bits (e 1) 23 22 || bits (e 1) 25 24 == 3 ||
    bits (e 1) 31 29 != 0 || 11 < bits (e 2) 13 10 || bits (e 2) 15 14 == 3 || bits (e 2) 17 16 == 3 ||
    bits (e 2) 31 18 != 0 || [3, 4, 5, 6, 7, 10, 11, 12, 13, 14, 15].any (fun i => e i != 0)

/-- Whether two PUSCH entries overlap: in some symbol of both their PRB ranges meet (R244). -/
def overlap (a b : Nat → Nat) : Bool :=
  (List.range 14).any (fun s => decide (eSym0 a ≤ s) && decide (s ≤ eSym1 a) && decide (eSym0 b ≤ s) && decide (s ≤ eSym1 b) &&
    decide (ePrbAt a s < ePrbAt b s + ePrbs b) && decide (ePrbAt b s < ePrbAt a s + ePrbs a))

/-- Rules 1, 2 and 5 of R244 for two overlapping entries. -/
def setBad (a b : Nat → Nat) : Bool :=
  bits (a 1) 28 18 != bits (b 1) 28 18 || bits (a 2) 15 0 != bits (b 2) 15 0 || eMode a != eMode b || eTp a || eTp b

/-- Layers on PRB p and symbol s. -/
def layersAt (es : List (Nat → Nat)) (p s : Nat) : Nat := ((es.filter (fun e => eCovers e p s)).map eNl).sum

/-- The largest count of layers on a resource element of an entry. -/
def maxLayers (es : List (Nat → Nat)) (e : Nat → Nat) : Nat :=
  ((List.range 14).filter (fun s => decide (eSym0 e ≤ s) && decide (s ≤ eSym1 e))).foldl (fun m s =>
    (List.range (ePrbs e)).foldl (fun m p => max m (layersAt es (ePrbAt e s + p) s)) m) 0

/-- The co-scheduled set of an entry, by index: everything joined to it by overlaps. -/
def coSet (es : List (Nat → Nat)) (e : Nat → Nat) : List Nat :=
  (List.range 32).foldl (fun (hit : List Nat) _ =>
      (List.range es.length).filter (fun i => hit.contains i ||
        hit.any (fun k => overlap (es.getD k e) (es.getD i e))))
    ((List.range es.length).filter (fun i => overlap (es.getD i e) e))

/-- The largest count of layers on a resource element of an entry's set: Lt (R250). -/
def setLayers (es : List (Nat → Nat)) (e : Nat → Nat) : Nat :=
  (coSet es e).foldl (fun m i => max m (maxLayers es (es.getD i e))) 0

/-- Rule 4 of R244 fails for entry e among entries: a port used by more than three overlapping
entries, or by two with equal DMRS_NID and NSCID. -/
def portBad (es : List (Nat → Nat)) (i : Nat) : Bool :=
  let e := es.getD i (fun _ => 0)
  let others := (es.zipIdx.filter (fun q => q.2 != i && overlap q.1 e)).map (·.1)
  (List.range 12).any (fun p => bit (bits (e 2) 27 16) p &&
    (let us := others.filter (fun o => bit (bits (o 2) 27 16) p)
     decide (3 < us.length + 1) || us.any (fun o => bits (o 3) 15 0 == bits (e 3) 15 0 && bit (o 2) 30 == bit (e 2) 30)))

/-- The first failure of R245 after the fetches: code and entry. -/
def meCheck (lim op : Nat) (w : Nat → Nat) (es : List (Nat → Nat)) : Option (Nat × Nat) :=
  let na := bits (w 0) 26 19
  es.zipIdx.findSome? (fun q =>
    let e := q.1
    if op = 3 then
      if srsBad lim w e || (needSyms 3 (isLte w) e).any (fun s => !bit (w 3) s) then some (3, q.2) else none
    else if puschBad lim w e || (needSyms op (isLte w) e).any (fun s => !bit (w 3) s) then some (3, q.2)
    else if eMode e = 0 && 8 < na then some (2, q.2)
    else if eTp e && !smooth5 (12 * ePrbs e) then some (8, q.2)
    else if es.zipIdx.any (fun p => p.2 < q.2 && overlap p.1 e && setBad p.1 e) then some (4, q.2)
    else if min 32 na < maxLayers (es.take (q.2 + 1)) e then some (5, q.2)
    else if !isLte w && portBad (es.take (q.2 + 1)) q.2 then some (6, q.2)
    else none)

/-! ### Phase tracking signals and data resource elements (R243, R254; log entry 52) -/

/-- The symbols of phase tracking: every L-th from the start, the count beginning anew at each DMRS symbol (TS 38.211 clauses
6.4.1.2.2 and 7.4.1.2.2). -/
def ptrsSymsFrom : Nat → Nat → Nat → (Nat → Bool) → Nat → Nat → List Nat
  | 0, _, _, _, _, _ => []
  | f + 1, first, last, dmrs, l, at_ =>
    if last < at_ then []
    else
      match ((List.range l).map (at_ - ·)).find? (fun s => decide (first ≤ s) && dmrs s) with
      | some s => ptrsSymsFrom f first last dmrs l (s + l)
      | none => at_ :: ptrsSymsFrom f first last dmrs l (at_ + l)

/-- Subcarrier of phase tracking in its PRB for a DMRS type, port and offset. -/
def ptrsRe (type2 : Bool) (port ofs : Nat) : Nat :=
  let row := if type2 then [[0, 1, 6, 7], [1, 6, 7, 0], [2, 3, 8, 9], [3, 8, 9, 2], [4, 5, 10, 11], [5, 10, 11, 4]].getD (port % 6) []
    else [[0, 2, 6, 8], [2, 4, 8, 10], [1, 3, 7, 9], [3, 5, 9, 11]].getD (port % 4) []
  row.getD (ofs % 4) 0

/-- What the place of phase tracking depends on: its four fields, and the entry's RNTI, range, DMRS and ports. -/
structure Ptrs where
  on : Bool
  td : Nat
  fd : Nat
  re : Nat

/-- The phase tracking fields of an uplink entry. -/
def ePtrs (e : Nat → Nat) : Ptrs := ⟨bit (e 6) 17, 2 ^ bits (e 6) 19 18, if bit (e 6) 20 then 4 else 2, bits (e 6) 22 21⟩

/-- The lowest DMRS port of an entry carries its phase tracking. -/
def ePort0 (e : Nat → Nat) : Nat := ((List.range 12).find? (bit (bits (e 2) 27 16))).getD 0

/-- Whether subcarrier k of an entry's range in a symbol carries phase tracking. -/
def ptrsAt (t : Ptrs) (e : Nat → Nat) (s k : Nat) : Bool :=
  let n := ePrbs e
  let first := bits (e 0) 15 0 % (if n % t.fd = 0 then t.fd else max 1 (n % t.fd))
  t.on && (ptrsSymsFrom 32 (eSym0 e) (eSym1 e) (bit (e 2)) t.td (eSym0 e)).contains s &&
    decide (first ≤ k / 12) && (k / 12 - first) % t.fd == 0 && k % 12 == ptrsRe (bit (e 2) 14) (ePort0 e) t.re

/-- The data resource elements of an entry, frequency first: symbol and subcarrier of its range. -/
def dataRes (lte : Bool) (e : Nat → Nat) : List (Nat × Nat) :=
  (dataSyms lte e).flatMap (fun s => ((List.range (12 * ePrbs e)).filter (fun k =>
    !(!lte && bit (e 2) s && dmrsHole e k) && !ptrsAt (ePtrs e) e s k)).map (fun k => (s, k)))

/-! ### Records and completion (R263, R264, R272) -/

/-- The gains of a command's antennas in a symbol: none for a carrier of the frequency domain (R242). -/
def Device.meGains (d : Device) (j : MeJob) (s : Nat) : List Nat :=
  if d.freqCarrier (bits (j.w 0) 9 4) then [] else j.ants.map (fun a => gainCode (d.gainAt (bits a 19 9) (j.w 1) s))

/-- A record (R263); the measured quantities are kernels of the entry, its inputs and the gains of its symbols. -/
def Device.meRec (d : Device) (j : MeJob) (ty i status eras zeroRe : Nat) (input : List Byte) : List Byte :=
  let ps := ty :: i :: (wordsOf j.cmd ++ wordsOf (j.ent i) ++ (List.range 14).flatMap (d.meGains j))
  let k := fun n w => Config.kernel 14 ps input n % 2 ^ w
  leBytes 4 (ty + 16 * bits (j.w 0) 9 4 + 2 ^ 10 * i + 2 ^ 15 * status) ++ leBytes 4 (j.w 1) ++
  leBytes 4 (bits (wordAt (j.ent i) 0) 15 0 + 2 ^ 16 * min eras 65535) ++
  leBytes 4 (k 0 16 + 2 ^ 16 * k 1 16) ++ leBytes 4 (k 2 20) ++
  leBytes 4 (k 3 16 + 2 ^ 16 * min zeroRe 65535) ++
  leBytes 8 (d.slotStart (bits (j.w 0) 9 4) (j.w 1))

/-- The record with STATUS OVERFLOW. -/
def recOverflow (r : List Byte) : List Byte :=
  leBytes 4 (putBits (wordAt r 0) 18 15 4) ++ r.drop 4

/-- Writes a command's records: as many as fit, the last that fits marked OVERFLOW when some do not,
and WR advanced once (R264). -/
def Device.meRecords (d : Device) (m : Nat) (rs : List (List Byte)) : Device :=
  let size := max 33 (d.get (MXE_RING_SIZE_SIZE m))
  let wr := d.get (MXE_RING_WR_WR m) % size
  let room := ringRoom size wr (d.get (MXE_RING_RD_RD m) % size)
  let base := d.addr48 (MXE_RING_BASE_LO_ADDR m) (MXE_RING_BASE_HI_ADDR m)
  let lost := rs.length - room
  let put := if lost = 0 then rs
    else ((rs.take room).zipIdx).map (fun p => if p.2 + 1 = room then recOverflow p.1 else p.1)
  let d := (put.zipIdx).foldl (fun (d : Device) p =>
    (d.asks (meNode m) (base + 32 * ((wr + p.2) % size)) 32 true).send (base + 32 * ((wr + p.2) % size)) p.1) d
  let d := d.put (MXE_RING_WR_WR m) ((wr + put.length) % size)
  if lost = 0 then d else (d.count (MXE_CNT_DROP_COUNT m) lost).meCause m MXE_EV_CAUSE_OVERFLOW

/-- The end of an uplink command: its records, REPORT, and its completion (R263, R272). -/
def Device.meEnd (d : Device) (m item status eras : Nat) (rs : List (List Byte)) : Device :=
  let d := (d.meRecords m rs).count (MXE_CNT_CMD_COUNT m) 1
  let bad := rs.any (fun r => bits (wordAt r 0) 18 15 != 0)
  let d := if bad || d.on MXE_CTRL_EV_ALL then d.cause (MXE_EV_CAUSE_REPORT m) (304 + 4 * m) else d
  d.report 2 m item status eras

/-- A command that fails its checks: the code, its records and its completion (R245). -/
def Device.meErr (d : Device) (m item : Nat) (j : MeJob) (code ent : Nat) : Device :=
  let d := (d.put (MXE_ERR_CODE m) code).put (MXE_ERR_ENTRY m) ent
  let op := bits (j.w 0) 3 0
  let ty := if op = 1 then 1 else if op = 3 then 2 else 3
  let n := if 32 < bits (j.w 0) 18 13 then 0 else bits (j.w 0) 18 13
  let rs := (List.range n).map (fun i => d.meRec j ty i 2 0 0 [])
  (d.meCause m MXE_EV_CAUSE_CMD_ERR).meEnd m item 4 0 rs

/-! ### Reading inputs (R257, R258) -/

/-- An input tile of a command: its place, and its payload unless it is an erasure. -/
structure MeIn where
  sym : Nat
  ant : Nat
  idx : Nat
  data : Option (List Byte)

/-- First PRB of an input tile, and whether it holds a PRB of some. -/
def MeIn.first (x : MeIn) (w : Nat → Nat) : Nat := bits (w 2) 22 14 + fmtGroups (meFmt w x.sym) * x.idx
def MeIn.holds (x : MeIn) (w : Nat → Nat) (p n : Nat) : Bool :=
  decide (x.first w < p + n) && decide (p < x.first w + fmtGroups (meFmt w x.sym))

/-- Whether a tile holds a PRB of an entry in one of some symbols. -/
def MeIn.feeds (x : MeIn) (w e : Nat → Nat) (syms : List Nat) : Bool :=
  syms.contains x.sym && x.holds w (ePrbAt e x.sym) (ePrbs e)

/-- The group of PRB p an antenna has in a symbol; none when its tile is an erasure. -/
def antGroup (w : Nat → Nat) (xs : List MeIn) (a s p : Nat) : Option (List Byte) :=
  match xs.find? (fun x => x.sym == s && x.ant == a && x.holds w p 1) with
  | some x => x.data.map (fun bs => (bs.drop ((p - x.first w) * fmtBytes (meFmt w s))).take (fmtBytes (meFmt w s)))
  | none => none

/-- What a kernel sees of an antenna's PRB: its components; an erasure as zeros, with a mark. -/
def antSamples (w : Nat → Nat) (xs : List MeIn) (a s p : Nat) : List Nat :=
  match antGroup w xs a s p with
  | some g => 0 :: codes (comps (meFmt w s) g)
  | none => 1 :: List.replicate 24 0

/-- Antennas whose tile of a PRB in a symbol is an erasure (R257). -/
def goneAnts (w : Nat → Nat) (xs : List MeIn) (s p : Nat) : List Nat :=
  (List.range (bits (w 0) 26 19)).filter (fun a => (antGroup w xs a s p).isNone)

/-- Reads the tiles any entry needs, in list order; a wrong label is an erasure and sets LABEL. -/
def Device.meRead (d : Device) (m : Nat) (j : MeJob) (need : MeIn → Bool) : Device × List MeIn :=
  ((mePos j.w).zip j.inList).foldl (fun (a : Device × List MeIn) p =>
    let x : MeIn := ⟨p.1.1, p.1.2.1, p.1.2.2, none⟩
    if need x then
      let r := a.1.inTile (meNode m) p.2 (a.1.on MXE_CTRL_LABEL_CHECK) (bits (j.w 0) 9 4) (j.w 1) x.sym
        (bits (j.ants.getD x.ant 0) 8 0)
      let d := if r.2.2 then r.1.meCause m MXE_EV_CAUSE_LABEL else r.1
      let d := if r.2.1.isNone then (d.count (MXE_CNT_ERASE_COUNT m) 1).tally 14 1 else d
      (d, a.2 ++ [{ x with data := r.2.1 }])
    else a) (d, [])

/-- What a kernel sees of some input tiles: place and payload, an erasure as zeros with a mark. -/
def meBytes (xs : List MeIn) : List Byte :=
  xs.flatMap (fun x => BitVec.ofNat 8 (b2n x.data.isNone) :: x.data.getD zeroTile)

/-- Erasures among some input tiles. -/
def meEras (xs : List MeIn) : Nat := (xs.filter (·.data.isNone)).length

/-! ### Estimation products (R248 to R250) -/

/-- Whether an entry is eligible for the iterative loop (R265). -/
def eligible (w : Nat → Nat) (es : List (Nat → Nat)) (e : Nat → Nat) : Bool :=
  bit (e 0) 20 && bits (e 0) 27 26 != 0 && decide (bits (w 0) 12 10 ≤ 3) && (eMode e == 1 || eMode e == 2) &&
    !eTp e && (bits (e 0) 23 21 == 3 || bits (e 0) 23 21 == 4) && decide (4 ≤ maxLayers es e)

/-- The layout of an entry's products after their 64-byte head: weights, gains and rows, in that order in each occasion
(R250; the order is the model's, log entry 52). -/
structure ProdMap where
  /-- Antennas, layers, PRB groups, gains per layer, layers of the set. -/
  a : Nat
  nl : Nat
  g : Nat
  gains : Nat
  lt : Nat
  /-- PRBs whose rows are kept, occasions, and whether the entry is ONE_TAP. -/
  rows : Nat
  occs : Nat
  one : Bool

def prodMap (w : Nat → Nat) (es : List (Nat → Nat)) (e : Nat → Nat) : ProdMap where
  a := bits (w 0) 26 19
  nl := eNl e
  g := if eMode e = 0 then 12 * ePrbs e else ceilDiv (ePrbs e) (eGrp e)
  gains := if eMode e = 1 then ceilDiv (ePrbs e) (eGrp e) else 12 * ePrbs e
  lt := setLayers es e
  rows := if eligible w es e then ePrbs e else 0
  occs := (occList e).length
  one := eMode e == 0

/-- Bytes of one occasion; places of a weight, a gain and a row. -/
def ProdMap.occ (m : ProdMap) : Nat := 4 * m.nl * (m.g * m.a + m.gains + m.rows * m.lt)
def ProdMap.weight (m : ProdMap) (o g l : Nat) : Nat := 64 + o * m.occ + 4 * m.a * (g * m.nl + l)
def ProdMap.gain (m : ProdMap) (o k l : Nat) : Nat := 64 + o * m.occ + 4 * m.nl * m.g * m.a + 4 * (k * m.nl + l)
def ProdMap.row (m : ProdMap) (o p l : Nat) : Nat :=
  64 + o * m.occ + 4 * m.nl * (m.g * m.a + m.gains) + 4 * m.lt * (p * m.nl + l)

/-- B: the bytes of an entry's products (R250). -/
def prodBytes (w : Nat → Nat) (es : List (Nat → Nat)) (e : Nat → Nat) : Nat :=
  64 + (prodMap w es e).occs * (prodMap w es e).occ

/-- The PRB group of subcarrier k of an entry's range in a symbol: groups are aligned to the carrier (R244). -/
def grpAt (e : Nat → Nat) (s k : Nat) : Nat :=
  min ((ePrbAt e s + k / 12) / eGrp e - ePrbAt e s / eGrp e) (ceilDiv (ePrbs e) (eGrp e) - 1)

/-- The PRBs of weight index g of an entry in a symbol: first and how many. -/
def weightPrbs (e : Nat → Nat) (s g : Nat) : Nat × Nat :=
  if eMode e = 0 then (ePrbAt e s + g / 12, 1)
  else
    let lo := max (ePrbAt e s) ((ePrbAt e s / eGrp e + g) * eGrp e)
    (lo, min ((ePrbAt e s / eGrp e + g + 1) * eGrp e) (ePrbAt e s + ePrbs e) - lo)

/-- Whether an antenna is left out of a weight: one of its DMRS tiles there is an erasure (R257). -/
def leftOut (w e : Nat → Nat) (xs : List MeIn) (o : List Nat) (g a : Nat) : Bool :=
  xs.any (fun x => x.data.isNone && x.ant == a && o.contains x.sym &&
    (let p := weightPrbs e x.sym g
     x.holds w p.1 p.2))

/-- The list at words i and i + 1 of an entry. -/
def Device.entList (d : Device) (e : List Byte) (i n : Nat) : Option (List Nat) := d.tileList (addrOf e i) n

/-- An entry's products: the table's CRC-32C and the layers' mean delays, then each occasion's weights, gains and rows of
the effective matrix, estimated from the DMRS of the co-scheduled set with DSPREAD and SHRINK (R248 to R252). -/
def Device.estBytes (d : Device) (j : MeJob) (i : Nat) (xs : List MeIn) : List Byte :=
  let es := j.ents.map wordAt
  let e := wordAt (j.ent i)
  let set := coSet es e
  let m := prodMap j.w es e
  let feed := fun (o : List Nat) => xs.filter (fun x => o.contains x.sym &&
    set.any (fun k => x.feeds j.w (es.getD k e) (needSyms 1 false (es.getD k e))))
  let ps := fun (o : List Nat) => (i :: d.get MXE_CTRL_DSPREAD :: d.get MXE_CTRL_SHRINK :: (wordsOf j.cmd).take 4) ++
    set.flatMap (fun k => wordsOf (j.ent k)) ++ o.flatMap (d.meGains j)
  let put := fun (o : List Nat) (part : List Nat) => kbytes 10 (part ++ ps o) (meBytes (feed o)) 4
  let all := (occList e).flatten
  (leBytes 4 (crc32c j.tab) ++ ((List.range m.nl).flatMap (fun l => put all [0, l])) ++ List.replicate 60 0).take 64 ++
    (occList e).flatMap (fun o =>
      (List.range m.g).flatMap (fun g => (List.range m.nl).flatMap (fun l => (List.range m.a).flatMap (fun a =>
        if leftOut j.w e xs o g a then leBytes 4 0 else put o [1, g, l, a]))) ++
      (List.range m.gains).flatMap (fun k => (List.range m.nl).flatMap (fun l => put o [2, k, l])) ++
      (List.range m.rows).flatMap (fun p => (List.range m.nl).flatMap (fun l => (List.range m.lt).flatMap (fun k =>
        put o [3, p, l, k]))))

/-- One entry's products into its tiles (R250); the erasures among its inputs. -/
def Device.estEntry (d : Device) (m : Nat) (j : MeJob) (i : Nat) (xs : List MeIn) : Device × Nat :=
  let e := wordAt (j.ent i)
  let eras := meEras (xs.filter (fun x => x.feeds j.w e (needSyms 1 false e)))
  let bs := d.estBytes j i xs
  let ts := (d.entList (j.ent i) 8 (ceilDiv bs.length 4096)).getD []
  let d := ts.zipIdx.foldl (fun (d : Device) t =>
    let r := d.loose (j.w 1) (bits (j.w 0) 9 4) 7 none none none none
    let part := (bs.drop (4096 * t.2)).take 4096
    r.2.putTile (meNode m) t.1 r.1 (padTile part) (min 255 eras) part.length false false) d
  (d, eras)

/-- UL_EST: the inputs once, then every entry's products (R248). -/
def Device.ulEst (d : Device) (m : Nat) (j : MeJob) : Device × List (List Byte) × Nat :=
  let es := j.ents.map wordAt
  let r := d.meRead m j (fun x => es.any (fun e => x.feeds j.w e (needSyms 1 false e)))
  (List.range j.ents.length).foldl (fun (a : Device × List (List Byte) × Nat) i =>
      let e := wordAt (j.ent i)
      let s := a.1.estEntry m j i r.2
      let input := meBytes (r.2.filter (fun x => x.feeds j.w e (needSyms 1 false e)))
      (s.1, a.2.1 ++ [s.1.meRec j 1 i 0 s.2 0 input], a.2.2 + s.2)) (r.1, [], 0)

/-! ### Combining (R251 to R254, R257) -/

/-- What one entry is combined from: the command, the table, the entry, its products, the input tiles, the antennas' gains by
symbol, and LLR_FRAC. -/
structure Comb where
  w : Nat → Nat
  es : List (Nat → Nat)
  e : Nat → Nat
  prod : List Byte
  xs : List MeIn
  gains : Nat → List Nat
  frac : Nat

def Comb.map (c : Comb) : ProdMap := prodMap c.w c.es c.e
/-- n bytes of the products. -/
def Comb.cut (c : Comb) (o n : Nat) : List Byte := (c.prod.drop o).take n

/-- The weights that combine subcarrier k of a symbol into layer l (R251). -/
def Comb.weights (c : Comb) (l s k : Nat) : List Byte :=
  c.cut (c.map.weight (occAt c.e s) (if c.map.one then k else grpAt c.e s k) l) (4 * c.map.a)

/-- The gain of layer l there: at the subcarrier, or at the group centre (R252). -/
def Comb.gain (c : Comb) (l s k : Nat) : List Byte :=
  c.cut (c.map.gain (occAt c.e s) (if eMode c.e = 1 then grpAt c.e s k else k) l) 4

/-- The combined symbol of layer l at subcarrier k of the entry's range in a symbol: the weights over every antenna's sample,
an erased one zero; ONE_TAP weighs anew without it (R252, R257). -/
def Comb.at_ (c : Comb) (l s k : Nat) : List Int :=
  let p := ePrbAt c.e s + k / 12
  let samples := (List.range c.map.a).flatMap (fun a => antSamples c.w c.xs a s p)
  let ws := if c.map.one then (List.range c.map.nl).flatMap (fun l => c.weights l s k ++ c.gain l s k) else c.weights l s k
  (List.range 2).map (fun i => sat16 (kint 13 (l :: k :: eMode c.e :: (c.gains s ++ samples)) (c.cut 4 16 ++ ws) i))

/-- The symbol that is demapped: with TP, component k of the inverse DFT over the symbol (R254). -/
def Comb.z (c : Comb) (l s k : Nat) : List Int :=
  if eTp c.e then
    let all := (List.range (12 * ePrbs c.e)).flatMap (c.at_ l s)
    (List.range 2).map (fun i => kint 17 (12 * ePrbs c.e :: k :: codes all) [] i)
  else c.at_ l s k

/-- The gains the LLRs are scaled by: the resource element's, with TP all of its symbol's (R252, R254). -/
def Comb.scale (c : Comb) (l s k : Nat) : List Byte :=
  if eTp c.e then (List.range (12 * ePrbs c.e)).flatMap (c.gain l s) else c.gain l s k

/-- The combined phase tracking elements of a layer, from which a symbol's phase is interpolated (R254). -/
def Comb.phase (c : Comb) (l s : Nat) : List Nat :=
  if bit (c.e 6) 17 then s :: (List.range 14).flatMap (fun t => ((List.range (12 * ePrbs c.e)).filter
    (ptrsAt (ePtrs c.e) c.e t)).flatMap (fun k => t :: k :: codes (c.at_ l t k)))
  else []

/-- Whether fewer antennas remain on a resource element than layers lie on it (R257). -/
def Comb.dead (c : Comb) (s k : Nat) : Bool :=
  let p := ePrbAt c.e s + k / 12
  decide (c.map.a < layersAt c.es p s + (goneAnts c.w c.xs s p).length)

/-- The max-log LLR of bit b of the symbol of layer l there, the n-th of its codeword, before it is saturated: z and the noise
variance scaled to it, both corrected for the antennas that are gone (R253, R257). -/
def Comb.llr (c : Comb) (l s k b n : Nat) : Int :=
  let gone := goneAnts c.w c.xs s (ePrbAt c.e s + k / 12)
  if c.dead s k then 0
  else kint 11 (bits (c.e 0) 23 21 :: b :: n % 2 :: c.frac :: (codes (c.z l s k) ++ (gone.length :: gone) ++ c.phase l s))
    (c.scale l s k ++ if gone.isEmpty then [] else c.weights l s k) 0

/-! ### Codeword order (R253, R255; log entry 52) -/

/-- Position of bit n of a stream in the codeword as it is modulated: itself without UCI, else as TS 38.212 clause 6.2.7 or TS
36.212 clauses 5.2.2.7 and 5.2.2.8 multiplex it, a kernel (log entry 52). Streams: 0 data, then those of UCI_LIST. -/
def muxAt (e : Nat → Nat) (stream n : Nat) : Nat :=
  if (eUci e).all (· == 0) && !bit (e 6) 16 then n
  else Config.kernel 12 ([stream, n] ++ (List.range 8).map e) [] 0 % max 1 (bits (e 4) 23 0 + (eUci e).sum)

/-- Where a bit lies: layer, symbol, subcarrier of the range, bit of the modulation symbol, and its place in the scrambling
sequence. NR takes layers, then subcarriers, then symbols; LTE's channel interleaver takes symbols before subcarriers. -/
def Comb.place (c : Comb) (stream n : Nat) : Nat × Nat × Nat × Nat × Nat :=
  let qm := eQm c.e
  let nl := eNl c.e
  let g := muxAt c.e stream n
  let v := g / (qm * nl)
  let l := g / qm % nl
  if isLte c.w then
    let syms := dataSyms true c.e
    let col := v % max 1 syms.length
    let row := v / max 1 syms.length
    (l, syms.getD col 0, row, g % qm, ((col * 12 * ePrbs c.e + row) * nl + l) * qm + g % qm)
  else
    let q := (dataRes false c.e).getD v (0, 0)
    (l, q.1, q.2, g % qm, g)

/-- The seed of the data scrambling: TS 38.211 clause 6.3.1.1, TS 36.211 clause 5.3.1 with the subframe of SLOT. -/
def scrInit (w : Nat → Nat) (rnti nid : Nat) : Nat :=
  if isLte w then rnti * 2 ^ 14 + w 1 % 10 * 2 ^ 9 + nid % 512 else rnti * 2 ^ 15 + nid

/-- The LLR of bit n of a stream, descrambled: a UCI bit that repeats its neighbour is scrambled with the neighbour's bit, a
kernel. -/
def Comb.bitLlr (c : Comb) (stream n : Nat) : Int :=
  let q := c.place stream n
  let v := c.llr q.1 q.2.1 q.2.2.1 q.2.2.2.1 (q.2.2.2.2 / eQm c.e)
  let back := if stream = 0 then 0 else Config.kernel 12 ([stream, n] ++ (List.range 8).map c.e) [] 1 % 2
  if goldBit (scrInit c.w (bits (c.e 0) 15 0) (bits (c.e 3) 25 16)) (q.2.2.2.2 - back) then -v else v

/-- The erased input tiles that feed some bits of a stream (R257). -/
def Comb.eras (c : Comb) (stream : Nat) (ns : List Nat) : Nat :=
  ((c.xs.filter (·.data.isNone)).filter (fun x => ns.any (fun n =>
    let q := c.place stream n
    let p := ePrbAt c.e q.2.1
    x.sym == q.2.1 && (if eTp c.e then x.holds c.w p (ePrbs c.e) else x.holds c.w (p + q.2.2.1 / 12) 1)))).length

/-- Resource elements given zero LLRs (R263). -/
def Comb.zeroRe (c : Comb) : Nat := ((dataRes (isLte c.w) c.e).filter (fun q => c.dead q.1 q.2)).length

/-! ### LLR tiles and doorbells (R255, R256) -/

/-- INLINE of the OPEN of an LLR tile (R255). -/
def llrOpen (w : Nat → Nat) (i idx stream : Nat) : Nat :=
  openWord (w 1) (bits (w 0) 9 4) 15 5 i true (idx % 2 ^ 14 + 2 ^ 14 * stream)

/-- INLINE of a code block doorbell (R256). -/
def llrBell (w : Nat → Nat) (i r uci pass : Nat) : Nat :=
  bits (w 0) 9 4 + 2 ^ 6 * i + 2 ^ 11 * (r % 256) + 2 ^ 19 * uci + 2 ^ 20 * (w 1 % 2 ^ 32) + 2 ^ 52 * pass

/-- Opens, writes and seals the tiles of n LLRs, and counts those saturated: llr gives an LLR, eras a tile's ERASURES from the
places it holds. -/
def Device.llrStream (d : Device) (m i : Nat) (w : Nat → Nat) (ts : List Nat) (n stream : Nat) (llr : Nat → Int)
    (eras : List Nat → Nat) (prov : Bool) : Device :=
  ts.zipIdx.foldl (fun (d : Device) t =>
    let ns := (List.range (min 4096 (n - 4096 * t.2))).map (4096 * t.2 + ·)
    let vs := ns.map llr
    let d := d.putTile (meNode m) t.1 (llrOpen w i t.2 stream) (padTile (vs.map llrByte)) (min 255 (eras ns)) ns.length false prov
    d.bump (MXE_CNT_LLR_SAT_COUNT m) (vs.filter (fun v => sat127 v != v)).length) d

/-- Every LLR and UCI tile of an entry with its doorbells; zero and 255 for an erased one (R255, R256, R258). -/
def Device.entryLlrs (d : Device) (m grp : Nat) (j : MeJob) (i : Nat) (src : Option Comb) : Device :=
  let e := wordAt (j.ent i)
  let stream := fun (d : Device) (ts : List Nat) (n stream base : Nat) =>
    match src with
    | some c => d.llrStream m i j.w ts n stream (fun k => c.bitLlr stream (base + k))
        (fun ns => c.eras stream (ns.map (base + ·))) false
    | none => d.llrStream m i j.w ts n stream (fun _ => 0) (fun _ => 255) false
  let l := (d.entList (j.ent i) 10 (eLlrTiles e)).getD []
  let d := (List.range (eCb e)).foldl (fun (d : Device) r =>
    let o := ((List.range r).map (fun k => llrTiles (eE e k))).sum
    let base := ((List.range r).map (eE e)).sum
    let d := stream d ((l.drop o).take (llrTiles (eE e r))) (eE e r) 0 base
    d.bell (fecNode grp 0) (meNode m) (llrBell j.w i r 0 0)) d
  let sz := eUci e
  let u := (d.entList (j.ent i) 12 (sz.map llrTiles).sum).getD []
  (List.range 3).foldl (fun (d : Device) k =>
    let n := sz.getD k 0
    if n = 0 then d
    else
      let d := stream d ((u.drop ((sz.take k).map llrTiles).sum).take (llrTiles n)) n (k + 1) 0
      d.bell (fecNode grp 0) (meNode m) (llrBell j.w i k 1 0)) d

/-- An entry's products, when none is an erasure; whether the table CRC matches (R258). -/
def Device.products (d : Device) (m : Nat) (j : MeJob) (i : Nat) : Device × Option (List Byte) × Bool :=
  let es := j.ents.map wordAt
  let n := ceilDiv (prodBytes j.w es (wordAt (j.ent i))) 4096
  let ts := (d.entList (j.ent i) 8 n).getD []
  let r := ts.foldl (fun (a : Device × Option (List Byte)) t =>
    match a.1.engineRead t (meNode m) with
    | (d, none) => ((d.count (MXE_CNT_ERASE_COUNT m) 1).tally 14 1, none)
    | (d, some bs) =>
      let h := d.tile t
      if d.on MXE_CTRL_LABEL_CHECK && (h.carrier != bits (j.w 0) 9 4 || h.slot != j.w 1 % 65536) then
        (((d.meCause m MXE_EV_CAUSE_LABEL).count (MXE_CNT_ERASE_COUNT m) 1).tally 14 1, none)
      else (d, a.2.map (· ++ bs))) (d, some [])
  match r with
  | (d, none) => (d, none, false)
  | (d, some bs) => (d, some bs, leNat (bs.take 4) == crc32c j.tab)

/-- Tiles of the combined symbols of an eligible entry, and the place of one: by layer, data symbol and tile (R265). -/
def zTilesPer (e : Nat → Nat) : Nat := ceilDiv (ePrbs e) 85
def zTiles (e : Nat → Nat) : Nat := eNl e * (dataSyms false e).length * zTilesPer e

/-- The combined symbols of an eligible entry as cs16 tiles (R265). -/
def Device.zWrite (d : Device) (m : Nat) (j : MeJob) (i : Nat) (c : Comb) : Device :=
  let e := c.e
  let nt := zTilesPer e
  let syms := dataSyms false e
  ((d.entList (j.ent i) 14 (zTiles e)).getD []).zipIdx.foldl (fun (d : Device) t =>
    let s := syms.getD (t.2 / nt % max 1 syms.length) 0
    let l := t.2 / nt / max 1 syms.length
    let p := 85 * (t.2 % nt)
    let g := min 85 (ePrbs e - p)
    let eras := meEras (c.xs.filter (fun x => x.sym == s && x.holds j.w (ePrbAt e s + p) g))
    let r := d.loose (j.w 1) (bits (j.w 0) 9 4) 0 none none none none
    let bs := (cs16Bytes ((List.range (12 * g)).flatMap (fun k => c.at_ l s (12 * p + k)))).1
    r.2.putTile (meNode m) t.1 r.1 (padTile bs) (min 255 eras) g false false) d

/-- The entry as the loop unit keeps it: an entry given ITER 1 takes the place of the one before it (R265, R266). -/
def Device.loopKeep (d : Device) (m : Nat) (j : MeJob) (i : Nat) (el : Bool) : Device :=
  { d with loops := d.loops.filter (fun l => !(l.me == m && l.carrier == bits (j.w 0) 9 4 && l.entry == i &&
      (l.done || l.slot == j.w 1))) ++ [⟨m, bits (j.w 0) 9 4, i, j.w 1, el, j.cmd, j.tab, 0, [], false⟩] }

/-- One entry of UL_COMB: combined, or erased under R258; its record status, erasures and resource elements without LLRs. -/
def Device.combEntry (d : Device) (m grp : Nat) (j : MeJob) (i : Nat) (xs : List MeIn) : Device × Nat × Nat × Nat :=
  let es := j.ents.map wordAt
  let e := wordAt (j.ent i)
  let ins := xs.filter (fun x => x.feeds j.w e (needSyms 2 (isLte j.w) e))
  let el := eligible j.w es e
  let d := if bit (e 0) 20 then
      let d := d.loopKeep m j i el
      if el then d else d.loopCause m MXE_LOOP_CAUSE_INELIGIBLE
    else d
  match d.products m j i with
  | (d, some bs, true) =>
    let c : Comb := ⟨j.w, es, e, bs, ins, d.meGains j, d.get MXE_CTRL_LLR_FRAC⟩
    let d := d.entryLlrs m grp j i (some c)
    (if el then d.zWrite m j i c else d, 0, meEras ins, c.zeroRe)
  | (d, r, _) =>
    let d := d.meCause m (if r.isNone then MXE_EV_CAUSE_ERASED else MXE_EV_CAUSE_EST_MISMATCH)
    ((d.entryLlrs m grp j i none).count (MXE_CNT_ZERO_ALLOC_COUNT m) 1, 5, meEras ins, 0)

/-- UL_COMB (R255). -/
def Device.ulComb (d : Device) (m grp : Nat) (j : MeJob) : Device × List (List Byte) × Nat :=
  let es := j.ents.map wordAt
  let r := d.meRead m j (fun x => es.any (fun e => x.feeds j.w e (needSyms 2 (isLte j.w) e)))
  (List.range j.ents.length).foldl (fun (a : Device × List (List Byte) × Nat) i =>
    let e := wordAt (j.ent i)
    let s := a.1.combEntry m grp j i r.2
    let input := meBytes (r.2.filter (fun x => x.feeds j.w e (needSyms 2 (isLte j.w) e)))
    (s.1, a.2.1 ++ [s.1.meRec j 3 i s.2.1 s.2.2.1 s.2.2.2 input], a.2.2 + s.2.2.1)) (r.1, [], 0)

/-! ### Sounding (R261, R262) -/

/-- PRBs of a subband, and subbands of an SRS entry. -/
def srsSb (e : Nat → Nat) : Nat := 4 * 2 ^ bits (e 2) 17 16
def srsNsb (e : Nat → Nat) : Nat := ePrbs e / srsSb e

/-- The bytes of an antenna's SRS tile: for each port and subband the channel in cs16, from the antenna's samples of the
subband in the SRS symbols with its gain removed (R262). -/
def Device.srsBytes (d : Device) (j : MeJob) (e : Nat → Nat) (xs : List MeIn) (a : Nat) : List Byte :=
  let syms := needSyms 3 false e
  (cs16Bytes ((List.range (2 ^ bits (e 2) 15 14)).flatMap (fun p => (List.range (srsNsb e)).flatMap (fun b =>
    let samples := syms.flatMap (fun s => (d.meGains j s)[a]?.getD 0 ::
      (List.range (srsSb e)).flatMap (fun q => antSamples j.w xs a s (ePrb0 e + srsSb e * b + q)))
    (List.range 2).map (fun i => kint 15 (p :: b :: (e 1 :: e 2 :: j.w 1 :: samples)) [] i))))).1

/-- UL_SRS: one RAW tile per antenna and entry. -/
def Device.ulSrs (d : Device) (m : Nat) (j : MeJob) : Device × List (List Byte) × Nat :=
  let es := j.ents.map wordAt
  let r := d.meRead m j (fun x => es.any (fun e => x.feeds j.w e (needSyms 3 false e)))
  (List.range j.ents.length).foldl (fun (a : Device × List (List Byte) × Nat) i =>
    let e := wordAt (j.ent i)
    let ins := r.2.filter (fun x => x.feeds j.w e (needSyms 3 false e))
    let ts := (a.1.entList (j.ent i) 8 (bits (j.w 0) 26 19)).getD []
    let d := ts.zipIdx.foldl (fun (d : Device) t =>
      let bs := d.srsBytes j e ins t.2
      let inl := openWord (j.w 1) (bits (j.w 0) 9 4) (eSym0 e) 7 (bits (j.ants.getD t.2 0) 8 0) false (ePrb0 e)
      d.putTile (meNode m) t.1 inl (padTile bs) (min 255 (meEras (ins.filter (fun x => x.ant == t.2)))) bs.length false
        false) a.1
    let eras := meEras ins
    (d, a.2.1 ++ [d.meRec j 2 i 0 eras 0 (meBytes ins)], a.2.2 + eras)) (r.1, [], 0)

/-! ### Running an uplink command (R240, R245) -/

/-- The lists of every entry can be fetched. -/
def Device.entListsOk (d : Device) (op : Nat) (j : MeJob) : Option Nat :=
  let es := j.ents.map wordAt
  (List.range j.ents.length).find? (fun i =>
    let e := wordAt (j.ent i)
    let l := fun k n => (d.entList (j.ent i) k n).isSome
    !(match op with
      | 1 => l 8 (ceilDiv (prodBytes j.w es e) 4096)
      | 2 => l 8 (ceilDiv (prodBytes j.w es e) 4096) && l 10 (eLlrTiles e) && l 12 ((eUci e).map llrTiles).sum &&
          (!eligible j.w es e || l 14 (zTiles e + bits (e 0) 27 26 * eLlrTiles e))
      | _ => l 8 (bits (j.w 0) 26 19)))

/-- The front command of a matrix engine when its OP is op, or reserved: fetched, checked, run. -/
def Device.meRun (d : Device) (m op : Nat) (run : Device → MeJob → Device × List (List Byte) × Nat) : Device :=
  match d.front 2 m with
  | none => d
  | some q =>
    match d.command q.item with
    | none => d.meErr m q.item ⟨zeroTile.take 64, [], [], []⟩ 7 0
    | some cmd =>
      let w := wordAt cmd
      let o := bits (w 0) 3 0
      let j0 : MeJob := ⟨cmd, [], [], []⟩
      if o ≠ op && ((1 ≤ o && o ≤ 3) || (8 ≤ o && o ≤ 11)) then d
      else if o ≠ op || 4 < bits (w 0) 12 10 then d.meErr m q.item j0 1 0
      else if bits (w 0) 26 19 = 0 || 192 < bits (w 0) 26 19 then d.meErr m q.item j0 2 0
      else if bits (w 0) 18 13 = 0 || 32 < bits (w 0) 18 13 || 4 < bits (w 0) 29 27 || bits (w 0) 31 30 ≠ 0
          || bits (w 3) 31 14 ≠ 0 || bits (w 2) 31 23 = 0 || 275 < bits (w 2) 31 23 then d.meErr m q.item j0 3 0
      else
        let d := (d.asksCommand (meNode m) q.item).reads (meNode m) [(addrOf cmd 4, 4 * bits (w 0) 26 19),
          (addrOf cmd 6, 2 * (mePos w).length), (addrOf cmd 8, 64 * bits (w 0) 18 13)]
        match d.fetch (addrOf cmd 4) (4 * bits (w 0) 26 19), d.tileList (addrOf cmd 6) (mePos w).length,
          d.fetch (addrOf cmd 8) (64 * bits (w 0) 18 13) with
        | some at_, some il, some tab =>
          let j : MeJob := ⟨cmd, wordsOf at_, il, tab⟩
          match meCheck (d.prbLimit (bits (w 0) 9 4)) op w (j.ents.map wordAt), d.entListsOk op j with
          | some c, _ => d.meErr m q.item j c.1 c.2
          | none, some i => d.meErr m q.item j 7 i
          | none, none =>
            let r := run d j
            r.1.meEnd m q.item 0 r.2.2 r.2.1
        | _, _, _ => d.meErr m q.item j0 7 0

/-! ### Meanings -/

/-- UL_EST (R248). -/
def execUlEst (m : Fin 4) (s : State) : Host.Outcome State Fault Refusal :=
  s.run (fun d => d.meRun m.val 1 (fun d j => d.ulEst m.val j))

/-- UL_COMB (R255). -/
def execUlComb (m : Fin 4) (s : State) : Host.Outcome State Fault Refusal :=
  s.run (fun d => d.meRun m.val 2 (fun d j =>
    d.ulComb m.val (d.chainGroup (match d.front 2 m.val with
      | some q => (d.item q.item).panel
      | none => 0)) j))

/-- UL_SRS (R262). -/
def execUlSrs (m : Fin 4) (s : State) : Host.Outcome State Fault Refusal :=
  s.run (fun d => d.meRun m.val 3 (fun d j => d.ulSrs m.val j))

end Sys2Proof.Machine
end

