-- ==== Sys2Proof/Machine/Downlink.lean ====
section
/-! DEFINITION. The downlink commands of the matrix engines and the downlink transform (R306, R317 to R326): mapping,
scrambling, modulation levels, precoding sums and prefixes are computed; amplitudes, reference signals, weights, rounding and
the transform are kernels of their own inputs (log entries 11 and 52). -/

namespace Sys2Proof.Machine
open R

/-! ### Inputs and outputs (R306, R317) -/

/-- A downlink input: none when it is taken as zero (R306). -/
def Device.dlRead (d : Device) (m t : Nat) : Device × Option (List Byte) :=
  let r := d.engineRead t (meNode m)
  if r.2.isSome && !(r.1.tile t).mute then r
  else ((r.1.count (MXE_DL_CNT_ZERO_COUNT m) 1).dlCause m MXE_DL_EV_CAUSE_ZERO_IN, none)

def Device.dlReads (d : Device) (m : Nat) (ts : List Nat) : Device × List (Option (List Byte)) :=
  ts.foldl (fun (a : Device × List (Option (List Byte))) t => let r := a.1.dlRead m t
    (r.1, a.2 ++ [r.2])) (d, [])

/-- Inputs as one run of bytes, each taken as zero where it is dead. -/
def dlBytes (xs : List (Option (List Byte))) : List Byte := xs.flatMap (·.getD zeroTile)

/-- Fields of a downlink command. -/
def dSyms (w : Nat → Nat) : List Nat :=
  (List.range (bits (w 2) 7 4 + 1 - bits (w 2) 3 0)).map (bits (w 2) 3 0 + ·)
def dPrb0 (w : Nat → Nat) : Nat := bits (w 2) 16 8
def dPrbs (w : Nat → Nat) : Nat := bits (w 2) 25 17
def dLayers (w : Nat → Nat) : Nat := bits (w 2) 31 26 + 1
def dNant (w : Nat → Nat) : Nat := bits (w 0) 26 19
def dFmt (w : Nat → Nat) : Nat := bits (w 0) 29 27
def dGrp (w : Nat → Nat) : Nat := if bits (w 3) 2 0 = 5 then max 1 (dPrbs w) else 2 ^ bits (w 3) 2 0
def dGroups (w : Nat → Nat) : Nat := ceilDiv (dPrbs w) (dGrp w)
/-- Tiles of one stream and symbol in a format. -/
def dTiles (w : Nat → Nat) (fmt : Nat) : Nat := ceilDiv (dPrbs w) (fmtGroups fmt)

/-- The output list of a downlink command: address word and entries. -/
def dlOutLen (w : Nat → Nat) : Nat × Nat :=
  match bits (w 0) 3 0 with
  | 8 => (8, (dSyms w).length * dLayers w * dTiles w 0)
  | 10 => (8, ceilDiv (4 * dGroups w * dLayers w * dNant w) 4096)
  | _ => (10, (dSyms w).length * dNant w * dTiles w (dFmt w))

/-- The input lists of OP 9 and 11, and the weights of OP 9. -/
def dlInLen (w : Nat → Nat) : Nat × Nat :=
  match bits (w 0) 3 0 with
  | 9 => ((dSyms w).length * dLayers w * dTiles w 0, ceilDiv (4 * dGroups w * dLayers w * dNant w) 4096)
  | 11 => ((dSyms w).length * dNant w * dTiles w 0, 0)
  | _ => (0, 0)

/-! ### Entries of DL_MOD (R318) -/

/-- Whether an entry's RM_MAP excludes subcarrier k of its range in symbol s. -/
def rmExcl (e : Nat → Nat) (map : List Byte) (s k : Nat) : Bool :=
  bit ((halves map).getD ((s - eSym0 e) * ePrbs e + k / 12) 0) (k % 12)

/-- Subcarriers of a PRB that hold the UE-specific reference signals of an LTE entry's ports 7 to 14 (log entry 52). -/
def lteRs (e : Nat → Nat) (k : Nat) : Bool :=
  let ports := bits (e 2) 27 16
  (ports.land 0x53 != 0 && k % 5 == 1) || (ports.land 0xAC != 0 && k % 5 == 0)

/-- The phase tracking fields of a DL_MOD entry. -/
def dPtrs (e : Nat → Nat) : Ptrs := ⟨bit (e 5) 0, 2 ^ bits (e 5) 2 1, if bit (e 5) 3 then 4 else 2, bits (e 5) 5 4⟩

/-- Whether subcarrier k of an entry's range in a symbol is kept from data by DMRS, PTRS or RM_MAP (R319). -/
def dlHole (lte : Bool) (e : Nat → Nat) (map : List Byte) (s k : Nat) : Bool :=
  rmExcl e map s k || bit (e 2) s && (if lte then lteRs e (k % 12) else dmrsHole e k) || !lte && ptrsAt (dPtrs e) e s k

/-- The data resource elements of an entry, frequency first. -/
def dlRes (lte : Bool) (e : Nat → Nat) (map : List Byte) : List (Nat × Nat) :=
  (List.range (eSym1 e + 1 - eSym0 e)).flatMap (fun i =>
    ((List.range (12 * ePrbs e)).filter (fun k => !dlHole lte e map (eSym0 e + i) k)).map (fun k => (eSym0 e + i, k)))

def dlQm (e : Nat → Nat) : Nat := qmBits (bits (e 0) 18 16)
def dlNl (e : Nat → Nat) : Nat := bits (e 0) 20 19 + 1
def dlLayer0 (e : Nat → Nat) : Nat := bits (e 0) 25 21

/-- BAD_ENTRY of a DL_MOD entry: reserved values, ranges, and G differing from what its data resource elements hold (R318,
R319). -/
def dlEntBad (lim : Nat) (w : Nat → Nat) (e : Nat → Nat) (map : List Byte) : Bool :=
  let qm := bits (e 0) 18 16
  qm == 0 || 5 < qm || dLayers w < dlLayer0 e + dlNl e || bits (e 1) 31 26 != 0 || eSym1 e < eSym0 e || 13 < eSym1 e ||
    ePrbs e == 0 || ePrb0 e < dPrb0 w || dPrb0 w + dPrbs w < ePrb0 e + ePrbs e || lim < ePrb0 e + ePrbs e ||
    bits (e 4) 31 24 != 0 || bits (e 5) 31 6 != 0 || bits (e 5) 2 1 == 3 || [10, 11, 12, 13, 14, 15].any (fun i => e i != 0) ||
    (dlRes (isLte w) e map).length * dlQm e * dlNl e != bits (e 4) 23 0

def Device.dlErr (d : Device) (m item code ent : Nat) : Device :=
  (((d.put (MXE_DL_ERR_CODE m) code).put (MXE_DL_ERR_ENTRY m) ent).dlCause m MXE_DL_EV_CAUSE_CMD_ERR).report 2 m item 4 0

/-- Seals an output: MUTE when every contributing input was taken as zero, their count in ERASURES (R306). -/
def Device.dlPut (d : Device) (m t inl : Nat) (bs : List Byte) (count : Nat) (ins : List (Option (List Byte))) : Device :=
  let dead := (ins.filter (·.isNone)).length
  d.putTile (meNode m) t inl (padTile bs) (min 255 dead) count (!ins.isEmpty && dead == ins.length) false

/-- The RM_MAP of an entry. -/
def Device.rmMap (d : Device) (e : List Byte) : Option (List Byte) :=
  let w := wordAt e
  if addrOf e 8 = 0 then some []
  else d.fetch (addrOf e 8) (2 * ePrbs w * (eSym1 w + 1 - eSym0 w))

/-! ### DL_MOD (R319) -/

/-- One entry as DL_MOD maps it: its words, map, codeword number, layers of the codeword before it, and codeword. -/
structure DlEnt where
  w : Nat → Nat
  e : Nat → Nat
  map : List Byte
  cw : Nat
  base : Nat
  code : List Byte

/-- The codeword number of entry i: the second entry of one RNTI with identical resources and DMRS is CW 1 (R318); and the
layers of its CW 0. -/
def dlCw (es : List (Nat → Nat)) (i : Nat) : Nat × Nat :=
  let e := es.getD i (fun _ => 0)
  match (es.take i).find? (fun f => bits (f 0) 15 0 == bits (e 0) 15 0 && f 1 == e 1 && f 2 == e 2 && f 3 == e 3) with
  | some f => (1, dlNl f)
  | none => (0, 0)

/-- The seed of its scrambling: TS 38.211 clause 7.3.1.1, TS 36.211 clause 6.3.1 with the subframe of SLOT. -/
def DlEnt.seed (x : DlEnt) : Nat :=
  if isLte x.w then bits (x.e 0) 15 0 * 2 ^ 14 + x.cw * 2 ^ 13 + x.w 1 % 10 * 2 ^ 9 + bits (x.e 3) 25 16 % 512
  else bits (x.e 0) 15 0 * 2 ^ 15 + x.cw * 2 ^ 14 + bits (x.e 3) 25 16

/-- The level of a component from its bits, most significant first (TS 38.211 clause 5.1). -/
def pamLevel : List Bool → Int
  | [] => 0
  | b :: t => (if b then -1 else 1) * (2 ^ t.length - pamLevel t)

/-- The levels of modulation symbol i of the codeword, scrambled. -/
def DlEnt.levels (x : DlEnt) (i : Nat) : List Int :=
  let qm := dlQm x.e
  let b := fun t => packedBit x.code (i * qm + t) != goldBit x.seed (i * qm + t)
  (List.range 2).map (fun c => pamLevel ((List.range (qm / 2)).map (fun t => b (2 * t + c))))

/-- The DMRS port of layer y of the codeword: the ports of PORTS in order, CW 0's first. -/
def DlEnt.port (x : DlEnt) (y : Nat) : Nat := ((List.range 12).filter (bit (bits (x.e 2) 27 16))).getD (x.base + y) 0

/-- Whether a port's reference signal lies on subcarrier k of a PRB: its CDM group, or its LTE set. -/
def DlEnt.rsHere (x : DlEnt) (p k : Nat) : Bool :=
  if isLte x.w then (if bit 0x53 p then k % 5 == 1 else k % 5 == 0)
  else if bit (x.e 2) 14 then k % 6 / 2 == p % 6 / 2 else k % 2 == p % 4 / 2

/-- What an entry places on layer y of its codeword at subcarrier k of its range in a symbol: the modulated symbol with the
power of BETA; DMRS at the ratio CDM_NODATA sets; PTRS on its port's layer; nothing elsewhere (R319). -/
def DlEnt.at_ (x : DlEnt) (y s k : Nat) : List Int :=
  let sig := fun (kind : Nat) => (List.range 2).map (fun i => kint kind
    [bits (x.w 0) 12 10, x.w 1, s, ePrb0 x.e * 12 + k, x.e 2, x.e 3, x.e 5, x.port y] [] i)
  let none_ : List Int := [0, 0]
  if dlHole (isLte x.w) x.e x.map s k then
    if rmExcl x.e x.map s k then none_
    else if bit (x.e 2) s && x.rsHere (x.port y) (k % 12) then sig 20
    else if !isLte x.w && !bit (x.e 2) s && x.base + y = 0 && ptrsAt (dPtrs x.e) x.e s k then sig 21
    else none_
  else
    let i := (dlRes (isLte x.w) x.e x.map).findIdx (· == (s, k)) * dlNl x.e + y
    (x.levels i).map (fun v => kint 22 [bits (x.e 0) 18 16, bits (x.e 0) 31 26, ofSigned 32 v] [] 0)

/-- The codeword tiles an entry's bits on layer y of a symbol come from, over some subcarriers of its range. -/
def DlEnt.tiles (x : DlEnt) (y s : Nat) (ks : List Nat) : List Nat :=
  let res := dlRes (isLte x.w) x.e x.map
  ((ks.filter (fun k => !dlHole (isLte x.w) x.e x.map s k)).flatMap (fun k =>
    let i := (res.findIdx (· == (s, k)) * dlNl x.e + y) * dlQm x.e
    [i / 32768, (i + dlQm x.e - 1) / 32768])).eraseDups

/-- Whether an entry places symbols on a global layer, a symbol and a PRB. -/
def DlEnt.covers (x : DlEnt) (l s p : Nat) : Bool :=
  decide (dlLayer0 x.e ≤ l) && decide (l < dlLayer0 x.e + dlNl x.e) && decide (eSym0 x.e ≤ s) && decide (s ≤ eSym1 x.e) &&
    decide (ePrb0 x.e ≤ p) && decide (p < ePrb0 x.e + ePrbs x.e)

/-- DL_MOD over checked entries: every layer tile of the command, zeros where no entry places a symbol (R319). -/
def Device.dlMod (d : Device) (m : Nat) (cmd : List Byte) (ents : List (List Byte)) (maps : List (List Byte)) (out : List Nat) :
    Device :=
  let w := wordAt cmd
  let es := ents.map wordAt
  let r := ents.foldl (fun (a : Device × List (List (Option (List Byte)))) e =>
    let ts := (a.1.entList e 6 (ceilDiv (bits (wordAt e 4) 23 0) 32768)).getD []
    let x := a.1.dlReads m ts
    (x.1, a.2 ++ [x.2])) (d, [])
  let xs := (List.range es.length).map (fun i => (⟨w, es.getD i (fun _ => 0), maps.getD i [], (dlCw es i).1, (dlCw es i).2,
    dlBytes (r.2.getD i [])⟩ : DlEnt))
  let nt := dTiles w 0
  out.zipIdx.foldl (fun (d : Device) t =>
    let s := bits (w 2) 3 0 + t.2 / nt / dLayers w
    let l := t.2 / nt % dLayers w
    let f := dPrb0 w + 85 * (t.2 % nt)
    let n := min 85 (dPrbs w - 85 * (t.2 % nt))
    let vs := (List.range n).map (fun i => (List.range 12).flatMap (fun k =>
      match xs.find? (fun x => x.covers l s (f + i)) with
      | some x => x.at_ (l - dlLayer0 x.e) s (12 * (f + i - ePrb0 x.e) + k)
      | none => [0, 0]))
    let ins := (List.range xs.length).flatMap (fun i => match xs[i]? with
      | none => []
      | some x =>
        let ks := ((List.range n).filter (fun q => x.covers l s (f + q))).flatMap (fun q =>
          (List.range 12).map (fun k => 12 * (f + q - ePrb0 x.e) + k))
        (x.tiles (l - dlLayer0 x.e) s ks).map (fun t => ((r.2.getD i []).getD t none)))
    let o := d.loose (w 1) (bits (w 0) 9 4) 0 (some s) (some l) (some f) none
    o.2.dlPut m t.1 o.1 (packPrbs 0 vs).1 n ins) r.1

/-! ### DL_PRECODE and DL_CONVERT (R320, R322) -/

/-- An integer divided by 2^k: exact, or one of the two nearest below and above, which the spec leaves open (log entry 11). -/
def roundOpen (v : Int) (k : Nat) : Int :=
  v / 2 ^ k + (if v % 2 ^ k = 0 then 0 else (Config.kernel 23 [ofSigned 64 v, k] [] 0 % 2 : Nat))

/-- The weight tiles that a tile's PRBs use: those holding a weight of its groups, any layer, and an antenna (R320). -/
def weightAt (w : Nat → Nat) (g l a : Nat) : Nat := 4 * ((g * dLayers w + l) * dNant w + a)
def weightTiles (w : Nat → Nat) (a p n : Nat) : List Nat :=
  ((List.range (dGroups w)).filter (fun g => decide (g * dGrp w < p + n) && decide (p < (g + 1) * dGrp w))).flatMap
    (fun g => (List.range (dLayers w)).map (fun l => weightAt w g l a / 4096))

/-- The tile of layer or antenna x, symbol i and PRB p (from the command's first) in a cs16 list, and the PRB's components
there. -/
def cs16At (w : Nat → Nat) (width : Nat) (xs : List (Option (List Byte))) (i x p : Nat) : List Int :=
  match xs.getD ((i * width + x) * dTiles w 0 + p / 85) none with
  | some bs => comps 0 ((bs.drop (48 * (p % 85))).take 48)
  | none => List.replicate 24 0

/-- One antenna's PRB: the sum over layers of weight times symbol, the weights with 14 fraction bits (R320, R322). -/
def precodePrb (w : Nat → Nat) (la lb : List (Option (List Byte))) (i a p : Nat) : List Int :=
  let ws := dlBytes lb
  let part := fun (o : Nat) => toSigned 16 (leNat ((ws.drop o).take 2))
  let sums := (List.range (dLayers w)).map (fun l =>
    let o := weightAt w (p / dGrp w) l a
    let x := cs16At w (dLayers w) la i l p
    (List.range 12).flatMap (fun k =>
      let re := x.getD (2 * k) 0
      let im := x.getD (2 * k + 1) 0
      [part o * re - part (o + 2) * im, part o * im + part (o + 2) * re]))
  (List.range 24).map (fun c => roundOpen ((sums.map (fun s => s.getD c 0)).sum) 14)

/-- The cs16 tiles of layers or antennas some PRBs of a symbol lie in. -/
def cs16Ins (w : Nat → Nat) (width : Nat) (xs : List (Option (List Byte))) (i p n : Nat) (which : Nat → Bool) :
    List (Option (List Byte)) :=
  (xs.zipIdx.filter (fun q => q.2 / dTiles w 0 / width == i && which (q.2 / dTiles w 0 % width) &&
    decide (85 * (q.2 % dTiles w 0) < p + n) && decide (p < 85 * (q.2 % dTiles w 0) + 85))).map (·.1)

/-- Antenna tiles from what each PRB of an antenna and symbol holds and the inputs it comes from; saturations counted (R322). -/
def Device.dlAnts (d : Device) (m : Nat) (cmd : List Byte) (ants out : List Nat) (prb : Nat → Nat → Nat → List Int)
    (ins : Nat → Nat → Nat → Nat → List (Option (List Byte))) : Device :=
  let w := wordAt cmd
  let nt := dTiles w (dFmt w)
  let g := fmtGroups (dFmt w)
  out.zipIdx.foldl (fun (d : Device) t =>
    let i := t.2 / nt / dNant w
    let a := t.2 / nt % dNant w
    let p := g * (t.2 % nt)
    let n := min g (dPrbs w - p)
    let inl := openWord (w 1) (bits (w 0) 9 4) (bits (w 2) 3 0 + i) (dFmt w) (bits (ants.getD a 0) 8 0) false (dPrb0 w + p)
    let r := packPrbs (dFmt w) ((List.range n).map (fun q => prb i a (p + q)))
    (d.bump (MXE_DL_CNT_SAT_COUNT m) r.2).dlPut m t.1 inl r.1 n (ins i a p n)) d

/-- DL_PRECODE (R322). -/
def Device.dlPrecode (d : Device) (m : Nat) (cmd : List Byte) (ants la lb out : List Nat) : Device :=
  let w := wordAt cmd
  let x := d.dlReads m la
  let y := x.1.dlReads m lb
  y.1.dlAnts m cmd ants out (precodePrb w x.2 y.2) (fun i a p n =>
    cs16Ins w (dLayers w) x.2 i p n (fun _ => true) ++
      ((List.range lb.length).filter (weightTiles w a p n).contains).map (fun k => y.2.getD k none))

/-- DL_CONVERT (R322). -/
def Device.dlConvert (d : Device) (m : Nat) (cmd : List Byte) (ants la out : List Nat) : Device :=
  let w := wordAt cmd
  let x := d.dlReads m la
  x.1.dlAnts m cmd ants out (cs16At w (dNant w) x.2) (fun i a p n => cs16Ins w (dNant w) x.2 i p n (· == a))

/-! ### DL_WEIGHTS (R320, R321) -/

/-- DL_WEIGHTS: a port entry's NANT SRS tiles are at the address in its bytes 8 to 15; each weight is formed from every port's
channels, and a layer without them, or with an erased tile, has zero weights. -/
def Device.dlWeights (d : Device) (m : Nat) (cmd : List Byte) (ports : List (List Byte)) (out : List Nat) : Device :=
  let w := wordAt cmd
  let r := ports.foldl (fun (a : Device × List (Nat × List (Option (List Byte)))) p =>
    let ts := (a.1.tileList (addrOf p 2) (dNant w)).getD []
    let x := a.1.dlReads m ts
    (x.1, a.2 ++ [(bits (wordAt p 0) 5 0, x.2)])) (d, [])
  let live := fun (l : Nat) => r.2.any (fun q => q.1 == l) && r.2.all (fun q => q.1 != l || q.2.all (·.isSome))
  let all := r.2.flatMap (·.2)
  let ps := d.get MXE_DL_CTRL_REG_SHIFT :: w 2 :: w 3 :: ports.map (fun p => wordAt p 0)
  let bs := (List.range (dGroups w)).flatMap (fun g => (List.range (dLayers w)).flatMap (fun l =>
    (List.range (dNant w)).flatMap (fun a =>
      if live l then (cs16Bytes ((List.range 2).map (kint 25 (g :: l :: a :: ps) (dlBytes all)))).1 else leBytes 4 0)))
  out.zipIdx.foldl (fun (d : Device) t =>
    let part := (bs.drop (4096 * t.2)).take 4096
    let x := d.loose (w 1) (bits (w 0) 9 4) 7 none none none none
    x.2.dlPut m t.1 x.1 part part.length all) r.1

/-! ### Running a downlink command (R317) -/

/-- The front command of a matrix engine when its OP is the downlink op. -/
def Device.dlRun (d : Device) (m op : Nat) : Device :=
  match d.front 2 m with
  | none => d
  | some q =>
    match d.command q.item with
    | none => d.dlErr m q.item 7 0
    | some cmd =>
      let w := wordAt cmd
      let n := bits (w 0) 18 13
      let fin := fun (d : Device) => d.report 2 m q.item 0 0
      if bits (w 0) 3 0 ≠ op then d
      else if 4 < bits (w 0) 12 10 then d.dlErr m q.item 1 0
      else if dNant w = 0 || 192 < dNant w then d.dlErr m q.item 2 0
      else if bits (w 0) 31 30 ≠ 0 || 4 < dFmt w || bits (w 2) 7 4 < bits (w 2) 3 0 || 13 < bits (w 2) 7 4
          || dPrbs w = 0 || d.prbLimit (bits (w 0) 9 4) < dPrb0 w + dPrbs w || 32 < dLayers w || 5 < bits (w 3) 2 0 || bits (w 3) 31 3 ≠ 0
          || (op = 8 || op = 10) && (n = 0 || 32 < n) || [12, 13, 14, 15].any (fun i => w i ≠ 0) then d.dlErr m q.item 3 0
      else
        let o := dlOutLen w
        let i := dlInLen w
        let d := (d.asksCommand (meNode m) q.item).reads (meNode m) [(addrOf cmd 4, 4 * dNant w), (addrOf cmd o.1, 2 * o.2),
          (addrOf cmd 6, if op = 8 then 64 * n else if op = 10 then 16 * n else 2 * i.1), (addrOf cmd 8, 2 * i.2)]
        match d.fetch (addrOf cmd 4) (4 * dNant w), d.tileList (addrOf cmd o.1) o.2, d.tileList (addrOf cmd 6) i.1,
            d.tileList (addrOf cmd 8) i.2 with
        | some at_, some out, some la, some lb =>
          match op with
          | 8 =>
            match d.fetch (addrOf cmd 6) (64 * n) with
            | none => d.dlErr m q.item 7 0
            | some tab =>
              let es := cutTable tab 64 n
              match es.zipIdx.find? (fun p => (d.rmMap p.1).isNone
                  || (d.entList p.1 6 (ceilDiv (bits (wordAt p.1 4) 23 0) 32768)).isNone),
                  es.zipIdx.find? (fun p => dlEntBad (d.prbLimit (bits (w 0) 9 4)) w (wordAt p.1) ((d.rmMap p.1).getD [])) with
              | some p, _ => d.dlErr m q.item 7 p.2
              | none, some p => d.dlErr m q.item 3 p.2
              | none, none => fin (d.dlMod m cmd es (es.map (fun e => (d.rmMap e).getD [])) out)
          | 10 =>
            match d.fetch (addrOf cmd 6) (16 * n) with
            | none => d.dlErr m q.item 7 0
            | some tab =>
              let ps := cutTable tab 16 n
              match ps.zipIdx.find? (fun p => (d.tileList (addrOf p.1 2) (dNant w)).isNone) with
              | some p => d.dlErr m q.item 7 p.2
              | none => fin (d.dlWeights m cmd ps out)
          | 9 => fin (d.dlPrecode m cmd (wordsOf at_) la lb out)
          | _ => fin (d.dlConvert m cmd (wordsOf at_) la out)
        | _, _, _, _ => d.dlErr m q.item 7 0

/-! ### Downlink transform (R326) -/

/-- The checks of DL_IFFT: R213's, and BAD_FORMAT for R326's own. -/
def ifftCheck (w : Nat → Nat) : Nat :=
  if 6 < bits (w 0) 7 4 then 2
  else if 4 < bits (w 0) 25 23 || bits (w 5) 31 8 ≠ 0 || w 6 ≠ 0 || w 14 ≠ 0 || w 15 ≠ 0 || bit (w 0) 26 || bit (w 0) 27 then 6
  else if bits (w 1) 22 16 = 0 || 64 < bits (w 1) 22 16 then 3
  else if bits (w 0) 21 18 < bits (w 0) 17 14 || 13 < bits (w 0) 21 18 then 4
  else if nsize (bits (w 0) 7 4) / 12 < bits (w 4) 8 0 + bits (w 4) 17 9 then 4
  else 0

/-- Samples of a time-domain tile, the bytes of one, and the samples as bytes (R210). -/
def tileSamples (cs12 : Bool) : Nat := if cs12 then 1365 else 1024
def sampleBytes (cs12 : Bool) (v : Int) (u : Int) : List Byte :=
  if cs12 then leBytes 3 (ofSigned 12 v + 2 ^ 12 * ofSigned 12 u) else leBytes 2 (ofSigned 16 v) ++ leBytes 2 (ofSigned 16 u)

/-- Samples of tile t of a symbol of n samples. -/
def samplesIn (cs12 : Bool) (n t : Nat) : Nat := min (tileSamples cs12) (n - tileSamples cs12 * t)

/-- Prefix and transform size of a symbol of a DL_IFFT. -/
def Device.ifftLens (d : Device) (w : Nat → Nat) (s : Nat) : Nat × Nat :=
  let long := longSymbol (d.carrierR (bits (w 0) 13 8)) (bits (w 1) 15 0) s
  (if long then bits (w 2) 12 0 else bits (w 2) 25 13, nsize (bits (w 0) 7 4))

/-- Component c of sample i of a symbol: the inverse transform of the tiles' PRBs from bin K0 with GAIN, in units of the output
format before it saturates; the last samples of the symbol stand before it as its prefix (R326). -/
def ifftSample (w : Nat → Nat) (cp n : Nat) (prbs : List (List Int)) (i c : Nat) : Int :=
  kint 26 (bits (w 0) 7 4 :: bits (w 0) 22 22 :: bits (w 3) 12 0 :: bits (w 4) 8 0 :: bits (w 5) 7 0 ::
    codes prbs.flatten) [] (2 * ((i + n - cp) % max 1 n) + c)

/-- One antenna and symbol of DL_IFFT, from its input tiles to its output tiles; the dead inputs (R306, R326). -/
def Device.ifftOne (d : Device) (e : Nat) (j : FeJob) (s a : Nat) (inT outT : List Nat) : Device :=
  let w := wordAt j.cmd
  let fmt := bits (w 0) 25 23
  let cs12 := bit (w 0) 22
  let r := inT.foldl (fun (x : Device × List (Option (List Byte))) t =>
    let y := x.1.engineRead t (feNode e)
    (y.1, x.2 ++ [if (y.1.tile t).mute then none else y.2])) (d, [])
  let dead := (r.2.filter (·.isNone)).length
  let prbs := (List.range (bits (w 4) 17 9)).map (fun p =>
    match r.2.getD (p / fmtGroups fmt) none with
    | some bs => comps fmt ((bs.drop (fmtBytes fmt * (p % fmtGroups fmt))).take (fmtBytes fmt))
    | none => List.replicate 24 0)
  let lens := r.1.ifftLens w s
  let lab := r.1.outLabels inT ((r.2.headD none).isNone) (bits (w 0) 13 8) (bits (w 1) 15 0) s (bits (j.ants.getD a 0) 8 0)
  let v := ifftSample w lens.1 lens.2 prbs
  let sat := fun (x : Int) => satSigned (if cs12 then 12 else 16) x
  let d := r.1.count (FFE_ENG_CNT_ERASE_COUNT e) dead
  let d := outT.zipIdx.foldl (fun (d : Device) t =>
    let is_ := (List.range (samplesIn cs12 (lens.1 + lens.2) t.2)).map (tileSamples cs12 * t.2 + ·)
    let bs := is_.flatMap (fun i => sampleBytes cs12 (sat (v i 0)) (sat (v i 1)))
    let inl := openWord lab.2.1 lab.1 lab.2.2.1 7 lab.2.2.2 false t.2
    (d.putTile (feNode e) t.1 inl (padTile bs) (min dead 255) bs.length (dead == inT.length && !inT.isEmpty) false).count
      (FFE_ENG_CNT_SAT_COUNT e) ((is_.flatMap (fun i => [v i 0, v i 1])).filter (fun x => sat x != x)).length) d
  d.bump (FFE_ENG_CNT_XFORM_COUNT e) 1

/-- DL_IFFT over every symbol and antenna. -/
def Device.dlIfft (d : Device) (e : Nat) (j : FeJob) : Device :=
  let w := wordAt j.cmd
  let na := bits (w 1) 22 16
  let nin := ceilDiv (bits (w 4) 17 9) (fmtGroups (bits (w 0) 25 23))
  let syms := symbolsOf w
  syms.foldl (fun (d : Device) s =>
    let nout := d.feTps w s
    let bi := na * nin * (s - bits (w 0) 17 14)
    let bo := na * sumTo (d.feTps w) syms s
    (List.range na).foldl (fun (d : Device) a =>
      d.ifftOne e j s a ((j.inList.drop (bi + a * nin)).take nin) ((j.outList.drop (bo + a * nout)).take nout)) d) d

/-- The front command of a Fourier engine when its OP is 3. -/
def Device.ifftRun (d : Device) (e : Nat) : Device :=
  match d.front 1 e with
  | none => d
  | some q =>
    match d.command q.item with
    | none => d.feErr e q.item 5
    | some cmd =>
      let w := wordAt cmd
      if bits (w 0) 3 0 ≠ 3 then d
      else if ifftCheck w ≠ 0 then d.feErr e q.item (ifftCheck w)
      else
        let na := bits (w 1) 22 16
        let syms := symbolsOf w
        let nin := na * syms.length * ceilDiv (bits (w 4) 17 9) (fmtGroups (bits (w 0) 25 23))
        let d := (d.asksCommand (feNode e) q.item).reads (feNode e) [(addrOf cmd 8, 4 * na), (addrOf cmd 10, 2 * nin),
          (addrOf cmd 12, 2 * (na * (syms.map (d.feTps w)).sum))]
        match d.fetch (addrOf cmd 8) (4 * na), d.tileList (addrOf cmd 10) nin,
            d.tileList (addrOf cmd 12) (na * (syms.map (d.feTps w)).sum) with
        | some at_, some il, some ol => (d.dlIfft e ⟨cmd, wordsOf at_, il, ol, []⟩).report 1 e q.item 0 0
        | _, _, _ => d.feErr e q.item 5

/-! ### Meanings -/

/-- DL_MOD (R319). -/
def execDlMod (m : Fin 4) (s : State) : Host.Outcome State Fault Refusal := s.run (fun d => d.dlRun m.val 8)

/-- DL_PRECODE (R322). -/
def execDlPrecode (m : Fin 4) (s : State) : Host.Outcome State Fault Refusal := s.run (fun d => d.dlRun m.val 9)

/-- DL_CONVERT (R322). -/
def execDlConvert (m : Fin 4) (s : State) : Host.Outcome State Fault Refusal := s.run (fun d => d.dlRun m.val 11)

/-- DL_WEIGHTS (R321). -/
def execDlWeights (m : Fin 4) (s : State) : Host.Outcome State Fault Refusal := s.run (fun d => d.dlRun m.val 10)

/-- DL_IFFT (R326). -/
def execDlIfft (e : Fin 32) (s : State) : Host.Outcome State Fault Refusal := s.run (fun d => d.ifftRun e.val)

end Sys2Proof.Machine
end

