-- ==== Sys2Proof/Machine/RateMatch.lean ====
section
/-! DEFINITION. Segmentation, rate matching and rate recovery of the codes the FEC groups run (R275, R280, R283, R314): what TS
38.212 clauses 5.2.2 and 5.4.2 and TS 36.212 clauses 5.1.2 and 5.1.4.1 say of lengths, circular buffers and their order (log
entry 52). The parity bits of the codes are kernels (log entry 11). -/

namespace Sys2Proof.Machine

/-! ### Segmentation (R277, R283) -/

/-- NR: the bits with their CRC-24A, the code blocks and the code block size K' (R284). -/
def nrB (a : Nat) : Nat := a + 24
def nrC (a : Nat) (bg2 : Bool) : Nat :=
  let k := if bg2 then 3840 else 8448
  if nrB a ≤ k then 1 else ceilDiv (nrB a) (k - 24)
def nrK (a : Nat) (bg2 : Bool) : Nat :=
  let c := nrC a bg2
  if c = 1 then nrB a else (nrB a + 24 * c) / c
/-- The base graph R277 asks for: 2 for small or low-rate blocks, the rate taken as TBS over G. -/
def nrBg2 (a g : Nat) : Bool := decide (a ≤ 292) || (decide (a ≤ 3824) && decide (100 * a ≤ 67 * g)) || decide (4 * a ≤ g)

/-- Lifting sizes. -/
def liftings : List Nat :=
  ([2, 3, 5, 7, 9, 11, 13, 15].flatMap (fun a => (List.range 8).map (fun j => a * 2 ^ j))).filter (· ≤ 384)

/-- Systematic columns K_b. -/
def nrKb (a : Nat) (bg2 : Bool) : Nat :=
  let b := nrB a
  if !bg2 then 22 else if 640 < b then 10 else if 560 < b then 9 else if 192 < b then 8 else 6

/-- The least lifting size whose K_b columns hold K'. -/
def nrZc (a : Nat) (bg2 : Bool) : Nat :=
  (liftings.filter (fun z => nrK a bg2 ≤ nrKb a bg2 * z)).foldl (fun m z => if m = 0 || z < m then z else m) 0

/-- Columns of the whole information part, K over Zc. -/
def nrCols (bg2 : Bool) : Nat := if bg2 then 10 else 22

/-- LTE: the turbo block sizes, the segmentation, and a block's size. -/
def turboSizes : List Nat :=
  (List.range 60).map (40 + 8 * ·) ++ (List.range 32).map (528 + 16 * ·) ++ (List.range 32).map (1056 + 32 * ·) ++
    (List.range 64).map (2112 + 64 * ·)
def lteC (a : Nat) : Nat := if a + 24 ≤ 6144 then 1 else ceilDiv (a + 24) 6120
def lteB (a : Nat) : Nat := if lteC a = 1 then a + 24 else a + 24 + 24 * lteC a
def lteKp (a : Nat) : Nat := (turboSizes.find? (fun k => lteB a ≤ lteC a * k)).getD 6144
def lteKm (a : Nat) : Nat := (turboSizes.filter (· < lteKp a)).getLast?.getD 0
def lteK (a r : Nat) : Nat :=
  if lteC a = 1 then lteKp a
  else if r < (lteC a * lteKp a - lteB a) / (lteKp a - lteKm a) then lteKm a else lteKp a
def lteFill (a : Nat) : Nat := ((List.range (lteC a)).map (lteK a)).sum - lteB a

/-! ### Rate matching -/

/-- What rate matching of a code block depends on: its code (1 LDPC, 4 turbo), transport block size, base graph 2,
redundancy version, bits per symbol, block number, E_r, and N_cb. -/
structure Rm where
  code : Nat
  tbs : Nat
  bg2 : Bool
  rv : Nat
  qm : Nat
  r : Nat
  e : Nat
  ncb : Nat

/-- Columns of the sub-block interleaver of the turbo code, and its rows for a block. -/
def turboPerm : List Nat :=
  [0, 16, 8, 24, 4, 20, 12, 28, 2, 18, 10, 26, 6, 22, 14, 30, 1, 17, 9, 25, 5, 21, 13, 29, 3, 19, 11, 27, 7, 23, 15, 31]
def turboRows (k : Nat) : Nat := ceilDiv (k + 4) 32

/-- The coded bit at position p of a turbo block's circular buffer: stream and index; none for a dummy bit. -/
def turboAt (k p : Nat) : Option (Nat × Nat) :=
  let rows := turboRows k
  let n := 32 * rows
  let dummy := n - (k + 4)
  let q := if p < n then (0, p) else ((p - n) % 2 + 1, (p - n) / 2)
  let y := if q.1 = 2 then (turboPerm.getD (q.2 / rows) 0 + 32 * (q.2 % rows) + 1) % n
    else 32 * (q.2 % rows) + turboPerm.getD (q.2 / rows) 0
  if y < dummy then none else some (q.1, y - dummy)

/-- Whether position p of the circular buffer holds no bit: an LDPC filler, a turbo dummy, or a filler of the first turbo
block. -/
def Rm.null (m : Rm) (p : Nat) : Bool :=
  if m.code = 4 then
    match turboAt (lteK m.tbs m.r) p with
    | none => true
    | some q => m.r == 0 && decide (q.1 < 2) && decide (q.2 < lteFill m.tbs)
  else
    let z := nrZc m.tbs m.bg2
    decide (nrK m.tbs m.bg2 ≤ p + 2 * z) && decide (p + 2 * z < nrCols m.bg2 * z)

/-- Where a redundancy version begins. -/
def Rm.start (m : Rm) : Nat :=
  if m.code = 4 then
    let rows := turboRows (lteK m.tbs m.r)
    rows * (2 * ceilDiv m.ncb (8 * rows) * m.rv + 2)
  else
    let z := nrZc m.tbs m.bg2
    let num := if m.bg2 then [0, 13, 25, 43].getD m.rv 0 else [0, 17, 33, 56].getD m.rv 0
    num * m.ncb / ((if m.bg2 then 50 else 66) * z) * z

/-- The positions that carry bits, in the order a redundancy version takes them. -/
def Rm.live (m : Rm) : List Nat :=
  ((List.range m.ncb).map (fun i => (m.start + i) % max 1 m.ncb)).filter (fun p => !m.null p)

/-- The selected bit that stands at place i of the block's E_r after bit interleaving, which the turbo code has none of. -/
def Rm.sel (m : Rm) (i : Nat) : Nat := if m.code = 4 then i else i % m.qm * (m.e / m.qm) + i / m.qm

/-- The circular-buffer position of place i of the block's E_r. -/
def Rm.pos (m : Rm) (i : Nat) : Nat := (m.live)[m.sel i % max 1 m.live.length]?.getD 0

/-- Rate recovery: every LLR that falls on a position, added (R280). -/
def Rm.recover (m : Rm) (llrs : List Int) : List Int :=
  let at_ := (List.range m.e).map m.pos
  (List.range m.ncb).map (fun k => ((at_.zip llrs).filter (fun q => q.1 == k)).foldl (fun v q => v + q.2) 0)

/-! ### Codewords -/

/-- The bit at a circular-buffer position of a block whose information bits are given: systematic bits as they are, parity bits
a kernel of them. -/
def Rm.code_ (m : Rm) (info : List Bool) (p : Nat) : Bool :=
  let parity := fun i => Config.kernel 30 (m.code :: m.tbs :: b2n m.bg2 :: i :: info.map b2n) [] 0 % 2 == 1
  if m.code = 4 then
    match turboAt (lteK m.tbs m.r) p with
    | some (0, i) => if i < info.length then info.getD i false else parity (3 * i)
    | some (s, i) => parity (3 * i + s)
    | none => false
  else
    let z := nrZc m.tbs m.bg2
    if p + 2 * z < nrCols m.bg2 * z then info.getD (p + 2 * z) false else parity (p + 2 * z)

/-- The rate-matched bits of a block. -/
def Rm.out (m : Rm) (info : List Bool) : List Bool := (List.range m.e).map (fun i => m.code_ info (m.pos i))

/-! ### Fields that decode and encode commands share (R276, R313) -/

def fOp (w : Nat → Nat) : Nat := bits (w 0) 3 0
def fTbs (w : Nat → Nat) : Nat := bits (w 2) 23 0
/-- The code of an OP: 1 LDPC, 4 turbo, 0 another. -/
def fCode (w : Nat → Nat) : Nat := if fOp w = 1 || fOp w = 8 then 1 else if fOp w = 4 || fOp w = 10 then 4 else 0
/-- Code blocks: 1 but for LDPC and turbo codes (R287). -/
def fC (w : Nat → Nat) : Nat := if fCode w = 0 then 1 else bits (w 2) 31 24
def fE (w : Nat → Nat) (r : Nat) : Nat :=
  if fCode w = 0 then bits (w 3) 23 0
  else blockE (bits (w 3) 23 0) (fC w) (qmBits (bits (w 3) 26 24)) (bits (w 3) 28 27 + 1) r

/-- N_cb of block r: the length of its circular buffer, limited by TBS_LBRM (R280, R293). -/
def fNcbOf (w : Nat → Nat) (r : Nat) : Nat :=
  let a := fTbs w
  if fCode w = 4 then 96 * turboRows (lteK a r)
  else
    let n := (if bit (w 3) 29 then 50 else 66) * nrZc a (bit (w 3) 29)
    let l := bits (w 4) 23 0
    if l = 0 then n else min n (3 * l / (2 * fC w))

/-- The greatest N_cb of a command's blocks, by which regions are spaced. -/
def fNcb (w : Nat → Nat) : Nat := (List.range (fC w)).foldl (fun m r => max m (fNcbOf w r)) 0

/-- Rate matching of block r of a command. -/
def fRm (w : Nat → Nat) (r : Nat) : Rm :=
  ⟨fCode w, fTbs w, bit (w 3) 29, bits (w 0) 20 19, qmBits (bits (w 3) 26 24), r, fE w r, fNcbOf w r⟩

/-- Information bits of block r with its CRC. -/
def fK (w : Nat → Nat) (r : Nat) : Nat := if fCode w = 4 then lteK (fTbs w) r else nrK (fTbs w) (bit (w 3) 29)

/-- Information bits of block r of a transport block: its share of the bits with their CRC-24A, with a CRC-24B when there are
several blocks, and an LTE first block's fillers before them (R283, R284). -/
def blockInfo (w : Nat → Nat) (tb : List Bool) (r : Nat) : List Bool :=
  let all := crcAttach 0 0 tb
  if fC w = 1 then (if fCode w = 4 then List.replicate (lteFill (fTbs w)) false ++ all else all)
  else if fCode w = 4 then
    let f := lteFill (fTbs w)
    let o := ((List.range r).map (fun i => lteK (fTbs w) i - 24)).sum - (if r = 0 then 0 else f)
    let own := lteK (fTbs w) r - 24 - (if r = 0 then f else 0)
    crcAttach 1 0 (List.replicate (if r = 0 then f else 0) false ++ (all.drop o).take own)
  else
    let k := nrK (fTbs w) (bit (w 3) 29) - 24
    crcAttach 1 0 ((all.drop (k * r)).take k)

end Sys2Proof.Machine
end

