-- ==== Sys2Proof/Machine/Fec.lean ====
section
/-! DEFINITION. The FEC groups: decode commands, doorbells, jobs, the check unit, records and soft buffers (R274 to R303).
Rate recovery, combining and the CRCs are computed; what a decoder finds is a kernel of the combined LLRs (log entries 8, 11
and 52). -/

namespace Sys2Proof.Machine
open R

/-! ### Groups and engines (R274) -/

def Device.grp (d : Device) (q : Nat) : FecGroup := tabGet (fun _ => fecGroup0) d.fec q
def Device.setGrp (d : Device) (q : Nat) (g : FecGroup) : Device :=
  { d with fec := tabSet (fun _ => fecGroup0) d.fec q g }
def Device.fecCmd? (d : Device) (q item : Nat) : Option FecCmd := (d.grp q).cmds.find? (fun c => c.item == item)
def Device.setCmd (d : Device) (q : Nat) (c : FecCmd) : Device :=
  let g := d.grp q
  d.setGrp q { g with cmds := g.cmds.map (fun x => if x.item = c.item then c else x) }

/-- The engines that run an OP: LD, PL, TB or TL to decode, LE, PL, TB or TL to encode. -/
def opEngine (op e : Nat) : Bool :=
  match op with
  | 1 => decide (e < 12)
  | 2 => decide (16 ≤ e) && decide (e < 20)
  | 3 => decide (16 ≤ e) && decide (e < 20)
  | 4 => e == 20 || e == 21
  | 5 => e == 22 || e == 23
  | 8 => decide (12 ≤ e) && decide (e < 16)
  | 9 => decide (16 ≤ e) && decide (e < 20)
  | 10 => e == 20 || e == 21
  | 11 => e == 22 || e == 23
  | _ => false

/-- Whether an engine belongs to a panel, and whether it is fenced. -/
def Device.fecMember (d : Device) (p e : Nat) : Bool := bit (d.panelWord p 2) (8 + e)
def Device.fecFenced (d : Device) (e : Nat) : Bool := tabGet (fun _ => false) d.flt.fencedEng (256 * 5 + e)

/-- A cause of a group: it raises the event of engine 3q (R302). -/
def Device.grpCause (d : Device) (q : Nat) (f : Nat → Fld) : Device := d.cause (f q) (320 + 3 * q)
def Device.encCause (d : Device) (q : Nat) (f : Nat → Fld) : Device := d.cause (f q) (332 + q)

/-! ### Fields of a decode command (R276) -/

def FecCmd.w (c : FecCmd) (i : Nat) : Nat := wordAt c.cmd i
def fCarrier (w : Nat → Nat) : Nat := bits (w 0) 9 4
def fEntry (w : Nat → Nat) : Nat := bits (w 0) 14 10
def fLoop (w : Nat → Nat) : Bool := bit (w 0) 15
def fUci (w : Nat → Nat) : Bool := fOp w == 2 || fOp w == 3 || fOp w == 5
def fTiles (w : Nat → Nat) : Nat := ((List.range (fC w)).map (fun r => llrTiles (fE w r))).sum
def fOfs (w : Nat → Nat) (r : Nat) : Nat := ((List.range r).map (fun r => llrTiles (fE w r))).sum

/-! ### Blocks and their bits (R280, R283, R284, R287) -/

/-- Output bits of block r before the transport block's own CRC is cut off (R283). -/
def rawBits (w : Nat → Nat) (r : Nat) : Nat :=
  let a := fTbs w
  match fOp w with
  | 1 => if fC w = 1 then a else nrK a (bit (w 3) 29) - 24
  | 4 => if lteC a = 1 then a else lteK a r - 24 - (if r = 0 then lteFill a else 0)
  | _ => a

/-- First output bit of block r, and its output bits (R283). -/
def bitOfs (w : Nat → Nat) (r : Nat) : Nat := ((List.range r).map (rawBits w)).sum
def nBits (w : Nat → Nat) (r : Nat) : Nat := min (rawBits w r) (fTbs w - bitOfs w r)

/-- The CRC a block carries: CRC-24B among several blocks, else CRC-24A; a polar payload's CRC6 or CRC11; CRC8 of a
tail-biting code; none for small-block and Reed-Muller codes, the latter of at most 11 bits (R284, R287; log entry 52). -/
def fCrc (w : Nat → Nat) : Option Nat :=
  match fOp w with
  | 1 => some (if fC w = 1 then 0 else 1)
  | 4 => some (if fC w = 1 then 0 else 1)
  | 2 => some (if fTbs w < 20 then 5 else 4)
  | 5 => if 11 < fTbs w then some 6 else none
  | _ => none

/-- Bits a decode of block r decides: with their CRC. -/
def decLen (w : Nat → Nat) (r : Nat) : Nat :=
  if fCode w = 0 then fTbs w + (match (fCrc w).bind crcCode with
    | some (n, _) => n
    | none => 0)
  else fK w r

/-- Whether decided bits pass their CRC; a code without one passes. -/
def decOk (w : Nat → Nat) (bs : List Bool) : Bool :=
  match fCrc w with
  | some c => crcRem c bs == 0
  | none => true

/-- Check rows the LDPC decoder works on (R280). -/
def fMb (w : Nat → Nat) (r : Nat) : Nat :=
  let bg2 := bit (w 3) 29
  let z := nrZc (fTbs w) bg2
  let f := nrCols bg2 * z - nrK (fTbs w) bg2
  min (if bg2 then 42 else 46) (max 4 (ceilDiv (fE w r + f) (max 1 z) + 2 - nrKb (fTbs w) bg2))

/-- What a decoder's kernels see of a block: OP, size, base graph, redundancy version, check rows, and the combined LLRs. -/
def decPars (w : Nat → Nat) (r : Nat) (soft : List Int) : List Nat :=
  [fOp w, fTbs w, b2n (bit (w 3) 29), bits (w 0) 20 19, r, fE w r, fMb w r] ++ codes soft

/-- The bits decided after some iterations. -/
def decBits (w : Nat → Nat) (r iters : Nat) (soft : List Int) : List Bool :=
  let f := if fOp w = 4 && r = 0 then lteFill (fTbs w) else 0
  (List.range (decLen w r)).map (fun i => decide (f ≤ i) && Config.kernel 32 (iters :: decPars w r soft) [] i % 2 == 1)

/-- A block's own output bits among its decided bits: without fillers and CRC (R283). -/
def ownBits (w : Nat → Nat) (r : Nat) (bs : List Bool) : List Bool :=
  (bs.drop (if fOp w = 4 && r = 0 then lteFill (fTbs w) else 0)).take (rawBits w r)

/-- STRIDE (R293). -/
def fStride (w : Nat → Nat) : Nat := ceilDiv (fNcb w) 128

/-! ### Checks (R277) -/

/-- The code of the first check of a decode command that fails, the list fetches apart. -/
def fecCheck (w : Nat → Nat) : Nat :=
  let a := fTbs w
  if fOp w = 0 || 5 < fOp w || (fUci w && bits (w 3) 31 30 = 3) then 1
  else if bits (w 0) 30 26 = 0 || a = 0 || 4 < bits (w 3) 26 24 then 2
  else if fOp w = 1 && (bits (w 2) 31 24 ≠ nrC a (bit (w 3) 29) || bit (w 3) 29 ≠ nrBg2 a (bits (w 3) 23 0)) then 3
  else if fOp w = 4 && bits (w 2) 31 24 ≠ lteC a then 3
  else if bit (w 0) 21 && ((w 6) % 64 ≠ 0 || bits (w 7) 15 0 ≥ 2 ^ 6) then 5
  else 0

/-! ### Records (R288, R289) -/

/-- A provisional ring record. -/
def Device.provBytes (d : Device) (c : FecCmd) (ty cb pass seq ref iters erased ofs n cause : Nat) : List Byte :=
  let w := c.w
  leBytes 4 (ty + 16 * fCarrier w + 2 ^ 10 * fEntry w + 2 ^ 15 * (d.item c.item).panel + 2 ^ 20 * cb + 2 ^ 28 * pass) ++
  leBytes 4 (w 1) ++ leBytes 4 (seq % 65536 + 65536 * ref) ++
  leBytes 4 (bits (w 5) 19 0 + 2 ^ 20 * min iters 31 + 2 ^ 25 * min erased 127) ++
  leBytes 8 (ofs + 2 ^ 24 * n) ++ leBytes 8 (d.time.tick % 2 ^ 32 + 2 ^ 32 * cause)

/-- Writes a provisional ring record with the next SEQ; a base outside cluster memory or a full ring
loses it (R288). Answers the SEQ and whether it was written. -/
def Device.provPut (d : Device) (q : Nat) (mk : Nat → List Byte) : Device × Nat × Bool :=
  let g := d.grp q
  let seq := g.seq
  let d := d.setGrp q { g with seq := (seq + 1) % 65536 }
  let base := d.addr48 (FEC_PROV_BASE_LO_ADDR q) (FEC_PROV_BASE_HI_ADDR q)
  let size := max 64 (d.get (FEC_PROV_SIZE_SIZE q))
  if !(decide (0x5000000000 ≤ base) && decide (base < 0x5014000000)) then
    ((d.count (FEC_CNT_PROV_DROP_COUNT q) 1).grpCause q FEC_GRP_CAUSE_PROV_LOC, seq, false)
  else match d.ringPut base size (d.get (FEC_PROV_WR_WR q)) (d.get (FEC_PROV_RD_RD q)) (mk seq) with
    | some (d', wr) => ((d'.asks (fecNode q 0) (base + 32 * d.get (FEC_PROV_WR_WR q)) 32 true).put (FEC_PROV_WR_WR q) wr, seq, true)
    | none => ((d.count (FEC_CNT_PROV_DROP_COUNT q) 1).grpCause q FEC_GRP_CAUSE_PROV_OVF, seq, false)

/-- Writes one completion record in the ring, when it has room. -/
def Device.cmplPut (d : Device) (q : Nat) (bs : List Byte) : Option Device :=
  let base := d.addr48 (FEC_CMPL_BASE_LO_ADDR q) (FEC_CMPL_BASE_HI_ADDR q)
  (d.ringPut base (max 2 (d.get (FEC_CMPL_SIZE_SIZE q))) (d.get (FEC_CMPL_WR_WR q)) (d.get (FEC_CMPL_RD_RD q)) bs).map
    (fun r => (r.1.asks (fecNode q 0) (base + bs.length * d.get (FEC_CMPL_WR_WR q)) bs.length true).put (FEC_CMPL_WR_WR q) r.2)

/-- A completion record: written, held while the ring is full, or lost (R289). -/
def Device.cmpl (d : Device) (q : Nat) (bs : List Byte) : Device :=
  let g := d.grp q
  match (if g.held.isEmpty then d.cmplPut q bs else none) with
  | some d => d
  | none =>
    if g.held.length < 32 then d.setGrp q { g with held := g.held ++ [bs] }
    else (d.count (FEC_CNT_CMPL_LOST_COUNT q) 1).grpCause q FEC_GRP_CAUSE_CMPL_LOST

/-- The completion record of a command (R289). -/
def Device.cmplBytesOf (d : Device) (c : FecCmd) (status cause : Nat) : List Byte :=
  let w := c.w
  let fails := (c.cbs.filter (fun b => b.st == .failed)).length
  let iters := c.cbs.foldl (fun m b => max m b.iters) 0
  let metric := if (fCrc w).isNone then Config.kernel 35 (c.cbs.flatMap (fun b => decPars w 0 b.soft)) [] 0 % 256 else iters
  let eras := (c.cbs.map (·.erased)).sum
  leBytes 4 ((if fUci w then 2 else 1) + 16 * fCarrier w + 2 ^ 10 * fEntry w + 2 ^ 15 * (d.item c.item).panel +
    2 ^ 20 * status + 2 ^ 24 * cause + 2 ^ 28 * c.pass + 2 ^ 30 * (if fUci w then bits (w 3) 31 30 else 0)) ++
  leBytes 4 (w 1) ++
  leBytes 4 (bits (w 5) 19 0 + 2 ^ 20 * b2n c.sbLost + 2 ^ 21 * b2n c.provLost + 2 ^ 22 * b2n c.xDenied) ++
  leBytes 4 (w 2) ++
  leBytes 4 (c.outTiles.headD 0 + 2 ^ 16 * metric + 2 ^ 24 * min eras 255) ++
  leBytes 4 ((c.cbs.filter (·.open_)).length % 256 + 256 * min fails 255) ++
  leBytes 8 (d.slotStart (fCarrier w) (w 1))

/-- Writes the completion record of a command; a CRC_FAIL is counted. -/
def Device.cmplOf (d : Device) (q : Nat) (c : FecCmd) (status cause : Nat) : Device :=
  let d := if status = 1 then (d.count (FEC_CNT_TB_FAIL_COUNT q) 1).tally 10 1 else d
  d.cmpl q (d.cmplBytesOf c status cause)

/-! ### Soft buffers (R293 to R296) -/

def sbAddr (w : Nat → Nat) : Nat := w 6 + 2 ^ 32 * bits (w 7) 15 0
def sbRegion (w : Nat → Nat) (r : Nat) : Nat := sbAddr w + 64 + 64 * fStride w * r

/-- The header of a soft buffer, valid for the command (R294): VALID and TXCOUNT. -/
def Device.sbHeader (d : Device) (w : Nat → Nat) : Option (Nat × Nat) :=
  match d.fetch (sbAddr w) 64 with
  | none => none
  | some h =>
    let x := wordAt h
    if bits (x 0) 15 0 = 0x5342 && bit (x 0) 24 && bits (x 0) 23 16 = d.get FEC_SB_GEN_GEN
        && x 7 = crc32c (h.take 28 ++ h.drop 32) && bits (x 1) 19 0 = bits (w 5) 19 0 && bits (x 1) 27 20 = fC w
        && bit (x 1) 28 = bit (w 3) 29 && bits (x 2) 23 0 = fTbs w then
      some (leNat (h.drop 32), bits (x 3) 31 16)
    else none

/-- The header a command writes (R293, R296). -/
def Device.sbBytes (d : Device) (w : Nat → Nat) (held : Bool) (tx valid : Nat) : List Byte :=
  let a := leBytes 4 (0x5342 + 2 ^ 16 * d.get FEC_SB_GEN_GEN + 2 ^ 24 * b2n held) ++
    leBytes 4 (bits (w 5) 19 0 + 2 ^ 20 * fC w + 2 ^ 28 * b2n (bit (w 3) 29)) ++ leBytes 4 (fTbs w) ++
    leBytes 4 (fStride w % 65536 + 2 ^ 16 * min tx 65535) ++ List.replicate 12 0
  let v := leBytes 32 valid
  a ++ leBytes 4 (crc32c (a ++ v)) ++ v

/-- The read of the soft buffer at a command's start (R294). -/
def Device.sbRead (d : Device) (q : Nat) (c : FecCmd) : Device × FecCmd :=
  let c := { c with sbRead := true }
  if !bit (c.w 0) 21 || bit (c.w 0) 18 then (d, c)
  else
    let d := d.asks (fecNode q 0) (sbAddr c.w) 64 false
    match d.sbHeader c.w with
    | some (v, t) => (d, { c with sbValid := v, sbTx := t })
    | none =>
      ((d.count (FEC_CNT_SB_LOST_COUNT q) 1).grpCause q FEC_GRP_CAUSE_SB_LOST, { c with sbLost := true })

/-- A soft-buffer write; an ACTIVE device at LEVEL HOT sends its lines to its twin as well (R528). -/
def Device.sendSoft (d : Device) (q a : Nat) (bs : List Byte) : Device :=
  let ls := (linesOf a bs.length).filter (fun l => !d.twin.soft.contains (l + 1))
  let d' := (d.asks (fecNode q 0) a bs.length true).send a bs
  if d.twin.level = 2 && d.get TWN_STATUS_ROLE = 2 then
    { d' with twin := { d'.twin with soft := d'.twin.soft ++ ls.map (· + 1) } }
  else d'

/-- Writes the header with VALID for the blocks that ended without CONFIRM. -/
def Device.sbWrite (d : Device) (q : Nat) (c : FecCmd) (held : Bool) : Device :=
  if !bit (c.w 0) 21 then d
  else
    let v := c.cbs.zipIdx.foldl (fun n p => if p.1.st == .failed then n + 2 ^ p.2 else n) 0
    d.sendSoft q (sbAddr c.w) (d.sbBytes c.w held (c.sbTx + b2n held) v)

/-- A stored LLR4 from a combined value: rounded to nearest, halves away from zero, held to ±7 (R295). -/
def toLlr4 (shift : Nat) (c : Int) : Int :=
  let m : Int := (2 * c.natAbs + 2 ^ shift) / 2 ^ (shift + 1)
  clampInt (-7) 7 (if c < 0 then -m else m)

/-- The combined value of a stored LLR4 and the new sum at its position (R295). -/
def combine (shift : Nat) (s n : Int) : Int := sat127 (s * 2 ^ shift + n)

/-- The write-back of a region (R295, R296). -/
def Device.regionWrite (d : Device) (q : Nat) (c : FecCmd) (r : Nat) (b : CodeBlock) : Device :=
  if bit (c.w 0) 21 then
    d.sendSoft q (sbRegion c.w r) (packLlr4 (b.soft.map (toLlr4 (d.get FEC_CTRL_SB_SHIFT))))
  else d

/-! ### Output tiles (R283) -/

/-- Whether another open command before this one names the same soft buffer (R279). -/
def Device.sbBlocked (d : Device) (q : Nat) (c : FecCmd) : Bool :=
  bit (c.w 0) 21 && ((d.grp q).cmds.takeWhile (fun x => x.item != c.item)).any (fun x =>
    bit (x.w 0) 21 && sbAddr x.w == sbAddr c.w)

/-- Memory bytes with n bits replaced from bit o on. -/
def putPacked (old : List Byte) (o n : Nat) (src : List Byte) : List Byte :=
  old.zipIdx.map (fun p => BitVec.ofNat 8 ((List.range 8).foldl (fun v j =>
    let i := 8 * p.2 + j
    2 * v + b2n (if o ≤ i && i < o + n then packedBit src (i - o) else bit p.1.toNat (7 - j))) 0))

/-- Opens an output tile for the check unit, zeroed, when it is FREE. -/
def Device.outOpen (d : Device) (q : Nat) (w : Nat → Nat) (t : Nat) : Device :=
  if (d.tile t).st == .free then
    let r := d.loose (w 1) (fCarrier w) 7 (some 15) (some (fEntry w)) none (some true)
    let d := (r.2.opOpen t (fecNode q 0) r.1 false).1
    if (d.tile t).st == .opened && (d.tile t).writer == fecNode q 0 then d.store (tileAddr t) zeroTile else d
  else d

/-- Writes a block's output bits into the tiles they fall in, with PROV (R127, R283). -/
def Device.outBits (d : Device) (q : Nat) (c : FecCmd) (r : Nat) (bs : List Bool) : Device :=
  let o := bitOfs c.w r
  let n := nBits c.w r
  if n = 0 then d
  else (List.range ((o + n - 1) / 32768 + 1 - o / 32768)).foldl (fun (d : Device) i =>
    let k := o / 32768 + i
    let t := c.outTiles.getD k 65535
    let d := d.outOpen q c.w t
    let h := d.tile t
    if h.st == .opened && h.writer == fecNode q 0 then
      let lo := max o (32768 * k)
      let hi := min (o + n) (32768 * (k + 1))
      let d := d.store (tileAddr t) (putPacked (d.payload t) (lo - 32768 * k) (hi - lo)
        (packBits0 ((bs.drop (lo - o)).take (hi - lo))))
      d.setTile t { d.tile t with prov := true }
    else d) d

/-- Seals every output tile, opening those never written (R285). -/
def Device.outSeal (d : Device) (q : Nat) (c : FecCmd) : Device :=
  let bytes := ceilDiv (fTbs c.w) 8
  let eras := (c.cbs.map (·.erased)).sum
  c.outTiles.zipIdx.foldl (fun (d : Device) t =>
    let d := d.outOpen q c.w t.1
    d.sealWith (fecNode q 0) t.1 (d.payload t.1) false false (min eras 255) (min 4096 (bytes - 4096 * t.2))) d

/-! ### The end of a transport block (R285) -/

/-- Removes a command and reports its completion to the Dispatcher. -/
def Device.fecClose (d : Device) (q item status eras : Nat) : Device :=
  let g := d.grp q
  let d := d.setGrp q { g with
    cmds := g.cmds.filter (fun c => c.item != item), checkQ := g.checkQ.filter (fun p => p.1 != item) }
  d.report 4 q item status eras

def FecCmd.eras (c : FecCmd) : Nat := (c.cbs.map (·.erased)).sum

/-- Writes a TBLOCK record. -/
def Device.tblock (d : Device) (q : Nat) (c : FecCmd) (ty cause : Nat) : Device × FecCmd :=
  match d.provPut q (fun s => d.provBytes c ty 255 0 s 0 0 0 0 (fTbs c.w) cause) with
  | (d, _, okw) => (d, if okw then c else { c with provLost := true })

/-- A transport block fails with a cause. -/
def Device.tbFail (d : Device) (q : Nat) (c : FecCmd) (cause fin : Nat) : Device :=
  match (d.outSeal q c).tblock q c 5 cause with
  | (d, c) => ((d.cmplOf q c 1 cause).sbWrite q c true).fecClose q c.item fin c.eras

/-- The end of a transport block all of whose blocks have ended. -/
def Device.tbEnd (d : Device) (q : Nat) (c : FecCmd) : Device :=
  if c.cbs.any (fun b => b.st != .confirmed && b.st != .failed) then d
  else if c.cbs.any (fun b => b.st == .failed) then d.tbFail q c c.cause 0
  else if fOp c.w = 1 && 1 < fC c.w && crcRem 0 (c.cbs.zipIdx.flatMap (fun b => ownBits c.w b.2 b.1.bits_)) ≠ 0 then
    d.tbFail q c 2 0
  else
    let d := d.outSeal q c
    let d := c.outTiles.foldl (fun (d : Device) t => (d.opClrProv t (fecNode q 0) (d.tile t).gen false).1) d
    match d.tblock q c 4 0 with
    | (d, c) => ((d.cmplOf q c 0 0).sbWrite q c false).fecClose q c.item 0 c.eras

/-- A block that ended without CONFIRM: its region goes back, and the first failure sets the cause. -/
def Device.blockFail (d : Device) (q : Nat) (c : FecCmd) (r cause : Nat) : Device × FecCmd :=
  let b := c.cbs.getD r codeBlock0
  let c := { c with
    cbs := c.cbs.set r { b with st := .failed, open_ := false }
    cause := if c.cause = 0 then cause else c.cause }
  let d := d.regionWrite q c r b
  (d.setCmd q c, c)

/-- Every unsatisfied block of a command fails: the loop has ended, or there is none. -/
def Device.unsatFail (d : Device) (q : Nat) (c : FecCmd) : Device × FecCmd :=
  (List.range c.cbs.length).foldl (fun (a : Device × FecCmd) r =>
    let b := a.2.cbs.getD r codeBlock0
    if b.st == .unsatisfied then
      a.1.blockFail q a.2 r (if b.erased = llrTiles (fE c.w r) && b.iters = 0 then 5 else 1)
    else a) (d, c)

/-- After a block has finished its pass: PASS_END when all have, for a command with LOOP (R297); and
the end of the transport block when every block has ended. -/
def Device.fecAdvance (d : Device) (q item : Nat) : Device :=
  match d.fecCmd? q item with
  | none => d
  | some c =>
    let going := c.cbs.any (fun b => match b.st with
      | .waiting => true
      | .queued _ => true
      | .decoding _ => true
      | _ => false)
    if going || c.wait then d
    else
      let u := (c.cbs.filter (fun b => b.st == .unsatisfied)).length
      let d := if fLoop c.w && c.cbs.any (fun b => b.pass = c.pass || b.st == .unsatisfied) && c.feeder ≠ 0 then
          d.bell c.feeder (fecNode q 0) (fCarrier c.w + 2 ^ 6 * fEntry c.w + 2 ^ 11 * (u % 256) +
            2 ^ 20 * (c.w 1 % 2 ^ 32) + 2 ^ 52 * c.pass + 2 ^ 54 * 2)
        else d
      if fLoop c.w && u ≠ 0 then d.setCmd q { c with wait := true }
      else match d.unsatFail q c with
        | (d, c) => d.tbEnd q c

/-! ### Doorbells (R278, R297) -/

/-- Whether a doorbell's INLINE is one of a command's. -/
def FecCmd.takes (c : FecCmd) (inl : Nat) : Bool :=
  let w := c.w
  bits inl 5 0 == fCarrier w && bits inl 10 6 == fEntry w && bits inl 51 20 == w 1 % 2 ^ 32 &&
    (bits inl 55 54 == 1 || (bit inl 19 == fUci w && (!fUci w || bits inl 18 11 == bits (w 3) 31 30)))

/-- A matched doorbell: a code block becomes a job of its pass, or the loop ends. -/
def Device.fecMatch (d : Device) (q : Nat) (c : FecCmd) (src inl : Nat) : Device :=
  if bits inl 55 54 = 1 then
    if c.wait then match d.unsatFail q { c with wait := false } with
      | (d, c) => (d.setCmd q c).tbEnd q c
    else d
  else
    let r := if fUci c.w then 0 else bits inl 18 11
    let p := bits inl 53 52
    let c := if c.wait && p = c.pass + 1 then
        { c with pass := p, wait := false
                 cbs := c.cbs.map (fun b => if b.st == .unsatisfied then { b with st := .waiting } else b) }
      else c
    let b := c.cbs.getD r codeBlock0
    if r < c.cbs.length && p = c.pass && b.st == .waiting then
      let g := d.grp q
      let d := d.setGrp q { g with arrivals := g.arrivals + 1 }
      d.setCmd q { c with cbs := c.cbs.set r { b with st := .queued g.arrivals }, feeder := src }
    else d

/-- A doorbell that reaches a group: matched, or stored; a full store loses its oldest (R278). -/
def Device.fecBell (d : Device) (q src inl : Nat) : Device :=
  let g := d.grp q
  match g.cmds.find? (fun c => c.takes inl) with
  | some c => d.fecMatch q c src inl
  | none =>
    if g.store.length < 256 then d.setGrp q { g with store := g.store ++ [(src, inl)] }
    else ((d.setGrp q { g with store := g.store.drop 1 ++ [(src, inl)] }).count (FEC_CNT_DB_DROP_COUNT q) 1).grpCause q
      FEC_GRP_CAUSE_DB_DROP

/-- Takes a delivered doorbell off those under way. -/
def Device.bellGone (d : Device) (dest src inl : Nat) : Device :=
  { d with bells := d.bells.erase (dest, src, inl) }

/-! ### Opening a command (R277) -/

def fecCmd0 (item : Nat) (cmd : List Byte) : FecCmd where
  item := item
  cmd := cmd
  cbs := List.replicate (fC (wordAt cmd)) codeBlock0
  pass := 0
  feeder := 0
  wait := false
  started := false
  sbRead := false
  sbValid := 0
  sbTx := 0
  sbLost := false
  provLost := false
  xDenied := false
  llrTiles := []
  outTiles := []
  ollrTiles := []
  xtTiles := []
  cause := 0

/-- A decode command that fails its checks (R277). -/
def Device.fecErr (d : Device) (q item : Nat) (cmd : List Byte) (code : Nat) : Device :=
  let w := wordAt cmd
  let d := (((d.put (FEC_ERR_CODE q) code).put (FEC_ERR_ENTRY q) (fEntry w)).put (FEC_ERR_CARRIER q) (fCarrier w))
  let d := d.grpCause q FEC_GRP_CAUSE_CMD_ERR
  (d.cmplOf q { fecCmd0 item cmd with cbs := [] } 1 6).report 4 q item 4 0

/-- The next queued command of a group that is not open, when its OP is op or reserved. -/
def Device.fecOpen (d : Device) (q op : Nat) : Device :=
  match (d.engine (engKey 4 q)).queue.find? (fun x => !x.expired && !x.started) with
  | none => d
  | some x =>
    match d.command x.item with
    | none => d.fecErr q x.item (zeroTile.take 64) 4
    | some cmd =>
      let w := wordAt cmd
      if fOp w ≠ op && 1 ≤ fOp w && fOp w ≤ 5 then d
      else if fecCheck w ≠ 0 then d.fecErr q x.item cmd (fecCheck w)
      else
        let n := fTiles w
        let mo := if fLoop w then bits (w 0) 17 16 else 0
        let d := (d.asksCommand (fecNode q 0) x.item).reads (fecNode q 0) [(addrOf cmd 8, 2 * n),
          (addrOf cmd 10, 2 * (mo * n)), (addrOf cmd 12, 2 * (mo * n)), (addrOf cmd 14, 2 * ceilDiv (fTbs w) 32768)]
        match d.tileList (addrOf cmd 8) n, d.tileList (addrOf cmd 10) (mo * n), d.tileList (addrOf cmd 12) (mo * n),
            d.tileList (addrOf cmd 14) (ceilDiv (fTbs w) 32768) with
        | some ll, some ol, some xl, some out =>
          let eng := d.engine (engKey 4 q)
          let d := d.setEngine (engKey 4 q) { eng with
            queue := eng.queue.map (fun r => if r.item = x.item then { r with started := true } else r) }
          let c := { fecCmd0 x.item cmd with llrTiles := ll, ollrTiles := ol, xtTiles := xl, outTiles := out }
          let g := d.grp q
          let mine := g.store.filter (fun s => c.takes s.2)
          let d := d.setGrp q { g with cmds := g.cmds ++ [c], store := g.store.filter (fun s => !c.takes s.2) }
          let d := if d.sbBlocked q c then d
            else match d.sbRead q c with
              | (d, c) => d.setCmd q c
          mine.foldl (fun (d : Device) s => match d.fecCmd? q x.item with
            | some c => d.fecMatch q c s.1 s.2
            | none => d) d
        | _, _, _, _ => d.fecErr q x.item cmd 4

/-! ### Jobs (R279 to R281) -/

/-- Reads a block's LLR tiles, with the label check of R280; erased tiles are zeros. -/
def Device.llrRead (d : Device) (q : Nat) (c : FecCmd) (r : Nat) : Device × List Byte × Nat :=
  let w := c.w
  let o := fOfs w r
  let n := llrTiles (fE w r)
  let ts := if c.pass = 0 then (c.llrTiles.drop o).take n else (c.ollrTiles.drop ((c.pass - 1) * fTiles w + o)).take n
  ts.zipIdx.foldl (fun (a : Device × List Byte × Nat) t =>
    match a.1.engineRead t.1 (fecNode q 0) with
    | (d, none) => (d.count (FEC_CNT_ERASE_COUNT q) 1, a.2.1 ++ zeroTile, a.2.2 + 1)
    | (d, some bs) =>
      let h := d.tile t.1
      let first := t.2 + 2 ^ 14 * (if fUci w then bits (w 3) 31 30 + 1 else 0)
      if d.on FEC_CTRL_LABEL_CHECK && (h.carrier != fCarrier w || h.slot != w 1 % 65536 || h.port != fEntry w ||
          !h.kind || h.first != first) then
        ((d.grpCause q FEC_GRP_CAUSE_LABEL).count (FEC_CNT_ERASE_COUNT q) 1, a.2.1 ++ zeroTile, a.2.2 + 1)
      else (d, a.2.1 ++ bs, a.2.2)) (d, [], 0)

/-- The stored region of a block, when VALID and answered OKAY; whether a valid one was unreadable. -/
def Device.region (d : Device) (c : FecCmd) (r : Nat) : Option (List Byte) × Bool :=
  if bit (c.w 0) 21 && !bit (c.w 0) 18 && bit c.sbValid r then
    let x := d.fetch (sbRegion c.w r) (max 1 (ceilDiv (fNcbOf c.w r) 2))
    (x, x.isNone)
  else (none, false)

/-- What a decoder works on: the LLRs brought to circular-buffer order and added, then combined with the stored region (R280,
R295); the LLRs as they come for a code without a circular buffer here. -/
def Device.softOf (d : Device) (c : FecCmd) (r : Nat) (bs : List Byte) (rg : Option (List Byte)) : List Int :=
  let llrs := (bs.take (fE c.w r)).map llrOf
  if fCode c.w = 0 then llrs
  else
    let n := (fRm c.w r).recover llrs
    match rg with
    | some s => List.zipWith (combine (d.get FEC_CTRL_SB_SHIFT)) (unpackLlr4 s) n
    | none => n.map sat127

/-- Iterations after which a block is satisfied: its syndrome is zero, a kernel, or a turbo block's CRC passes; none within the
cap (R280, R287). -/
def satAt (w : Nat → Nat) (r cap : Nat) (soft : List Int) : Option Nat :=
  ((List.range cap).map (· + 1)).find? (fun l =>
    if fOp w = 4 then decOk w (decBits w r l soft) else Config.kernel 31 (l :: decPars w r soft) [] 0 % 2 == 1)

/-- Iterations of a pass and whether the block is satisfied: mandatory iterations, then what the ledger grants (R281); whether
it refused. Turbo blocks run to their cap, and the codes decoded at once count what a kernel says. -/
def Device.iterate (d : Device) (c : FecCmd) (r : Nat) (soft : List Int) : Device × Nat × Bool × Bool :=
  let w := c.w
  let cap := min (bits (w 0) 30 26) (max 1 (d.get FEC_CTRL_MAX_ITER))
  match fOp w with
  | 1 =>
    match satAt w r (min cap 5) soft with
    | some l => (d, l, true, false)
    | none =>
      if cap ≤ 5 then (d, cap, false, false)
      else match d.askEnergy 2 (d.item c.item).panel (1000 * 2 ^ d.get FEC_CTRL_XITER_ECLASS) with
        | (true, d) => (d, (satAt w r cap soft).getD cap, (satAt w r cap soft).isSome, false)
        | (false, d) => (d, 5, false, true)
  | 4 => (d, (satAt w r cap soft).getD cap, true, false)
  | _ => (d, Config.kernel 31 (decPars w r soft) [] 0 % 32, true, false)

/-- The jobs an engine may take: of its group, its kind and its panel, none behind an open command
with the same soft buffer; by due edge, then arrival (R279). -/
def Device.pickJob (d : Device) (e : Nat) : Option (FecCmd × Nat) :=
  let q := engGroup e
  let jobs := (d.grp q).cmds.flatMap (fun c =>
    if opEngine (fOp c.w) e && d.fecMember (d.item c.item).panel e && !d.sbBlocked q c then
      c.cbs.zipIdx.filterMap (fun b => match b.1.st with
        | .queued n => some (c, b.2, n)
        | _ => none)
    else [])
  (jobs.foldl (fun (b : Option (FecCmd × Nat × Nat)) j => match b with
    | none => some j
    | some k =>
      let dj := d.toDue (d.item j.1.item)
      let dk := d.toDue (d.item k.1.item)
      if dj < dk || (dj == dk && decide (j.2.2 < k.2.2)) then some j else b) none).map (fun j => (j.1, j.2.1))

/-- Whether an engine runs a job. -/
def Device.fecBusy (d : Device) (e : Nat) : Bool :=
  (d.grp (engGroup e)).cmds.any (fun c => c.cbs.any (fun b => b.st == .decoding e))

/-- A free decoder takes its first job: inputs read, soft buffer combined, iterations settled; a block
whose every tile is erased and that has no stored region is not decoded (R280, R281, R299). -/
def Device.jobStart (d : Device) (e : Nat) : Device :=
  let q := engGroup e
  if d.fecBusy e || d.fecFenced e then d
  else match d.pickJob e with
    | none => d
    | some (c, r) =>
      match (if c.sbRead then (d, c) else d.sbRead q c) with
      | (d, c) =>
      let rg := d.region c r
      let d := if rg.1.isSome || rg.2 then d.asks (fecNode q 0) (sbRegion c.w r) (max 1 (ceilDiv (fNcbOf c.w r) 2)) false else d
      let d := if rg.2 then (d.count (FEC_CNT_SB_LOST_COUNT q) 1).grpCause q FEC_GRP_CAUSE_SB_LOST else d
      let c := if rg.2 then { c with sbLost := true } else c
      match d.llrRead q c r with
      | (d, bs, eras) =>
        let b := c.cbs.getD r codeBlock0
        let soft := d.softOf c r bs rg.1
        if eras = llrTiles (fE c.w r) && rg.1.isNone then
          let b := { b with st := CbState.unsatisfied, erased := eras, soft := soft, iters := 0 }
          (d.setCmd q { c with cbs := c.cbs.set r b, started := true }).fecAdvance q c.item
        else match d.iterate c r soft with
          | (d, it, sat, den) =>
            let d := if den then d.count (FEC_CNT_XITER_DENIED_COUNT q) 1 else d
            d.setCmd q { c with
              cbs := c.cbs.set r { b with
                st := .decoding e, iters := it, satisfied := sat, erased := eras, soft := soft }
              started := true, xDenied := c.xDenied || den }

/-! ### Results (R283 to R287, R292, R298) -/

/-- The LLRs of XT block p for a code block at its rate-matched places: its codeword as ±127 when it is satisfied, else the
extrinsic LLRs of its last iteration (R298). -/
def xtLlr (c : FecCmd) (r : Nat) (b : CodeBlock) (i : Nat) : Int :=
  let m := fRm c.w r
  if b.satisfied then (if m.code_ (decBits c.w r b.iters b.soft) (m.pos i) then -127 else 127)
  else kint 33 (b.iters :: m.pos i :: decPars c.w r b.soft) [] 0

/-- Writes XT block p for one code block, and tells the entry's loop unit where its latest output lies (R267, R298). -/
def Device.xtWrite (d : Device) (q : Nat) (c : FecCmd) (r : Nat) (b : CodeBlock) : Device :=
  if !fLoop c.w || bits (c.w 0) 17 16 ≤ c.pass then d
  else
    let n := llrTiles (fE c.w r)
    let ts := (c.xtTiles.drop (c.pass * fTiles c.w + fOfs c.w r)).take n
    let d := ts.zipIdx.foldl (fun (d : Device) t =>
      let cnt := min 4096 (fE c.w r - 4096 * t.2)
      let inl := openWord (c.w 1) (fCarrier c.w) 15 5 (fEntry c.w) true t.2
      let bs := (List.range cnt).map (fun i => llrByte (xtLlr c r b (4096 * t.2 + i)))
      d.putTile (fecNode q 0) t.1 inl (padTile bs) (min 255 b.erased) cnt false true) d
    { d with loops := d.loops.map (fun l =>
        if l.carrier = fCarrier c.w && l.entry = fEntry c.w && l.slot = c.w 1 then { l with xt := tabSet (fun _ => []) l.xt r ts }
        else l) }

/-- A decoder finishes its code block; whether it is the cycle of the command's due edge, in which no PROVISIONAL record is
written (R283, R284, R287, R292). -/
def Device.jobDone (d : Device) (e : Nat) (edge : Bool) : Device :=
  let q := engGroup e
  match (d.grp q).cmds.find? (fun c => c.cbs.any (fun b => b.st == .decoding e)) with
  | none => d
  | some c =>
    let r := c.cbs.findIdx (fun b => b.st == .decoding e)
    let b := c.cbs.getD r codeBlock0
    let d := (d.count (FEC_CNT_CB_COUNT q) 1).count (FEC_CNT_ITER_COUNT q) b.iters
    let d := d.xtWrite q c r b
    if !b.satisfied then
      (d.setCmd q { c with cbs := c.cbs.set r { b with st := .unsatisfied } }).fecAdvance q c.item
    else
      let bs := decBits c.w r b.iters b.soft
      let d := if b.iters < bits (c.w 0) 30 26 then d.count (FEC_CNT_EARLY_COUNT q) 1 else d
      let d := d.outBits q c r (ownBits c.w r bs)
      let b := { b with st := CbState.checking, pass := c.pass, bits_ := bs, seq := none }
      let g := d.grp q
      let d := d.setGrp q { g with checkQ := g.checkQ ++ [(c.item, r)] }
      if fOp c.w = 1 && !(edge && decide (d.toDue (d.item c.item) ≤ 0)) then
        match d.provPut q (fun s => d.provBytes c 1 r c.pass s 0 b.iters b.erased (bitOfs c.w r) (nBits c.w r) 0) with
        | (d, s, okw) =>
          let c := { c with cbs := c.cbs.set r { b with seq := some s, open_ := okw }, provLost := c.provLost || !okw }
          (d.setCmd q c).fecAdvance q c.item
      else (d.setCmd q { c with cbs := c.cbs.set r b }).fecAdvance q c.item

/-- The check unit takes the next code block: CONFIRM or RETRACT for LDPC, with the SEQ of its PROVISIONAL record; its CRC
alone for the others; a small-block decode carries none (R284, R287). -/
def Device.check (d : Device) (q : Nat) : Device :=
  let g := d.grp q
  match g.checkQ with
  | [] => d
  | p :: t =>
    let d := d.setGrp q { g with checkQ := t }
    match d.fecCmd? q p.1 with
    | none => d
    | some c =>
      let r := p.2
      let b := c.cbs.getD r codeBlock0
      let pass := decOk c.w b.bits_
      let w := match b.seq with
        | some ref => d.provPut q (fun s => d.provBytes c (if pass then 2 else 3) r b.pass s ref b.iters b.erased
            (bitOfs c.w r) (nBits c.w r) 0)
        | none => (d, 0, true)
      let c := if w.2.2 then c else { c with provLost := true }
      let d := if !pass && b.seq.isSome then (w.1.count (FEC_CNT_RETRACT_COUNT q) 1).tally 11 1 else w.1
      let c := { c with cbs := c.cbs.set r { b with open_ := false } }
      let x := if pass then
          let c := { c with cbs := c.cbs.set r { b with st := CbState.confirmed, open_ := false } }
          (d.setCmd q c, c)
        else (d.setCmd q c).blockFail q c r 1
      x.1.tbEnd q x.2

/-! ### Expiry and faults (R300, R301) -/

/-- The expiry action of a decode command, open or still queued. -/
def Device.fecExpire (d : Device) (q item : Nat) : Device :=
  let d := d.grpCause q FEC_GRP_CAUSE_EXPIRED
  match d.fecCmd? q item with
  | some c =>
    let g := d.grp q
    let d := d.setGrp q { g with store := g.store.filter (fun s => !c.takes s.2) }
    let d := c.outTiles.foldl (fun (d : Device) t => d.sealLate (fecNode q 0) t) d
    let d := if c.started then d.sbWrite q c true else d
    (d.cmplOf q c 1 3).fecClose q item 2 c.eras
  | none =>
    let cmd := (d.command item).getD (zeroTile.take 64)
    let c := { fecCmd0 item cmd with
      outTiles := (d.tileList (addrOf cmd 14) (ceilDiv (fTbs (wordAt cmd)) 32768)).getD [] }
    (d.cmplOf q c 1 3).report 4 q item 2 0

/-- A fenced engine's jobs go back to the queue; commands with no engine of the kind left end FAULT. -/
def Device.fecFence (d : Device) (e : Nat) : Device :=
  let q := engGroup e
  let g := d.grp q
  let d := d.setGrp q { g with cmds := g.cmds.map (fun c => { c with
    cbs := c.cbs.map (fun b => if b.st == .decoding e then { b with st := .queued 0 } else b) }) }
  let d := d.cause (FEC_ENG_EV_CAUSE_FENCED e) (320 + e)
  ((d.grp q).cmds.map (·.item)).foldl (fun (d : Device) i => match d.fecCmd? q i with
    | none => d
    | some c =>
      if opEngine (fOp c.w) e && !(List.range 24).any (fun x => engGroup x == q && opEngine (fOp c.w) x && !d.fecFenced x)
      then
        let c := { c with cbs := c.cbs.map (fun b => if b.st == .confirmed then b else { b with st := .failed }) }
        d.tbFail q c 4 3
      else d) d

/-! ### Meanings -/

/-- LDPC_DEC (R280). -/
def execLdpcDec (q : Fin 4) (s : State) : Host.Outcome State Fault Refusal := s.run (fun d => d.fecOpen q.val 1)
/-- POLAR_DEC (R287). -/
def execPolarDec (q : Fin 4) (s : State) : Host.Outcome State Fault Refusal := s.run (fun d => d.fecOpen q.val 2)
/-- SHORT_DEC (R287). -/
def execShortDec (q : Fin 4) (s : State) : Host.Outcome State Fault Refusal := s.run (fun d => d.fecOpen q.val 3)
/-- TURBO_DEC (R287). -/
def execTurboDec (q : Fin 4) (s : State) : Host.Outcome State Fault Refusal := s.run (fun d => d.fecOpen q.val 4)
/-- TBCC_DEC (R287). -/
def execTbccDec (q : Fin 4) (s : State) : Host.Outcome State Fault Refusal := s.run (fun d => d.fecOpen q.val 5)
/-- CODE_BLOCK_DOORBELL from a node (R278). -/
def execCodeBlockDoorbell (q : Fin 4) (src : BitVec 10) (inl : BitVec 64) (s : State) :
    Host.Outcome State Fault Refusal :=
  s.run (fun d => (d.bellGone (fecNode q.val 0) src.toNat inl.toNat).fecBell q.val src.toNat
    (putBits inl.toNat 55 54 0))

/-- LOOP_END_DOORBELL from a node (R297). -/
def execLoopEndDoorbell (q : Fin 4) (src : BitVec 10) (inl : BitVec 64) (s : State) :
    Host.Outcome State Fault Refusal :=
  s.run (fun d => (d.bellGone (fecNode q.val 0) src.toNat inl.toNat).fecBell q.val src.toNat
    (putBits inl.toNat 55 54 1))

/-- DECODE_JOB_START at engine e (R279). -/
def execDecodeJobStart (e : Fin 24) (s : State) : Host.Outcome State Fault Refusal := s.run (fun d => d.jobStart e.val)

/-- CODE_BLOCK_DECODED at engine e, in the cycle of its command's due edge or not (R283, R292). -/
def execCodeBlockDecoded (e : Fin 24) (edge : Bool) (s : State) : Host.Outcome State Fault Refusal :=
  s.run (fun d => d.jobDone e.val edge)

/-- CODE_BLOCK_CHECK (R284). -/
def execCodeBlockCheck (q : Fin 4) (s : State) : Host.Outcome State Fault Refusal := s.run (fun d => d.check q.val)

/-- HELD_RECORD_WRITE (R289). -/
def execHeldRecordWrite (q : Fin 4) (s : State) : Host.Outcome State Fault Refusal :=
  s.run (fun d =>
    let g := d.grp q.val
    match g.held with
    | [] => d
    | bs :: t => match d.cmplPut q.val bs with
      | none => d
      | some d => d.setGrp q.val { d.grp q.val with held := t })

end Sys2Proof.Machine
end

