-- ==== Sys2Proof/Machine/Encode.lean ====
section
/-! DEFINITION. The encode commands of the FEC groups (R307, R313 to R316). -/

namespace Sys2Proof.Machine
open R

/-- The checks of an encode command (R314 with R277's codes), the list fetches apart. -/
def encCheck (w : Nat → Nat) : Nat :=
  let a := fTbs w
  let op := fOp w
  if op < 8 || 11 < op then 1
  else if a = 0 || 5 < bits (w 3) 26 24 then 2
  else if op = 8 && (bits (w 2) 31 24 ≠ nrC a (bit (w 3) 29) || bit (w 3) 29 ≠ nrBg2 a (bits (w 3) 23 0)) then 3
  else if op = 10 && bits (w 2) 31 24 ≠ lteC a then 3
  else if bit (w 0) 16 && w 6 % 2 ≠ 0 then 5
  else if !bit (w 0) 16 && (w 6 % 64 ≠ 0 || 2 ^ 6 ≤ bits (w 7) 15 0) then 5
  else 0

/-- The transport block's bits, when every byte is read with OKAY, and the tiles that are erased or muted (R306,
R307). -/
def Device.encInput (d : Device) (q : Nat) (cmd : List Byte) (tiles : List Nat) : Device × Option (List Byte) × Nat :=
  let w := wordAt cmd
  let n := ceilDiv (fTbs w) 8
  if !bit (w 0) 16 then (d, d.fetch (addrOf cmd 6) n, 0)
  else
    let r := tiles.foldl (fun (a : Device × List (Option (List Byte))) t =>
      let x := a.1.engineRead t (fecNode q 1)
      (x.1, a.2 ++ [if (x.1.tile t).mute then none else x.2])) (d, [])
    let dead := (r.2.filter (·.isNone)).length
    (r.1, if dead = 0 then some ((r.2.filterMap id).flatten.take n) else none, dead)

/-- The bits of a codeword (R314): segmented, coded and rate-matched blocks of LDPC and turbo codes; polar and tail-biting
codewords a kernel of the payload with its CRC, a DCI's masked with the RNTI (TS 38.212 clause 7.3.2, TS 36.212 clause
5.3.3.2; log entry 52). -/
def encBits (w : Nat → Nat) (tb : List Bool) : List Bool :=
  if fCode w ≠ 0 then (List.range (fC w)).flatMap (fun r => (fRm w r).out (blockInfo w tb r))
  else
    let mask := if bit (w 3) 29 then 0 else bits (w 5) 15 0
    let bs := if fOp w = 9 then (crcAttach 2 mask (List.replicate (if bit (w 3) 29 then 0 else 24) true ++ tb)).drop
        (if bit (w 3) 29 then 0 else 24)
      else crcAttach 3 mask tb
    (List.range (bits (w 3) 23 0)).map (fun i =>
      Config.kernel 37 (fOp w :: b2n (bit (w 3) 29) :: bits (w 3) 23 0 :: i :: bs.map b2n) [] 0 % 2 == 1)

/-- Writes the codeword, or zeros with MUTE (R307, R314), with the erased inputs (R306). -/
def Device.encOut (d : Device) (q : Nat) (cmd : List Byte) (out : List Nat) (input : Option (List Byte)) (eras : Nat) : Device :=
  let w := wordAt cmd
  let total := ceilDiv (bits (w 3) 23 0) 8
  let code := match input with
    | some i => packBits0 (encBits w ((List.range (fTbs w)).map (packedBit i)))
    | none => []
  out.zipIdx.foldl (fun (d : Device) t =>
    let n := min 4096 (total - 4096 * t.2)
    let inl := openWord (w 1) (fCarrier w) 15 7 (fEntry w) true t.2
    if input.isSome then d.putTile (fecNode q 0) t.1 inl (padTile (code.drop (4096 * t.2))) 0 n false false
    else (d.putTile (fecNode q 0) t.1 inl zeroTile (min 255 eras) n true false).count (FEC_ENC_CNT_MUTED_COUNT q) 1) d

/-- The front encode command of a group, when its OP is op or reserved and the panel has an engine. -/
def Device.encRun (d : Device) (q op : Nat) : Device :=
  match d.front 5 q with
  | none => d
  | some x =>
    let err := fun (d : Device) (code : Nat) =>
      ((d.put (FEC_ENC_ERR_CODE q) code).encCause q FEC_ENC_CAUSE_CMD_ERR).report 5 q x.item 4 0
    match d.command x.item with
    | none => err d 4
    | some cmd =>
      let w := wordAt cmd
      if fOp w ≠ op && 8 ≤ fOp w && fOp w ≤ 11 then d
      else if encCheck w ≠ 0 then err d (encCheck w)
      else if !(List.range 24).any (fun e => engGroup e == q && opEngine op e && d.fecMember (d.item x.item).panel e &&
          !d.fecFenced e) then d
      else
        let d := (d.asksCommand (fecNode q 1) x.item).reads (fecNode q 1)
          [(addrOf cmd 6, if bit (w 0) 16 then 2 * ceilDiv (fTbs w) 32768 else ceilDiv (fTbs w) 8),
            (addrOf cmd 8, 2 * ceilDiv (bits (w 3) 23 0) 32768)]
        match (if bit (w 0) 16 then d.tileList (addrOf cmd 6) (ceilDiv (fTbs w) 32768) else some []),
          d.tileList (addrOf cmd 8) (ceilDiv (bits (w 3) 23 0) 32768) with
        | some il, some out =>
          match d.encInput q cmd il with
          | (d, none, eras) => ((d.encOut q cmd out none eras).encCause q FEC_ENC_CAUSE_IN_ERASED).report 5 q x.item 0 0
          | (d, some i, _) =>
            ((d.encOut q cmd out (some i) 0).count (FEC_ENC_CNT_CB_COUNT q)
              (if op = 8 || op = 10 then bits (w 2) 31 24 else 1)).report 5 q x.item 0 0
        | _, _ => err d 4

/-! ### Meanings -/

/-- LDPC_ENC (R314). -/
def execLdpcEnc (q : Fin 4) (s : State) : Host.Outcome State Fault Refusal := s.run (fun d => d.encRun q.val 8)
/-- POLAR_ENC (R314). -/
def execPolarEnc (q : Fin 4) (s : State) : Host.Outcome State Fault Refusal := s.run (fun d => d.encRun q.val 9)
/-- TURBO_ENC (R314). -/
def execTurboEnc (q : Fin 4) (s : State) : Host.Outcome State Fault Refusal := s.run (fun d => d.encRun q.val 10)
/-- TBCC_ENC (R314). -/
def execTbccEnc (q : Fin 4) (s : State) : Host.Outcome State Fault Refusal := s.run (fun d => d.encRun q.val 11)

end Sys2Proof.Machine
end

