-- ==== Sys2Proof/Machine/Loop.lean ====
section
/-! DEFINITION. The loop unit of the matrix engines: the checks at the end of a decode pass, and outer passes (R265 to R269). -/

namespace Sys2Proof.Machine
open R

/-! ### Entries of the loop unit -/

/-- The command a loop's entry is of, and its words. -/
def LoopEnt.job (l : LoopEnt) : MeJob := ⟨l.cmd, [], [], l.tab⟩
def LoopEnt.e (l : LoopEnt) : Nat → Nat := wordAt (l.job.ent l.entry)

/-- Whether a doorbell is of a loop that has not ended. -/
def LoopEnt.takes (l : LoopEnt) (m inl : Nat) : Bool :=
  l.me == m && l.carrier == bits inl 5 0 && l.entry == bits inl 10 6 && l.slot == bits inl 51 20 && !l.done

/-- The loop of a doorbell ends. -/
def Device.loopDone (d : Device) (m inl : Nat) : Device :=
  { d with loops := d.loops.map (fun l => if l.takes m inl then { l with done := true } else l) }

/-- Ends the loop of an entry with LOOP_END. -/
def Device.loopEnd (d : Device) (m src inl p : Nat) : Device :=
  (d.loopDone m inl).bell src (meNode m) (bits inl 10 0 + 2 ^ 20 * bits inl 51 20 + 2 ^ 52 * p + 2 ^ 54)

/-! ### Outer passes (R267) -/

/-- The first bit of code block r in the codeword. -/
def cbBase (e : Nat → Nat) (r : Nat) : Nat := ((List.range r).map (eE e)).sum

/-- The data symbols in which some code blocks have bits. -/
def blockSyms (c : Comb) (rs : List Nat) : List Nat :=
  (dataSyms false c.e).filter (fun s => rs.any (fun r => (List.range (eE c.e r)).any (fun i =>
    (c.place 0 (cbBase c.e r + i)).2.1 == s)))

/-- The code blocks with bits in some symbols. -/
def symBlocks (c : Comb) (syms : List Nat) : List Nat :=
  (List.range (eCb c.e)).filter (fun r => (blockSyms c [r]).any syms.contains)

/-- A tile an outer pass has read, as a kernel sees it: none for an erasure. -/
def Device.passRead (d : Device) (m : Nat) (ts : List Nat) : Device × List (Nat × Option (List Byte)) :=
  ts.foldl (fun (a : Device × List (Nat × Option (List Byte))) t =>
    let r := a.1.engineRead t (meNode m)
    (r.1, a.2 ++ [(t, r.2)])) (d, [])

/-- The latest decoder output of bit n of an entry's codeword: 0 without one, else 1 more than the LLR's byte (R267). -/
def softBit (l : LoopEnt) (read : List (Nat × Option (List Byte))) (n : Nat) : Nat :=
  let e := l.e
  match (List.range (eCb e)).find? (fun r => decide (n < cbBase e (r + 1))) with
  | none => 0
  | some r =>
    let i := n - cbBase e r
    match (tabGet (fun _ => []) l.xt r)[i / 4096]? with
    | none => 0
    | some t => match (read.find? (fun p => p.1 == t)).bind (·.2) with
      | none => 0
      | some bs => 1 + (bs.getD (i % 4096) 0).toNat

/-- What is known of a layer's symbol at subcarrier k of an entry's range: the latest outputs of its bits. -/
def softRe (c : Comb) (l : Option LoopEnt) (read : List (Nat × Option (List Byte))) (layer s k : Nat) : List Nat :=
  match l with
  | none => []
  | some x => (List.range (eQm c.e)).map (fun b =>
      match (List.range (bits (c.e 4) 23 0)).find? (fun n =>
          let q := c.place 0 n
          q.1 == layer && q.2.1 == s && q.2.2.1 == k && q.2.2.2.1 == b) with
      | some n => softBit x read n
      | none => 0)

/-- Outer pass p of an entry: the combined symbols of the affected data symbols, the products, and the latest decoder output of
the layers beside them are read; the others cancelled and the unsatisfied code blocks demapped anew, with PROV, and rung
(R267). -/
def Device.outerPass (d : Device) (m src p : Nat) (l : LoopEnt) (cmd : FecCmd) : Device :=
  let j := l.job
  let es := j.ents.map wordAt
  let e := l.e
  let w := j.w
  let us := (List.range cmd.cbs.length).filter (fun r => (cmd.cbs.getD r codeBlock0).st == .unsatisfied)
  let comb := fun (i : Nat) (prod : List Byte) =>
    (⟨w, es, es.getD i e, prod, [], fun _ => [], d.get MXE_CTRL_LLR_FRAC⟩ : Comb)
  let syms := blockSyms (comb l.entry []) us
  let all := dataSyms false e
  let nt := zTilesPer e
  let zAt := fun (layer s t : Nat) => (layer * all.length + all.findIdx (· == s)) * nt + t
  let zIdx := (List.range (eNl e)).flatMap (fun y => syms.flatMap (fun s => (List.range nt).map (zAt y s)))
  let zs := (d.entList (j.ent l.entry) 14 (zTiles e)).getD []
  let others := (coSet es e).map (fun i => (i, d.loops.find? (fun x => x.carrier == l.carrier && x.entry == i && x.slot == l.slot)))
  let want := others.flatMap (fun o => match o.2 with
    | none => []
    | some x => (if o.1 = l.entry then us else symBlocks (comb o.1 []) syms).flatMap (fun r => tabGet (fun _ => []) x.xt r))
  match d.passRead m (zIdx.map (fun i => zs.getD i 65535)) with
  | (d, zr) =>
    match d.products m j l.entry with
    | (d, prod, _) =>
      match d.passRead m want with
      | (d, xr) =>
        let c := comb l.entry (prod.getD [])
        let eras := ((zr ++ xr).filter (·.2.isNone)).length + b2n prod.isNone
        let z := fun (y s k : Nat) => match zr.find? (fun q => q.1 == zs.getD (zAt y s (k / 1020)) 65535) with
          | some (_, some bs) => (List.range 2).map (fun i => toSigned 16 (leNat ((bs.drop (4 * (k % 1020) + 2 * i)).take 2)))
          | _ => [0, 0]
        let llr := fun (n : Nat) =>
          let q := c.place 0 n
          let s := q.2.1
          let k := q.2.2.1
          let beside := others.flatMap (fun o =>
            let oc := comb o.1 []
            let k' := 12 * ePrbAt e s + k - 12 * ePrbAt oc.e s
            if eCovers oc.e (ePrbAt e s + k / 12) s then (List.range (eNl oc.e)).flatMap (fun y =>
              if o.1 = l.entry && y = q.1 then [512] else 513 :: softRe oc o.2 xr y s k') else [])
          let row := c.cut (c.map.row (occAt e s) (k / 12) q.1) (4 * c.map.lt)
          let v := kint 16 (bits (e 0) 23 21 :: q.2.2.2.1 :: c.frac :: (codes (z q.1 s k) ++ beside)) (c.gain q.1 s k ++ row) 0
          if goldBit (scrInit w (bits (e 0) 15 0) (bits (e 3) 25 16)) q.2.2.2.2 then -v else v
        let ts := (d.tileList (addrOf (j.ent l.entry) 14 + 2 * (zTiles e + (p - 1) * eLlrTiles e)) (eLlrTiles e)).getD []
        let d := us.foldl (fun (d : Device) r =>
          let o := ((List.range r).map (fun k => llrTiles (eE e k))).sum
          let d := d.llrStream m l.entry w ((ts.drop o).take (llrTiles (eE e r))) (eE e r) 0
            (fun i => llr (cbBase e r + i)) (fun _ => eras) true
          d.bell src (meNode m) (llrBell w l.entry r 0 p)) d
        d.count (MXE_CNT_OUTER_COUNT m) 1

/-! ### The end of a decode pass (R266, R268) -/

/-- The panel that holds a matrix engine, for its requests of energy (R485). -/
def Device.mePanel (d : Device) (m : Nat) : Nat := ((List.range 20).find? (fun p => bit (d.panelWord p 2) m)).getD 31

/-- A PASS_END at a loop unit, into nanoseconds after the last base tick edge: the three checks of R266 in order, then an outer
pass or LOOP_END. None is made in the cycle of the decode's due edge or after it (R268). -/
def Device.passEnd (d : Device) (m src inl into : Nat) : Device :=
  if bits inl 18 11 = 0 then d.loopDone m inl
  else
    let p := bits inl 53 52
    match d.loops.find? (fun l => l.takes m inl), (d.grp (nodeQuad src)).cmds.find? (fun c => c.wait &&
        fCarrier c.w == bits inl 5 0 && fEntry c.w == bits inl 10 6 && c.w 1 % 2 ^ 32 == bits inl 51 20) with
    | some l, some c =>
      let left := d.toDue (d.item c.item) - into
      if left ≤ 0 then d
      else if !l.eligible || min (bits (l.e 0) 27 26) (d.get MXE_ITER_CFG_MAX) ≤ l.runs then d.loopEnd m src inl p
      else if left < 1000 * d.get MXE_ITER_CFG_COST_US then
        ((d.count (MXE_CNT_OUTER_REF_COUNT m) 1).loopCause m MXE_LOOP_CAUSE_NO_SLACK).loopEnd m src inl p
      else match d.askEnergy 1 (d.mePanel m) (1000 * 2 ^ d.get MXE_ITER_CFG_ECLASS) with
        | (false, d) =>
          ((d.count (MXE_CNT_OUTER_REF_COUNT m) 1).loopCause m MXE_LOOP_CAUSE_NO_ENERGY).loopEnd m src inl p
        | (true, d) =>
          let d := { d with loops := d.loops.map (fun (x : LoopEnt) => if x.takes m inl then { x with runs := x.runs + 1 } else x) }
          d.outerPass m src (l.runs + 1) l c
    | _, _ => d.loopEnd m src inl p

/-! ### Meanings -/

/-- PASS_END_RX, into nanoseconds after the last base tick edge (R266). -/
def execPassEndRx (m : Fin 4) (src : BitVec 10) (inl : BitVec 64) (into : Nat) (s : State) :
    Host.Outcome State Fault Refusal :=
  s.run (fun d => (d.bellGone (meNode m.val) src.toNat inl.toNat).passEnd m.val src.toNat inl.toNat into)

end Sys2Proof.Machine
end

