-- ==== Sys2Proof/Machine/Tbc.lean ====
section
/-! DEFINITION. The Timing and Beam Control Ports (R327 to R336). -/

namespace Sys2Proof.Machine
open R

def Device.port (d : Device) (p : Nat) : Tbcp := tabGet (fun _ => tbcp0) d.tbcp p
def Device.setPort (d : Device) (p : Nat) (x : Tbcp) : Device := { d with tbcp := tabSet (fun _ => tbcp0) d.tbcp p x }

/-- Causes of a port and the events they raise (R336). -/
def Device.tbcErr (d : Device) (p : Nat) (f : Nat → Fld) : Device := d.cause (f p) (153 + 4 * p)
def Device.tbcClk (d : Device) (p : Nat) (f : Nat → Fld) : Device := d.cause (f p) (154 + 4 * p)

/-- DATA follows the active bank at ADDR, and is low while the port clock has not seen EN (R328, R335). -/
def Device.tbcDrive (d : Device) (p : Nat) : Device :=
  let x := d.port p
  let v := if x.live then d.word (TBC_TABLE p (d.get (TBC_STATUS_SEL p)) x.addr) else 0
  d.setPort p { x with data := v }

/-- Numerology μ of slot length r. -/
def muOf (r : Nat) : Nat := if r = 8 then 0 else if r = 4 then 1 else if r = 2 then 2 else 3

/-- Start of symbol s of a slot after its carrier tick edge, in units of 1 / 30,720 ms: 2,192 / 2^μ
for each symbol before it, and 16 more for each of them with the long prefix (R330). -/
def symStart (r slot s : Nat) : Nat :=
  ((List.range s).map (fun i => 2192 / 2 ^ muOf r + (if longSymbol r slot i then 16 else 0))).sum

/-- The boundary of a slot's symbol after the last base tick edge, in units of 1 / 30,720 ns-thousandths:
nanoseconds times 30,720 (R330, R53). -/
def Device.boundary (d : Device) (p slot sym : Nat) : Int :=
  let r := d.carrierR (d.get (TBC_CTRL_CARRIER p))
  let n := nearTick 16 (d.carrierTickI r) slot
  (n * r - d.sinceF) * (125000 * 30720) + 1000000 * (symStart r (n % 4).toNat sym : Nat)

/-- Times of a pending swap's window, in the units of boundary. -/
def Device.winOpens (d : Device) (p slot sym : Nat) : Int :=
  d.boundary p slot sym - 8 * 30720 * (d.get (TBC_TIMING_ARM_LEAD p) : Nat)
def Device.winCloses (d : Device) (p slot sym : Nat) : Int :=
  d.boundary p slot sym + 8 * 30720 * (d.get (TBC_TIMING_STB_WAIT p) : Nat)

/-- The swap: SEL changes, PENDING clears, and TBC_LAST_SWAP is written (R331). -/
def Device.tbcSwap (d : Device) (p slot sym : Nat) (noStrobe : Bool) : Device :=
  let sel := 1 - d.get (TBC_STATUS_SEL p)
  let d := ((d.put (TBC_STATUS_SEL p) sel).put (TBC_STATUS_PENDING p) 0).put (TBC_STATUS_WIN_OPEN p) 0
  let d := (((d.put (TBC_LAST_SWAP_SLOT p) slot).put (TBC_LAST_SWAP_SYMBOL p) sym).put (TBC_LAST_SWAP_SEL p) sel).put
    (TBC_LAST_SWAP_NO_STROBE p) (b2n noStrobe)
  let d := (d.count (TBC_CNT_SWAP_COUNT p) 1).put (TBC_EV_CAUSE_SWAP p) 1
  let d := if d.on (TBC_CTRL_EV_SWAP p) then d.pulse (152 + 4 * p) else d
  let d := if noStrobe then d.tbcErr p TBC_EV_CAUSE_NO_STROBE else d
  (d.setPort p { d.port p with swap := none, due := none }).tbcDrive p

/-- Rising edges of the port clock since the last event of the port, when there were any: EN is sampled, and a swap that is due
takes place (R331, R335). -/
def Device.tbcEdge (d : Device) (p : Nat) (edge : Bool) : Device :=
  if !edge then d
  else
    let d := (d.setPort p { d.port p with live := d.on (TBC_CTRL_EN p) }).tbcDrive p
    match (d.port p).swap, (d.port p).due with
    | some (slot, sym), some quiet => d.tbcSwap p slot sym quiet
    | _, _ => d

/-- Whether the port clock has had an edge before a register access, where it matters: a measured fact (log entry 5). -/
def Device.tbcSeen (d : Device) (p : Nat) : Device :=
  let x := d.port p
  if x.due.isNone && x.live == d.on (TBC_CTRL_EN p) then d
  else match d.drawBool with
    | (b, d) => d.tbcEdge p b

/-- A swap becomes due at the next rising edge: after a strobe, or, quiet, after a window closed without one (R331). -/
def Device.tbcDue (d : Device) (p : Nat) (quiet : Bool) : Device :=
  (d.setPort p { d.port p with due := some quiet }).put (TBC_STATUS_WIN_OPEN p) 0

/-- A swap request, into nanoseconds after the last base tick edge (R330). -/
def Device.tbcRequest (d : Device) (p v into : Nat) : Device :=
  let slot := bits v 15 0
  let sym := bits v 19 16
  if d.on (TBC_STATUS_PENDING p) then d.tbcErr p TBC_EV_CAUSE_BUSY
  else if 13 < sym || d.winOpens p slot sym < 30720 * (into : Nat) then d.tbcErr p TBC_EV_CAUSE_LATE
  else (d.setPort p { d.port p with swap := some (slot, sym) }).put (TBC_STATUS_PENDING p) 1

/-- Whether bank b of a port accepts writes (R329). -/
def Device.bankOpen (d : Device) (p b : Nat) : Bool :=
  !d.on (TBC_CTRL_EN p) || (d.get (TBC_STATUS_SEL p) != b && !d.on (TBC_STATUS_PENDING p))

/-- Writes entries of a bank from index i on; a closed bank keeps everything (R329). -/
def Device.tbcWrite (d : Device) (p b i : Nat) (vs : List Word) : Device × Resp :=
  if d.bankOpen p b then
    (((vs.zipIdx).foldl (fun (d : Device) x => d.setWord (TBC_TABLE p b (i + x.2)) x.1) d).tbcDrive p, ok)
  else ((d.count (TBC_CNT_LATE_WRITE_COUNT p) 1).tbcErr p TBC_EV_CAUSE_LATE_WRITE, targetErr)

/-- A swap whose window a forward step has skipped takes place at the step's edge (R333). -/
def Device.tbcAfterStep (d : Device) (p : Nat) : Device :=
  match (d.port p).swap with
  | some (slot, sym) => if d.winCloses p slot sym < 0 then d.tbcSwap p slot sym true else d
  | none => d

/-! ### Meanings -/

/-- TBC_TABLE_WRITE from a node, after rising edges or none since the port's last event (R329). -/
def execTbcTableWrite (p b : Fin 2) (i : Fin 1024) (src : BitVec 10) (vs : List Word) (edge : Bool) (s : State) :
    Host.Outcome State Fault Refusal :=
  s.answer src.toNat (fun d => (d.tbcEdge p.val edge).tbcWrite p.val b.val i.val (vs.take (1024 - i.val)))

/-- TBC_SWAP_REQ (R330, R333). -/
def execTbcSwapReq (p : Fin 2) (v : Word) (into : Nat) (edge : Bool) (s : State) : Host.Outcome State Fault Refusal :=
  s.run (fun d => (d.tbcEdge p.val edge).tbcRequest p.val v.toNat into)

/-- SWAP_WINDOW_OPEN (R330). -/
def execSwapWindowOpen (p : Fin 2) (s : State) : Host.Outcome State Fault Refusal :=
  s.run (fun d => if d.on (TBC_STATUS_PENDING p.val) && (d.port p.val).due.isNone then d.put (TBC_STATUS_WIN_OPEN p.val) 1 else d)

/-- TBCP_STROBE, a rising edge into nanoseconds after the last base tick edge: the first strobe of an open window
is stamped, to 4 ns, and makes the swap due at the next rising edge; any other has no effect (R331). -/
def execTbcpStrobe (p : Fin 2) (into : Nat) (s : State) : Host.Outcome State Fault Refusal :=
  s.run (fun d =>
    let d := (d.tbcEdge p.val true).count (TBC_CNT_STB_COUNT p.val) 1
    match d.on (TBC_STATUS_WIN_OPEN p.val), (d.port p.val).swap with
    | true, some _ =>
      let tod := d.time.stamp into 7 / 4 * 4
      let d := (d.put (TBC_SWAP_TS_NS_NS p.val) (tod % 1000000000)).put (TBC_SWAP_TS_SEC_SEC p.val) (tod / 1000000000)
      d.tbcDue p.val false
    | _, _ => d.count (TBC_CNT_STB_UNUSED_COUNT p.val) 1)

/-- SWAP_WINDOW_CLOSE, after rising edges or none since the port's last event: an unstrobed swap takes place at the next one,
and where the port clock is lost a pending swap takes place at once (R331, R334). -/
def execSwapWindowClose (p : Fin 2) (edge : Bool) (s : State) : Host.Outcome State Fault Refusal :=
  s.run (fun d =>
    let d := d.tbcEdge p.val edge
    match (d.port p.val).swap with
    | some (slot, sym) =>
      if !d.on (TBC_STATUS_CLK_OK p.val) && (d.on (TBC_STATUS_WIN_OPEN p.val) || (d.port p.val).due.isSome) then
        d.tbcSwap p.val slot sym true
      else if d.on (TBC_STATUS_WIN_OPEN p.val) then d.tbcDue p.val true
      else d
    | none => d)

/-- TBCP_CLK_LOST: a swap whose window has closed without a strobe cannot wait for an edge (R334). -/
def execTbcpClkLost (p : Fin 2) (s : State) : Host.Outcome State Fault Refusal :=
  s.run (fun d =>
    let d := (d.put (TBC_STATUS_CLK_OK p.val) 0).tbcClk p.val TBC_EV_CAUSE_CLK_LOST
    match (d.port p.val).swap, (d.port p.val).due with
    | some (slot, sym), some true => d.tbcSwap p.val slot sym true
    | _, _ => d)

/-- TBCP_CLK_OK, after regular edges (R334). -/
def execTbcpClkOk (p : Fin 2) (s : State) : Host.Outcome State Fault Refusal :=
  s.run (fun d => ((d.tbcEdge p.val true).put (TBC_STATUS_CLK_OK p.val) 1).tbcClk p.val TBC_EV_CAUSE_CLK_OK)

/-- The edges of a base tick: a port whose clock runs has seen many (R334). -/
def Device.tbcTick (d : Device) : Device :=
  (List.range 2).foldl (fun (d : Device) p => d.tbcEdge p (d.on (TBC_STATUS_CLK_OK p))) d

/-- A write of TBC_CTRL; clearing EN discards a pending swap (R333, R335). -/
def Device.writeTbcCtrl (d : Device) (p v : Nat) : Device :=
  let d := ((d.put (TBC_CTRL_EN p) v).put (TBC_CTRL_EV_SWAP p) (v / 2)).put (TBC_CTRL_CARRIER p) (bits v 13 8)
  let d := if d.on (TBC_CTRL_EN p) then d
    else ((d.setPort p { d.port p with swap := none, due := none }).put (TBC_STATUS_PENDING p) 0).put (TBC_STATUS_WIN_OPEN p) 0
  d

/-- TBC_CTRL_WRITE (R335). -/
def execTbcCtrlWrite (p : Fin 2) (v : Word) (edge : Bool) (s : State) : Host.Outcome State Fault Refusal :=
  s.run (fun d => (d.tbcEdge p.val edge).writeTbcCtrl p.val v.toNat)

/-- TBCP_ADDR_CHANGE, after rising edges or none since the port's last event: DATA follows; ecc 1 is a corrected single-bit
error of the entry read, 2 a double-bit one (R328, R332, R335). -/
def execTbcpAddrChange (p : Fin 2) (addr : Fin 1024) (ecc : Fin 3) (edge : Bool) (s : State) :
    Host.Outcome State Fault Refusal :=
  s.run (fun d =>
    let d := d.tbcEdge p.val edge
    let d := (d.setPort p.val { d.port p.val with addr := addr.val }).tbcDrive p.val
    if !(d.port p.val).live then d
    else if ecc.val = 1 then d.count (TBC_CNT_ECC_CE_COUNT p.val) 1
    else if ecc.val = 2 then d.tbcErr p.val TBC_EV_CAUSE_ECC_UE
    else d)

end Sys2Proof.Machine
end

