-- ==== Sys2Proof/Machine/EngineExpiry.lean ====
section
/-! DEFINITION. What engines do with a late command and at a fence: the expiry actions by class and
the fences of the Fourier, matrix, preamble and encoding engines (R218, R237, R259, R260, R300,
R301, R305, R316, R325). Between two steps no engine has a tile open, so a late command leaves what it wrote. -/

namespace Sys2Proof.Machine
open R

/-- Every OPEN tile of a node is sealed with AIS. -/
def Device.sealNode (d : Device) (node : Nat) : Device :=
  (d.tiles.filter (fun p => p.2.st == .opened && p.2.writer == node)).foldl (fun (d : Device) p => d.sealLate node p.1) d

/-! ### Downlink: the outputs of a late command, zeros with MUTE (R305) -/

/-- Labels and COUNT of output t of a downlink command of a matrix engine. -/
def Device.dlLabel (d : Device) (w : Nat → Nat) (ants : List Nat) (t : Nat) : Nat × Nat × Device :=
  match bits (w 0) 3 0 with
  | 8 =>
    let nt := dTiles w 0
    let r := d.loose (w 1) (bits (w 0) 9 4) 0 (some (bits (w 2) 3 0 + t / nt / dLayers w)) (some (t / nt % dLayers w))
      (some (dPrb0 w + 85 * (t % nt))) none
    (r.1, min 85 (dPrbs w - 85 * (t % nt)), r.2)
  | 10 =>
    let r := d.loose (w 1) (bits (w 0) 9 4) 7 none none none none
    (r.1, min 4096 (4 * dGroups w * dLayers w * dNant w - 4096 * t), r.2)
  | _ =>
    let nt := dTiles w (dFmt w)
    let g := fmtGroups (dFmt w)
    (openWord (w 1) (bits (w 0) 9 4) (bits (w 2) 3 0 + t / nt / dNant w) (dFmt w)
      (bits (ants.getD (t / nt % dNant w) 0) 8 0) false (dPrb0 w + g * (t % nt)), min g (dPrbs w - g * (t % nt)), d)

/-- The mute outputs of a late downlink command of a matrix engine. -/
def Device.dlMute (d : Device) (m : Nat) (cmd : List Byte) : Device :=
  let w := wordAt cmd
  let o := dlOutLen w
  match d.fetch (addrOf cmd 4) (4 * dNant w), d.tileList (addrOf cmd o.1) o.2 with
  | some at_, some out =>
    out.zipIdx.foldl (fun (d : Device) t =>
      let l := d.dlLabel w (wordsOf at_) t.2
      l.2.2.putTile (meNode m) t.1 l.1 zeroTile 0 l.2.1 true false) d
  | _, _ => d

/-- The mute outputs of a late DL_IFFT. -/
def Device.ifftMute (d : Device) (e : Nat) (cmd : List Byte) : Device :=
  let w := wordAt cmd
  let na := bits (w 1) 22 16
  let syms := symbolsOf w
  match d.fetch (addrOf cmd 8) (4 * na), d.tileList (addrOf cmd 12) (na * (syms.map (d.feTps w)).sum) with
  | some at_, some ol =>
    let ants := wordsOf at_
    syms.foldl (fun (d : Device) s =>
      let n := d.feTps w s
      let bo := na * sumTo (d.feTps w) syms s
      let lens := d.ifftLens w s
      let bytes := fun t => (if bit (w 0) 22 then 3 else 4) * samplesIn (bit (w 0) 22) (lens.1 + lens.2) t
      (List.range na).foldl (fun (d : Device) a =>
        ((ol.drop (bo + a * n)).take n).zipIdx.foldl (fun (d : Device) t =>
          let inl := openWord (bits (w 1) 15 0) (bits (w 0) 13 8) s 7 (bits (ants.getD a 0) 8 0) false t.2
          d.putTile (feNode e) t.1 inl zeroTile 0 (bytes t.2) true false) d) d) d
  | _, _ => d

/-- The mute outputs of a late encode command. -/
def Device.encMute (d : Device) (q : Nat) (cmd : List Byte) : Device :=
  match d.tileList (addrOf cmd 8) (ceilDiv (bits (wordAt cmd 3) 23 0) 32768) with
  | some out => d.encOut q cmd out none 0
  | none => d

/-! ### Uplink -/

/-- The job of an uplink command, when everything it names can be fetched and checks. -/
def Device.meJob (d : Device) (cmd : List Byte) : Option MeJob :=
  let w := wordAt cmd
  let op := bits (w 0) 3 0
  match d.fetch (addrOf cmd 4) (4 * bits (w 0) 26 19), d.tileList (addrOf cmd 6) (mePos w).length,
      d.fetch (addrOf cmd 8) (64 * bits (w 0) 18 13) with
  | some at_, some il, some tab =>
    let j : MeJob := ⟨cmd, wordsOf at_, il, tab⟩
    if (meCheck (d.prbLimit (bits (w 0) 9 4)) op w (j.ents.map wordAt)).isNone && (d.entListsOk op j).isNone then some j else none
  | _, _, _ => none

/-- Record type of an uplink OP (R263). -/
def meRecTy (op : Nat) : Nat := if op = 1 then 1 else if op = 3 then 2 else 3

/-- Records of one status for every entry of a command, and its end. -/
def Device.meStop (d : Device) (m item : Nat) (j : MeJob) (status fin eras : Nat) : Device :=
  let rs := (List.range j.ents.length).map (fun i => d.meRec j (meRecTy (bits (j.w 0) 3 0)) i status eras 0 [])
  d.meEnd m item fin 0 rs

/-- The expiry action of a matrix engine's command (R259, R305). -/
def Device.meExpire (d : Device) (m item : Nat) : Device :=
  match d.command item with
  | none => d.report 2 m item 2 0
  | some cmd =>
    let op := bits (wordAt cmd 0) 3 0
    if 8 ≤ op then ((d.dlCause m MXE_DL_EV_CAUSE_EXPIRED).dlMute m cmd).report 2 m item 2 0
    else
      let d := d.meCause m MXE_EV_CAUSE_EXPIRED
      match d.meJob cmd with
      | none => d.report 2 m item 2 0
      | some j =>
        if op = 2 then
          let grp := d.chainGroup (d.item item).panel
          let d := (List.range j.ents.length).foldl (fun (d : Device) i =>
            (d.entryLlrs m grp j i none).count (MXE_CNT_ZERO_ALLOC_COUNT m) 1) d
          d.meStop m item j 1 2 0
        else d.meStop m item j 1 2 0

/-- The expiry action of a Fourier engine's command: it stops, and what it has opened and not sealed is sealed (R218,
R305). -/
def Device.feExpire (d : Device) (e item : Nat) : Device :=
  let d := (d.sealNode (feNode e)).feCause e FFE_ENG_EV_CAUSE_EXPIRED
  match d.command item with
  | some cmd => (if bits (wordAt cmd 0) 3 0 = 3 then d.ifftMute e cmd else d).report 1 e item 2 0
  | none => d.report 1 e item 2 0

/-- The expiry action of an encode command (R305). -/
def Device.encExpire (d : Device) (q item : Nat) : Device :=
  let d := d.encCause q FEC_ENC_CAUSE_EXPIRED
  match d.command item with
  | some cmd => (d.encMute q cmd).report 5 q item 2 0
  | none => d.report 5 q item 2 0

/-- The expiry action of a preamble command: an occasion held, or one still queued (R237). -/
def Device.preExpire (d : Device) (p item : Nat) : Device :=
  let d := d.preCause p PRE_EV_CAUSE_EXPIRED
  if (tabGet (fun _ => []) d.occs p).any (fun o => o.item == item) then d.preEnd p (· == item) 1 2
  else match d.command item with
    | some cmd => (d.preReport p (occ0 item cmd) [] 1).report 3 p item 2 0
    | none => d.report 3 p item 2 0

/-- The expiry action of one queued command. -/
def Device.engineExpire (d : Device) (target e item : Nat) : Device :=
  match target with
  | 1 => d.feExpire e item
  | 2 => d.meExpire e item
  | 3 => d.preExpire e item
  | 4 => d.fecExpire e item
  | _ => d.encExpire e item

/-- Every command that its engine has been told is late takes its expiry action (R359). -/
def Device.engineExpiries (d : Device) : Device :=
  (d.engines.flatMap (fun p => (p.2.queue.filter (·.expired)).map (fun q => (p.1, q.item)))).foldl
    (fun (d : Device) p => d.engineExpire (p.1 / 256) (p.1 % 256) p.2) d

/-! ### Fences -/

/-- The items on an engine's queue. -/
def Device.queued (d : Device) (target e : Nat) : List Nat := (d.engine (engKey target e)).queue.map (·.item)

/-- A Fourier engine at its fence (R218). -/
def Device.feFence (d : Device) (e : Nat) : Device :=
  let d := (d.sealNode (feNode e)).feCause e FFE_ENG_EV_CAUSE_FENCED
  (d.queued 1 e).foldl (fun (d : Device) i => d.report 1 e i 3 0) d

/-- A waiting decode command fed by a matrix engine takes its fence as the end of the loop (R269). -/
def Device.loopFault (d : Device) (m : Nat) : Device :=
  (List.range 4).foldl (fun (d : Device) q =>
    ((d.grp q).cmds.filter (fun c => c.wait && c.feeder == meNode m)).foldl (fun (d : Device) c =>
      let d := d.loopCause m MXE_LOOP_CAUSE_FAULT
      match d.unsatFail q { c with wait := false } with
      | (d, c) => (d.setCmd q c).tbEnd q c) d) d

/-- A matrix engine at its fence (R260, R269, R325). -/
def Device.meFence (d : Device) (m : Nat) : Device :=
  let d := (d.sealNode (meNode m)).meCause m MXE_EV_CAUSE_FENCED
  let d := (d.queued 2 m).foldl (fun (d : Device) i =>
    match d.command i with
    | none => d.report 2 m i 3 0
    | some cmd =>
      if 8 ≤ bits (wordAt cmd 0) 3 0 then (d.dlCause m MXE_DL_EV_CAUSE_FENCED).report 2 m i 3 0
      else match d.meJob cmd with
        | some j => d.meStop m i j 3 3 0
        | none => d.report 2 m i 3 0) d
  let d := d.loopFault m
  { d with loops := d.loops.filter (fun l => l.me != m) }

/-- A preamble engine at its fence: every occasion it holds or has queued is reported FAULT (R237). -/
def Device.preFence (d : Device) (p : Nat) : Device :=
  let d := (d.preCause p PRE_EV_CAUSE_FENCED).preEnd p (fun _ => true) 3 3
  (d.queued 3 p).foldl (fun (d : Device) i => match d.command i with
    | some cmd => (d.preReport p (occ0 i cmd) [] 3).report 3 p i 3 0
    | none => d.report 3 p i 3 0) d

/-- Encode commands of a group that no engine is left to run complete FAULT (R316). -/
def Device.encFence (d : Device) (e : Nat) : Device :=
  let q := engGroup e
  (d.queued 5 q).foldl (fun (d : Device) i =>
    let op := match d.command i with
      | some cmd => fOp (wordAt cmd)
      | none => 0
    if opEngine op e && 8 ≤ op && !(List.range 24).any (fun x => engGroup x == q && opEngine op x &&
        d.fecMember (d.item i).panel x && !d.fecFenced x) then
      (d.encCause q FEC_ENC_CAUSE_FENCED).report 5 q i 3 0
    else d) d

/-- An engine of a KIND of R512 (2 to 5) at its fence. -/
def Device.engineFence (d : Device) (kind e : Nat) : Device :=
  match kind with
  | 2 => d.feFence e
  | 3 => d.meFence e
  | 4 => d.preFence e
  | 5 => (d.fecFence e).encFence e
  | _ => d

end Sys2Proof.Machine
end

