-- ==== Sys2Proof/Machine/Dma.lean ====
section
/-! DEFINITION. DMA channels apart from the data they move: request lines, descriptors and their
checks, hand-overs, ends, fences (R434 to R438, R448 to R450). Moving bursts is DmaRun.lean's. -/

namespace Sys2Proof.Machine
open R

/-- Channel c of engine e. -/
def Device.dma (d : Device) (e c : Nat) : Dma := tabGet (fun _ => dma0) d.dmas (32 * e + c)
def Device.setDma (d : Device) (e c : Nat) (x : Dma) : Device := { d with dmas := tabSet (fun _ => dma0) d.dmas (32 * e + c) x }

/-- States of DMA_CH_STATUS.STATE. -/
def dIdle : Nat := 0
def dWait : Nat := 1
def dActive : Nat := 2
def dBarrier : Nat := 3
def dHalted : Nat := 4
def dFenced : Nat := 5

/-- Cause bit k of a channel: EV(160 + 8e + k), and the channel's bit of DMA_ENG_EV_PEND (R452). -/
def Device.dmaCause (d : Device) (e c : Nat) (f : Nat → Nat → Fld) : Device :=
  let d := d.cause (f e c) (160 + 8 * e + (f e c).lo)
  d.put (DMA_ENG_EV_PEND_CH e) ((d.get (DMA_ENG_EV_PEND_CH e)).lor (2 ^ c))

/-! ### Request lines (R434, R435) -/

/-- Whether a channel waits for requests. -/
def Device.dmaRest (d : Device) (e c : Nat) : Nat :=
  if d.on (DMA_CH_CFG_REQ_EN e c) && d.get (DMA_CH_STATUS_PENDING e c) = 0 then dWait else dActive

/-- Shows a channel with an active descriptor as waiting or active. -/
def Device.dmaShow (d : Device) (e c : Nat) : Device :=
  let st := d.get (DMA_CH_STATUS_STATE e c)
  if (d.dma e c).desc.isSome && (st = dWait || st = dActive || st = dIdle) then
    d.put (DMA_CH_STATUS_STATE e c) (d.dmaRest e c)
  else d

/-- One pulse of a request line on every channel of its die that selects it. -/
def Device.dmaPulse (d : Device) (line : Nat) : Device :=
  (List.range 4).foldl (fun (d : Device) i => (List.range 32).foldl (fun (d : Device) c =>
    let e := 4 * (line / 256) + i
    if d.on (DMA_CH_CFG_REQ_EN e c) && d.get (DMA_CH_CFG_REQSEL e c) == line then
      let n := d.get (DMA_CH_STATUS_PENDING e c)
      if n = 255 then d.dmaCause e c DMA_CH_EV_CAUSE_REQ_OVF
      else (d.put (DMA_CH_STATUS_PENDING e c) (n + 1)).dmaShow e c
    else d) d) d

/-- A write of DMA_SWREQ: bit i pulses line 248 + i of the engine's die. -/
def Device.dmaSw (d : Device) (e v : Nat) : Device :=
  (List.range 8).foldl (fun (d : Device) i => if bit v i then d.dmaPulse (256 * (e / 4) + 248 + i) else d) d

/-! ### Descriptors (R437, R438) -/

def kLen (w : Nat → Nat) : Nat := bits (w 1) 23 0
def kSmode (w : Nat → Nat) : Nat := bits (w 0) 1 0
def kFill (w : Nat → Nat) : Bool := kSmode w == 2
def kStile (w : Nat → Nat) : Bool := bit (w 0) 3
def kDtile (w : Nat → Nat) : Bool := bit (w 0) 4
def kShuf (w : Nat → Nat) : Nat := bits (w 0) 13 11
def kPlanes (w : Nat → Nat) : Nat := bits (w 6) 27 24 + 1
def kEw (w : Nat → Nat) : Nat := 2 ^ bits (w 6) 29 28
def kG (w : Nat → Nat) : Nat := bits (w 12) 5 0
def kSrc (w : Nat → Nat) : Nat := w 2 + 2 ^ 32 * bits (w 3) 15 0
def kDst (w : Nat → Nat) : Nat := w 4 + 2 ^ 32 * bits (w 5) 15 0
/-- Access width of SWID or DWID 1 to 4; 64 for 0. -/
def kWid (n : Nat) : Nat := [64, 1, 2, 4, 8].getD n 64

/-- Field j of a tile list entry's word i, and the bytes it takes. -/
def lWord (l : List Byte) (j i : Nat) : Nat := wordAt (l.drop (16 * j)) i
def lBytes (l : List Byte) (j : Nat) : Nat := bits (lWord l j 0) 28 16
def lCount (l : List Byte) : Nat := l.length / 16

/-- Reserved values and the checks of R437, R440 and R441 on a descriptor. -/
def descBad (w : Nat → Nat) : Bool :=
  let sw := bits (w 0) 7 5
  let dw := bits (w 0) 10 8
  kSmode w == 3 || 4 < sw || 4 < dw || 4 < kShuf w || bits (w 0) 15 14 != 0 || bits (w 0) 31 28 != 0 ||
    bits (w 1) 31 30 != 0 || (!kFill w && bits (w 3) 31 16 != 0) || bits (w 5) 31 16 != 0 || bits (w 6) 31 30 != 0 ||
    bits (w 11) 31 16 != 0 || bits (w 12) 31 6 != 0 || w 13 != 0 || w 14 != 0 || w 15 != 0 || kLen w == 0 ||
    (w 10 % 64 != 0) || (kStile w && w 2 % 16 != 0) || (kDtile w && w 4 % 16 != 0) ||
    (sw != 0 && kLen w % kWid sw != 0) || (dw != 0 && kLen w % kWid dw != 0) ||
    (sw != 0 && w 2 % kWid sw != 0) || (dw != 0 && w 4 % kWid dw != 0) ||
    ((kShuf w == 1 || kShuf w == 2) && kLen w % (kPlanes w * kEw w) != 0) ||
    ((kShuf w == 3 || kShuf w == 4) && (kG w < 2 || kLen w % kG w != 0))

/-- A tile list: every entry in range and reserved bits 0, and the sum of BYTES as asked. -/
def listBad (l : List Byte) (sum : Nat) : Bool :=
  let n := lCount l
  (List.range n).any (fun j => lBytes l j == 0 || 4096 < lBytes l j || bits (lWord l j 0) 31 29 != 0 ||
    bits (lWord l j 1) 31 14 != 0 || 40960 ≤ bits (lWord l j 0) 15 0) ||
    ((List.range n).map (lBytes l)).sum != sum

/-- Clears a channel's progress. -/
def Dma.clear (x : Dma) : Dma :=
  { x with desc := none, slist := [], dlist := [], left := 0, opened := [], ais := [], src := []
           stalled := false, asleep := 0, errs := 0, fenced := false }

/-- Starts the descriptor at DMA_CH_DESC: fetched and checked; of one that fails with code DESC, the words that were
fetched (R437). -/
def Device.dmaStart (d : Device) (e c : Nat) : Device × Option (List Byte) :=
  let a := d.addr48 (DMA_CH_DESC_LO_ADDR e c) (DMA_CH_DESC_HI_ADDR e c)
  let d := d.put (DMA_CH_STATUS_PROV e c) 0
  match (if a % 64 = 0 && isDescMem a 64 then d.fetch a 64 else none) with
  | none => (d.put (DMA_CH_ERR_RESP e c) 3, some [])
  | some bs =>
    let w := wordAt bs
    let d := d.reads (dmaNode e) [(a, 64), (kSrc w, if kStile w then 16 * bits (w 9) 15 0 else 0),
      (kDst w, if kDtile w then 16 * bits (w 9) 31 16 else 0)]
    let sl := if kStile w then d.fetch (kSrc w) (16 * bits (w 9) 15 0) else some []
    let dl := if kDtile w then d.fetch (kDst w) (16 * bits (w 9) 31 16) else some []
    match sl, dl with
    | some sl, some dl =>
      if descBad w || (kStile w && listBad sl (kLen w)) || (kDtile w && listBad dl (kLen w)) then (d, some bs)
      else
        let x := { (d.dma e c).clear with desc := some bs, slist := sl, dlist := dl }
        ((((d.setDma e c x).put (DMA_CH_REMAIN_BYTES e c) (kLen w)).put (DMA_CH_STATUS_STATE e c) dActive).dmaShow e c, none)
    | _, _ => (d.put (DMA_CH_ERR_RESP e c) 3, some bs)

/-- Seals the open destination tiles of a channel with AIS (R450). -/
def Device.dmaSeal (d : Device) (e c : Nat) : Device :=
  let x := d.dma e c
  (x.opened.foldl (fun (d : Device) j => d.sealLate (dmaNode e) (bits (lWord x.dlist j.1 0) 15 0)) d).setDma e c
    { x with opened := [], ais := [] }

/-- DEP of a descriptor is decremented at its end (R450). -/
def Device.dmaDep (d : Device) (bs : List Byte) : Device :=
  let dep := wordAt bs 8
  if bit dep 31 then d.depDec (dep % 2 ^ 21) else d

/-- What every end does: open tiles sealed, DEP decremented, the count; the descriptor is gone. -/
def Device.dmaClose (d : Device) (e c : Nat) : Device :=
  match (d.dma e c).desc with
  | none => d
  | some bs =>
    let d := (d.dmaSeal e c).count (DMA_CH_CNT_DESC_COUNT e c) 1
    let d := d.setDma e c (d.dma e c).clear
    ((d.put (DMA_CH_STATUS_STATE e c) dIdle).put (DMA_CH_REMAIN_BYTES e c) 0).dmaDep bs

/-- NEXT of a descriptor. -/
def nextOf (bs : List Byte) : Nat := wordAt bs 10 + 2 ^ 32 * bits (wordAt bs 11) 15 0

/-- A descriptor that fails at its start: ERROR with its code, and HALTED with HALT_ON_ERR (R450). -/
def Device.dmaErr (d : Device) (e c code : Nat) : Device :=
  let d := (d.put (DMA_CH_ERR_CODE e c) code).dmaCause e c DMA_CH_EV_CAUSE_ERROR
  if d.on (DMA_CH_CTRL_HALT_ON_ERR e c) then d.put (DMA_CH_STATUS_STATE e c) dHalted else d

/-- Starts the descriptor at DMA_CH_DESC. One that fails at its start ends with ERROR, and unless it halts the channel with
a hand-over of its own, which finds COMMIT clear: its NEXT starts at the engine's next grant. -/
def Device.dmaGo (d : Device) (e c : Nat) : Device :=
  match d.dmaStart e c with
  | (d, none) => d
  | (d, some bs) =>
    let d := ((d.count (DMA_CH_CNT_DESC_COUNT e c) 1).dmaDep bs).dmaErr e c 1
    if d.get (DMA_CH_STATUS_STATE e c) = dHalted then d
    else
      let d := (d.put (DMA_CH_STATUS_STATE e c) dIdle).count (DMA_CH_STATUS_HOCOUNT e c) 1
      d.setDma e c { d.dma e c with again := if nextOf bs = 0 then none else some (nextOf bs) }

/-- Starts the descriptor at an address; 0 ends the chain. -/
def Device.dmaAt (d : Device) (e c a : Nat) : Device :=
  if a = 0 then d else ((d.put (DMA_CH_DESC_LO_ADDR e c) a).put (DMA_CH_DESC_HI_ADDR e c) (a / 2 ^ 32)).dmaGo e c

/-- Starts the descriptors that follow ones that failed at their start. -/
def Device.dmaAgain (d : Device) (e : Nat) : Device :=
  (List.range 32).foldl (fun (d : Device) c =>
    match (d.dma e c).again with
    | none => d
    | some a => (d.setDma e c { d.dma e c with again := none }).dmaAt e c a) d

/-- A hand-over (R448): with COMMIT the shadows become active and their descriptor starts; without it an
ended descriptor is followed by next, if any. -/
def Device.handOver (d : Device) (e c : Nat) (next : Option Nat) : Device :=
  let d := d.count (DMA_CH_STATUS_HOCOUNT e c) 1
  let x := d.dma e c
  let commit := d.on (DMA_CH_SH_COMMIT_COMMIT e c)
  let d := if x.written && !commit then
      (d.put (DMA_CH_STATUS_COMMIT_MISSED e c) 1).dmaCause e c DMA_CH_EV_CAUSE_COMMIT_MISSED
    else d
  let d := d.setDma e c { x with written := false, again := if commit then none else x.again }
  if commit then
    let d := ((d.setWord (DMA_CH_DESC_LO e c) (d.word (DMA_CH_SH_DESC_LO e c))).setWord (DMA_CH_DESC_HI e c)
      (d.word (DMA_CH_SH_DESC_HI e c))).setWord (DMA_CH_CFG e c) (d.word (DMA_CH_SH_CFG e c))
    (d.put (DMA_CH_SH_COMMIT_COMMIT e c) 0).dmaGo e c
  else match next with
    | some a => d.dmaAt e c a
    | none => d

/-- The next descriptor of the one in progress. -/
def Device.dmaNext (d : Device) (e c : Nat) : Option Nat := (d.dma e c).desc.map nextOf

/-- Completion: DONE with IRQ, then a hand-over (R450). -/
def Device.dmaDone (d : Device) (e c : Nat) : Device :=
  let irq := match (d.dma e c).desc with
    | some bs => bit (wordAt bs 0) 17
    | none => false
  let nx := d.dmaNext e c
  let d := d.dmaClose e c
  ((if irq then d.dmaCause e c DMA_CH_EV_CAUSE_DONE else d).handOver e c nx)

/-- Error: code and RESP kept, then HALTED or a hand-over (R450). -/
def Device.dmaFail (d : Device) (e c code resp : Nat) : Device :=
  let nx := d.dmaNext e c
  let d := (d.dmaClose e c).put (DMA_CH_ERR_RESP e c) resp
  let d := d.dmaErr e c code
  if d.get (DMA_CH_STATUS_STATE e c) = dHalted then d else d.handOver e c nx

/-- Abandon: the descriptor ends where it stands. -/
def Device.dmaAbandon (d : Device) (e c : Nat) : Device :=
  if (d.dma e c).desc.isSome then (d.dmaClose e c).dmaCause e c DMA_CH_EV_CAUSE_ABANDONED else d

/-- Whether a descriptor's due edge has occurred (R34, R450). -/
def Device.dmaLate (d : Device) (e c : Nat) : Bool :=
  match (d.dma e c).desc with
  | none => false
  | some bs =>
    let w := wordAt bs
    bit (w 0) 20 && isPast 32 (w 7) (if bit (w 0) 21 then d.time.tick else d.carrierTick (d.carrierR (bits (w 0) 27 22)))

/-- Whether the current base tick edge is a channel's tick edge (R448). -/
def Device.dmaTick (d : Device) (e c : Nat) : Bool :=
  d.on (DMA_CH_CFG_TICK_EN e c) && d.get (DMA_CH_STATUS_STATE e c) != dFenced &&
    (d.on (DMA_CH_CFG_BASETICK e c) || d.onCarrierTick (d.carrierR (d.get (DMA_CH_CFG_CARRIER e c))))

/-- The engine's fence: every channel stops, its open tiles sealed by Heath (R450). -/
def Device.dmaFence (d : Device) (e : Nat) : Device :=
  let d := (d.forceSeal (dmaNode e)).put (DMA_ENG_STATUS_FENCED e) 1
  (List.range 32).foldl (fun (d : Device) c =>
    let d := (d.setDma e c { d.dma e c with opened := [] }).dmaClose e c
    (d.dmaCause e c DMA_CH_EV_CAUSE_FENCED).put (DMA_CH_STATUS_STATE e c) dFenced) d

/-- The release from a fence. -/
def Device.dmaUnfence (d : Device) (e : Nat) : Device :=
  (List.range 32).foldl (fun (d : Device) c => d.put (DMA_CH_STATUS_STATE e c) dIdle) (d.put (DMA_ENG_STATUS_FENCED e) 0)

/-! ### Channel registers -/

/-- A write of a shadow register clears COMMIT (R448): i selects DESC_LO, DESC_HI or CFG. -/
def Device.dmaShadow (d : Device) (e c i v : Nat) : Device :=
  let d := match i with
    | 0 => d.put (DMA_CH_SH_DESC_LO_ADDR e c) v
    | 1 => d.put (DMA_CH_SH_DESC_HI_ADDR e c) v
    | _ => d.setWord (DMA_CH_SH_CFG e c) (BitVec.ofNat 32 (v % 2 ^ 22))
  (d.put (DMA_CH_SH_COMMIT_COMMIT e c) 0).setDma e c { d.dma e c with written := true }

/-- A write of DMA_CH_SH_COMMIT. -/
def Device.dmaCommit (d : Device) (e c v : Nat) : Device := d.put (DMA_CH_SH_COMMIT_COMMIT e c) v

/-- With COMMIT set, a descriptor still in progress is abandoned at the hand-over. -/
def Device.dmaAbandonFor (d : Device) (e c : Nat) : Device :=
  if d.on (DMA_CH_SH_COMMIT_COMMIT e c) then d.dmaAbandon e c else d

/-- A write of DMA_CH_CTRL: ABORT abandons; a rise of EN is a hand-over and leaves HALTED; a fenced
channel stays stopped (R448, R450). -/
def Device.dmaCtrl (d : Device) (e c v : Nat) : Device :=
  let was := d.on (DMA_CH_CTRL_EN e c)
  let d := (d.put (DMA_CH_CTRL_HALT_ON_ERR e c) (v / 2)).put (DMA_CH_CTRL_WAKE e c) (v / 4)
  let d := if bit v 3 then
      let had := (d.dma e c).desc.isSome
      let nx := d.dmaNext e c
      let d := d.dmaAbandon e c
      if had then d.handOver e c nx else d
    else d
  let d := d.put (DMA_CH_CTRL_EN e c) v
  let d := if bit v 0 && d.get (DMA_CH_STATUS_STATE e c) = dHalted then d.put (DMA_CH_STATUS_STATE e c) dIdle else d
  if bit v 0 && !was && d.get (DMA_CH_STATUS_STATE e c) ≠ dFenced then
    (d.dmaAbandonFor e c).handOver e c none
  else d

/-- A tick hand-over: with COMMIT set a descriptor in progress is abandoned; otherwise it goes on (R448). -/
def Device.dmaTickOver (d : Device) (e c : Nat) : Device :=
  (d.dmaAbandonFor e c).handOver e c none

/-! ### Meanings -/

/-- DMA_REQUEST_PULSE on a line (R435). -/
def execDmaRequestPulse (line : Fin 512) (s : State) : Host.Outcome State Fault Refusal :=
  s.run (fun d => d.dmaPulse line.val)

/-- DMA_SWREQ of an engine (R434). -/
def execDmaSwreq (e : Fin 8) (v : Word) (s : State) : Host.Outcome State Fault Refusal :=
  s.run (fun d => d.dmaSw e.val v.toNat)

/-- BARRIER_COMPLETE: the last write's response has returned (R446). -/
def execBarrierComplete (e : Fin 8) (c : Fin 32) (s : State) : Host.Outcome State Fault Refusal :=
  s.run (fun d =>
    if d.get (DMA_CH_STATUS_STATE e.val c.val) = dBarrier then (d.dmaDone e.val c.val).schedule else d)

/-- SHADOW_WRITE of register i of a channel (R448). -/
def execShadowWrite (e : Fin 8) (c : Fin 32) (i : Fin 3) (v : Word) (s : State) : Host.Outcome State Fault Refusal :=
  s.run (fun d => d.dmaShadow e.val c.val i.val v.toNat)

/-- COMMIT (R448). -/
def execCommitShadow (e : Fin 8) (c : Fin 32) (v : Word) (s : State) : Host.Outcome State Fault Refusal :=
  s.run (fun d => d.dmaCommit e.val c.val v.toNat)

/-- CHANNEL_ENABLE: a write of DMA_CH_CTRL (R448). -/
def execChannelEnable (e : Fin 8) (c : Fin 32) (v : Word) (s : State) : Host.Outcome State Fault Refusal :=
  s.run (fun d => (d.dmaCtrl e.val c.val v.toNat).schedule)

/-- ABORT: the active descriptor is abandoned, then a hand-over (R450). -/
def execAbortChannel (e : Fin 8) (c : Fin 32) (s : State) : Host.Outcome State Fault Refusal :=
  s.run (fun d =>
    let nx := d.dmaNext e.val c.val
    if nx.isSome then ((d.dmaAbandon e.val c.val).handOver e.val c.val nx).schedule else d)

/-- Whether a channel has made its hand-over of the present base tick edge (R449). -/
def Device.edgeMade (d : Device) (e c : Nat) : Bool := (d.dma e c).edgeOver == some d.time.edges

/-- Notes that it has. -/
def Device.edgeNote (d : Device) (e c : Nat) : Device := d.setDma e c { d.dma e c with edgeOver := some d.time.edges }

/-- TICK_HANDOVER at the channel's tick edge; a descriptor that ended at this edge has made its hand-over (R448, R449). -/
def execTickHandover (e : Fin 8) (c : Fin 32) (s : State) : Host.Outcome State Fault Refusal :=
  s.run (fun d =>
    if d.dmaTick e.val c.val && !d.edgeMade e.val c.val then ((d.edgeNote e.val c.val).dmaTickOver e.val c.val).schedule else d)

end Sys2Proof.Machine
end

