-- ==== Sys2Proof/Machine/Lanes.lean ====
section
/-! DEFINITION. Serial lanes: coding, block lock, the 25GBASE-R receiver, test patterns, training and failure, and the framer's
sections (R147 to R172, R187, R195 to R196). -/

namespace Sys2Proof.Machine
open R

def Device.lane (d : Device) (n : Nat) : Lane := tabGet (fun _ => lane0) d.lanes n
def Device.setLane (d : Device) (n : Nat) (x : Lane) : Device := { d with lanes := tabSet (fun _ => lane0) d.lanes n x }
def Device.ctr (d : Device) (g : Nat) : Ctr := tabGet (fun _ => ctr0) d.ctrs g
def Device.setCtr (d : Device) (g : Nat) (x : Ctr) : Device := { d with ctrs := tabSet (fun _ => ctr0) d.ctrs g x }

/-! ### Lanes -/

/-- MODE of the quad of a radio or twin lane; twin quads run FILET_25 (R148). -/
def Device.laneMode (d : Device) (n : Nat) : Nat := if n < 64 then d.get (RLN_QUAD_CFG_MODE (n / 4)) else 1
def Device.filet (d : Device) (n : Nat) : Bool := d.laneMode n == 1 || d.laneMode n == 2
/-- Blocks of a basic frame (R173). -/
def Device.frameB (d : Device) (n : Nat) : Nat := if d.laneMode n = 2 then 50 else 128

/-- Lane states. -/
def lDisabled : Nat := 0
def lTraining : Nat := 1
def lUp : Nat := 2
def lRetraining : Nat := 3
def lFailed : Nat := 4

def Device.laneState (d : Device) (n : Nat) : Nat := d.get (RLN_LANE_STATUS_STATE n)
def Device.laneUp (d : Device) (n : Nat) : Bool := d.laneState n == lUp

/-- Whether a lane's domain is in Run: PD_LQj for a radio lane, else PD_FABRIC (R147, R168). -/
def Device.laneRuns (d : Device) (n : Nat) : Bool := decide (64 ≤ n) || d.get (ELP_DOM_STATE_STATE (56 + n / 8)) == 0

/-- An ETH_25 lane without local fault: UP, locked and no hi_ber (R154, R156, R165). -/
def Device.ethUp (d : Device) (n : Nat) : Bool := d.laneUp n && d.on (RLN_LANE_STATUS_BLOCK_LOCK n) && !(d.lane n).hiBer

/-- A lane that is ALIGNED (R184), and one that delivers data: it is UP as well (R167). -/
def Device.aligned (d : Device) (n : Nat) : Bool := (d.lane n).sync && (d.lane n).mf
def Device.delivers (d : Device) (n : Nat) : Bool := d.laneUp n && d.aligned n

/-- A cause of a lane: a radio lane raises EV(48 + n) (R171). -/
def Device.laneCause (d : Device) (n : Nat) (f : Nat → Fld) : Device :=
  if n < 64 then d.cause (f n) (48 + n) else d.put (f n) 1

/-- A cause of a framer (R207); twin lanes have no FIL registers. -/
def Device.filCause (d : Device) (n : Nat) (f : Nat → Fld) : Device := if n < 64 then d.cause (f n) (48 + n) else d

/-- The network port of network lane i, if the mode gives it one. -/
def Device.lanePort (d : Device) (i : Nat) : Option Nat :=
  match d.get NET_CTRL_MODE with
  | 1 => some 0
  | 2 => some (i / 4)
  | 3 => some (i / 2)
  | _ => none

/-! ### Containers and groups as the pricking sets them (R187, R195) -/

/-- Entries of the CONTAINER section of a lane. -/
def Device.ctrEntries (d : Device) (n : Nat) : List (List Byte) :=
  match d.section? 0x51 n with
  | none => []
  | some s => s.entries

/-- Data members of a lane group, 16 + d for twin group d, and its parity member (R195, R526). -/
def Device.grpData (d : Device) (g : Nat) : List Nat :=
  if 16 ≤ g then (List.range 3).map (fun i => 64 + 4 * (g - 16) + i)
  else match d.section? 0x41 g with
    | none => []
    | some s => (List.range (min 8 (bits (wordAt s.payload 0) 3 0))).map (fun i => (s.payload.getD (4 + i) 0).toNat)
def Device.grpPar (d : Device) (g : Nat) : Option Nat :=
  if 16 ≤ g then some (67 + 4 * (g - 16))
  else match d.section? 0x41 g with
    | none => none
    | some s => if bit (wordAt s.payload 0) 4 then some (bits (wordAt s.payload 3) 7 0) else none

/-- The group of a lane and its place in it; 8 stands for the parity member. -/
def Device.laneGroup (d : Device) (n : Nat) : Option (Nat × Nat) :=
  (List.range 18).findSome? (fun g =>
    let l := d.grpData g
    if l.contains n then some (g, l.idxOf n) else if d.grpPar g == some n then some (g, 8) else none)

/-- The lane whose CONTAINER section serves a lane: its group's member 0, or itself (R187). -/
def Device.ctrLane (d : Device) (n : Nat) : Nat :=
  match d.laneGroup n with
  | some (g, _) => (d.grpData g).headD n
  | none => n

/-- A container's stream is not delivered: its pointer machine starts again (R193). -/
def Device.ctrAcq (d : Device) (n : Nat) (e : List Byte) : Device :=
  if cDown e then d
  else
    let g := 32 * n + cCid e
    (d.put (FIL_CTR_STATUS_PSTATE n (cCid e)) 0).setCtr g { d.ctr g with run := 0, mism := 0, votes := [], delta := 0, adj := 0 }

def Device.ctrsAcq (d : Device) (n : Nat) : Device := (d.ctrEntries n).foldl (fun (d : Device) e => d.ctrAcq n e) d

/-- FIL_LANE_STATUS after a change of alignment (R184); an ETH_25 lane is ALIGNED while UP. -/
def Device.filShow (d : Device) (n : Nat) : Device :=
  if 64 ≤ n then d
  else
    let x := d.lane n
    let al := if d.laneMode n = 3 then d.laneUp n else d.aligned n
    (((d.put (FIL_LANE_STATUS_BF_STATE n) (b2n x.sync)).put (FIL_LANE_STATUS_MF_SYNC n) (b2n x.mf)).put
      (FIL_LANE_STATUS_ALIGNED n) (b2n al)).put (FIL_LANE_STATUS_CANDS n) x.cands.length

/-- Basic-frame alignment leaves SYNC with nothing kept (R181): the PCS lost lock, the lane left UP, or
four misses. -/
def Device.frameLoss (d : Device) (n : Nat) : Device :=
  let x := d.lane n
  let d := if x.sync then d.filCause n FIL_LANE_EV_CAUSE_BF_LOSS else d
  let d := if x.mf then d.filCause n FIL_LANE_EV_CAUSE_MF_LOSS else d
  let d := d.setLane n { x with sync := false, mf := false, cands := [], miss := 0, frame := [], ovhd := none, frames := [] }
  (if (d.laneGroup n).isNone && n < 64 then d.ctrsAcq n else d).filShow n

/-! ### Block lock (R155 to R157) -/

/-- A receiver returns to HUNT, as on leaving LOCKED: nothing goes upward, and lock has not been held. -/
def Device.dropLock (d : Device) (n : Nat) : Device :=
  let x := d.lane n
  if !d.on (RLN_LANE_STATUS_BLOCK_LOCK n) then d.setLane n { x with hunt := 0, broke := true }
  else
    let d := (((d.put (RLN_LANE_STATUS_BLOCK_LOCK n) 0).count (RLN_LANE_CNT_LOCKLOSS_COUNT n) 1).tally 7 (b2n (decide (n < 64)))).laneCause n
      RLN_LANE_EV_CAUSE_LOCK_LOST
    (d.setLane n { d.lane n with
      hunt := 0, hist := [], broke := true, fifo := [], eb := [], pcs := 0, spoilt := x.spoilt || x.pcs == 1 }).frameLoss n

/-- Whether a test instruction has taken the balls from their functions (R595). -/
def Device.ballsTaken (d : Device) : Bool := decide (3 ≤ d.tap.ir) && decide (d.tap.ir ≤ 7)

/-- Whether a receiver takes blocks: enabled, powered, a signal, and its quad's PLL locked (R151, R157, R168, R169). -/
def Device.laneHears (d : Device) (n : Nat) : Bool :=
  !d.ballsTaken && d.laneRuns n && d.laneState n != lDisabled && !d.on (RLN_LANE_STATUS_LOS n) && bit (d.get RLN_STATUS_PLL_LOCK) (n / 4)

/-- Whether the PCS of a lane delivers blocks upward (R156). -/
def Device.laneLocked (d : Device) (n : Nat) : Bool := d.laneHears n && d.on (RLN_LANE_STATUS_BLOCK_LOCK n)

/-- An invalid header in the hi_ber window of an ETH_25 lane: 97 in 2 ms make hi_ber, whose window ends at a base tick edge
(IEEE 802.3 Clause 107; PRESUMED, log entry 51). -/
def Lane.badHeader (x : Lane) : Lane :=
  { x with bad := x.bad + 1, ber := x.ber + 1, hiBer := x.hiBer || decide (97 ≤ x.ber + 1) }

/-- One header through the state machine of R155; whether the block goes upward. -/
def Device.header (d : Device) (n : Nat) (valid : Bool) : Device × Bool :=
  let x := d.lane n
  let d := if valid then d else d.bump (RLN_LANE_CNT_BADHDR_COUNT n) 1
  let x := if valid then x else x.badHeader
  if d.on (RLN_LANE_STATUS_BLOCK_LOCK n) then
    let h := ((!valid) :: x.hist).take 64
    let d := d.setLane n { x with hist := h }
    if 16 ≤ (h.filter id).length then (d.dropLock n, false) else (d, true)
  else if !valid then (d.setLane n { x with hunt := 0 }, false)
  else if x.hunt + 1 = 64 then
    (((d.setLane n { x with hunt := 0, hist := [] }).put (RLN_LANE_STATUS_BLOCK_LOCK n) 1).laneCause n
      RLN_LANE_EV_CAUSE_LOCK_GAINED, false)
  else (d.setLane n { x with hunt := x.hunt + 1 }, false)

/-! ### Coding (R149, R152, R153) -/

/-- The self-synchronous descrambler G(x) = 1 + x^39 + x^58 over 64 bits, bit 0 first (R152): its register
after them and the bits out. -/
def descramble (reg v : Nat) : Nat × Nat :=
  (List.range 64).foldl (fun (a : Nat × Nat) i =>
    let b := bit v i
    let o := b != (bit a.1 38 != bit a.1 57)
    ((a.1 * 2 + b2n b) % 2 ^ 58, a.2 + 2 ^ i * b2n o)) (reg, 0)

/-- The scrambler of the same polynomial: its register holds the bits it has put out. -/
def lineScramble (reg v : Nat) : Nat × Nat :=
  (List.range 64).foldl (fun (a : Nat × Nat) i =>
    let o := bit v i != (bit a.1 38 != bit a.1 57)
    ((a.1 * 2 + b2n o) % 2 ^ 58, a.2 + 2 ^ i * b2n o)) (reg, 0)

/-- A header and a payload with a lane's polarity (R149). -/
def polar (inv : Bool) (b : Nat × Nat) : Nat × Nat := if inv then (3 - b.1 % 4, 2 ^ 64 - 1 - b.2 % 2 ^ 64) else b

/-- Whether a lane's transmit, and receive, polarity is inverted. -/
def Device.txInv (d : Device) (n : Nat) : Bool := bit (d.get (RLN_QUAD_CFG_TX_INV (n / 4))) (n % 4)
def Device.rxInv (d : Device) (n : Nat) : Bool := bit (d.get (RLN_QUAD_CFG_RX_INV (n / 4))) (n % 4)

/-- The filler: block type 0x1E and eight idle characters (R153). -/
def fillerBlock : Nat := 0x1E

/-- Blocks as a lane puts them on the line, headers and payloads: scrambled, then with its polarity. -/
def Device.lineBlocks (d : Device) (n : Nat) (bs : List (Nat × Nat)) : Device × List (Nat × Nat) :=
  let x := d.lane n
  let r := bs.foldl (fun (a : Nat × List (Nat × Nat)) b =>
    let o := lineScramble a.1 b.2
    (o.1, a.2 ++ [polar (d.txInv n) (b.1, o.2)])) (x.tx, [])
  (d.setLane n { x with tx := r.1 }, r.2)

/-! ### Test patterns (R170) -/

/-- The next bit of PRBS31, 1 + x^28 + x^31, after a register of the last 31. -/
def prbsNext (r : Nat) : Bool := bit r 27 != bit r 30

/-- Received bits against the pattern: from the bits themselves while the checker is not synchronised, else from the pattern's
own. The register, and the bits that differ. -/
def prbsCheck (locked : Bool) (r : Nat) (bs : List Bool) : Nat × Nat :=
  bs.foldl (fun (a : Nat × Nat) b =>
    let e := prbsNext a.1
    ((a.1 * 2 + b2n (if locked then e else b)) % 2 ^ 31, a.2 + b2n (locked && b != e))) (r, 0)

/-- A received block under CHECK: mismatched bits counted once the checker is synchronised; when it gains or loses the
pattern is not stated (log entry 4). -/
def Device.patternCheck (d : Device) (n hdr payload : Nat) : Device :=
  if !d.on (RLN_LANE_TEST_CHECK n) then d
  else
    let x := d.lane n
    let bs := [bit hdr 0, bit hdr 1] ++ (List.range 64).map (bit payload)
    let r := prbsCheck (d.on (RLN_LANE_TEST_CHK_LOCK n)) x.prbs bs
    match d.drawBool with
    | (b, d) => ((d.setLane n { x with prbs := r.1 }).bump (RLN_LANE_PRBS_ERR_COUNT n) r.2).put (RLN_LANE_TEST_CHK_LOCK n) (b2n b)

/-! ### The 25GBASE-R receiver (R154, R161) -/

/-- Kinds of block: control, start, terminate, data, error (IEEE 802.3 Clause 49; PRESUMED, log entry 51). -/
inductive BlockKind where
  | ctl
  | start
  | term
  | data
  | err
  deriving DecidableEq, Repr

/-- The kind of a block by its header and type field. -/
def blockKind (hdr v : Nat) : BlockKind :=
  if hdr = 1 then .data
  else if hdr ≠ 2 then .err
  else
    let t := v % 256
    if [0x1E, 0x2D, 0x4B, 0x55].contains t then .ctl
    else if [0x33, 0x66, 0x78].contains t then .start
    else if [0x87, 0x99, 0xAA, 0xB4, 0xCC, 0xD2, 0xE1, 0xFF].contains t then .term
    else .err

/-- An idle control block. -/
def isIdle (b : Nat × Nat) : Bool := b.1 == 2 && b.2 == 0x1E

/-- The receive state after a block: 0 idle, 1 in a frame, 2 frame just ended, 3 error; whether a block is errored. -/
def pcsNext (st : Nat) (k : BlockKind) : Nat × Bool :=
  match st, k with
  | 1, .data => (1, false)
  | 1, .term => (2, false)
  | 1, _ => (3, true)
  | 3, .ctl => (0, false)
  | 3, .start => (1, false)
  | 3, .data => (1, false)
  | 3, .term => (2, false)
  | 3, .err => (3, true)
  | _, .ctl => (0, false)
  | _, .start => (1, false)
  | _, _ => (3, true)

/-- A block out of the elastic buffer: an errored one is counted, and the frame it stands in carries an error. -/
def Device.pcsBlock (d : Device) (n : Nat) (b : Nat × Nat) : Device :=
  let x := d.lane n
  let k := blockKind b.1 b.2
  let r := pcsNext x.pcs k
  let d := if r.2 then d.count (RLN_LANE_CNT_CODEERR_COUNT n) 1 else d
  d.setLane n { x with pcs := r.1, spoilt := if k == .start && !r.2 then false else x.spoilt || r.2 }

/-- The elastic buffer over- or underflows: EB_ERR, and the frame in progress fails (R161). -/
def Device.ebErr (d : Device) (n : Nat) : Device :=
  let x := d.lane n
  (d.setLane n { x with spoilt := x.spoilt || x.pcs == 1 }).laneCause n RLN_LANE_EV_CAUSE_EB_ERR

/-- A received block enters the elastic buffer: an idle above 24 blocks is deleted; a full buffer loses the block. -/
def Device.ebPut (d : Device) (n : Nat) (b : Nat × Nat) : Device :=
  let x := d.lane n
  if 24 < x.eb.length && isIdle b then d.count (RLN_LANE_CNT_FILLER_COUNT n) 1
  else if 32 ≤ x.eb.length then d.ebErr n
  else d.setLane n { x with eb := x.eb ++ [b] }

/-- The PCS takes a block from the buffer: below 8 blocks, in a gap, an idle is inserted instead. -/
def Device.ebTake (d : Device) (n : Nat) : Device :=
  let x := d.lane n
  if x.eb.length < 8 && (x.pcs == 0 || x.pcs == 2) then (d.count (RLN_LANE_CNT_FILLER_COUNT n) 1).pcsBlock n (2, 0x1E)
  else match x.eb with
    | [] => d.ebErr n
    | b :: t => (d.setLane n { x with eb := t }).pcsBlock n b

/-- A block of an ETH_25 lane, and the blocks its PCS takes on its own clock meanwhile. -/
def Device.ethBlock (d : Device) (n : Nat) (b : Nat × Nat) (reads : Nat) : Device :=
  (List.range reads).foldl (fun (d : Device) _ => d.ebTake n) (d.ebPut n b)

/-! ### Training and failure (R163 to R167) -/

/-- A lane starts training: the equaliser is reset (R163, R164, R167); at start-up, the transmit scrambler is seeded with a
value that is not zero (R152, log entry 4). -/
def Device.laneTrain (d : Device) (n st : Nat) (recovering : Bool) : Device :=
  match (d.dropLock n).draw 58 with
  | (seed, d) =>
    let x := d.lane n
    (d.setLane n { x with
      clean := 0, badTicks := 0, recovering := recovering, eq := []
      tx := if st = lTraining then 1 + seed % (2 ^ 58 - 1) else x.tx }).put (RLN_LANE_STATUS_STATE n) st

/-- A lane out of use: DISABLED, no event (R151, R167). -/
def Device.laneOff (d : Device) (n : Nat) : Device :=
  let d := (d.put (RLN_LANE_STATUS_BLOCK_LOCK n) 0).put (RLN_LANE_STATUS_STATE n) lDisabled
  let d := if n < 64 then d.put (FIL_LANE_STATUS_AIS n) 0 else d
  let x := d.lane n
  let d := d.setLane n { lane0 with bars := x.bars, frames := [] }
  (if (d.laneGroup n).isNone && n < 64 then d.ctrsAcq n else d).filShow n

/-- A base tick edge at a lane: the invalid headers of the tick against RETRAIN_BAD_LIMIT (R163); a tick is clean when
lock was held all through it (R164; a network lane has no block lock of its own); the hi_ber window (R154). -/
def Device.laneEdge (d : Device) (n : Nat) : Device :=
  let x := d.lane n
  let ovhd := decide (d.get RLN_CTRL_RETRAIN_BAD_LIMIT < x.bad)
  let lock := decide (72 ≤ n) || d.on (RLN_LANE_STATUS_BLOCK_LOCK n)
  let last := decide (16 ≤ x.berTicks + 1)
  d.setLane n { x with
    bad := 0
    badTicks := if ovhd then x.badTicks + 1 else 0
    clean := if lock && !x.broke && !ovhd then x.clean + 1 else 0
    broke := !lock
    ber := if last then 0 else x.ber
    berTicks := if last then 0 else x.berTicks + 1
    hiBer := if last then decide (97 ≤ x.ber) else x.hiBer }

def Device.lanesEdge (d : Device) : Device := (d.lanes.map (·.1)).foldl (fun (d : Device) n => d.laneEdge n) d

/-- Whether a running panel has a container on a lane (R170). -/
def Device.laneBusy (d : Device) (n : Nat) : Bool :=
  (d.ctrEntries (d.ctrLane n)).any (fun e => d.on (PKL_CARRIER_MAP_VALID (cCarrier e)) &&
    d.panelRuns (d.get (PKL_CARRIER_MAP_PANEL (cCarrier e))))

/-! ### Meanings -/

/-- LOS_CLEAR (R157). -/
def execLosClear (n : Fin 80) (s : State) : Host.Outcome State Fault Refusal :=
  s.run (fun d => d.put (RLN_LANE_STATUS_LOS n.val) 0)

/-- TRAINING_DONE: eight clean base ticks in a row, with the equaliser settings that the search found (R164, R166). The basic
frame in progress began before the lane was UP (R167). -/
def execTrainingDone (n : Fin 80) (eq : List Nat) (s : State) : Host.Outcome State Fault Refusal :=
  s.run (fun d =>
    let st := d.laneState n.val
    if (st = lTraining || st = lRetraining) && decide (8 ≤ (d.lane n.val).clean) then
      let d := d.put (RLN_LANE_STATUS_STATE n.val) lUp
      let d := if (d.lane n.val).recovering then d.laneCause n.val RLN_LANE_EV_CAUSE_RECOVERED else d
      (d.setLane n.val { d.lane n.val with
        recovering := false, badTicks := 0, eq := eq, skip := true }).filShow n.val
    else d)

/-- LANE_FAILED, 50 ms after training or retraining began (R164, R165). -/
def execLaneFailed (n : Fin 80) (s : State) : Host.Outcome State Fault Refusal :=
  s.run (fun d =>
    let st := d.laneState n.val
    if st = lTraining || st = lRetraining then
      let d := (d.put (RLN_LANE_STATUS_STATE n.val) lFailed).laneCause n.val RLN_LANE_EV_CAUSE_FAILED
      if n.val < 64 && d.laneMode n.val = 3 then d.laneCause n.val RLN_LANE_EV_CAUSE_LINK_DOWN else d
    else d)

/-- RECOVERY_ATTEMPT, RECOVER_S seconds after an attempt ended (R166). -/
def execRecoveryAttempt (n : Fin 80) (s : State) : Host.Outcome State Fault Refusal :=
  s.run (fun d =>
    if d.laneState n.val = lFailed && d.on RLN_CTRL_RECOVER_S then
      (d.count (RLN_LANE_CNT_RETRAIN_COUNT n.val) 1).laneTrain n.val lRetraining true
    else d)

/-- QUAD_PLL_LOCK (R169). -/
def execQuadPllLock (k : Fin 20) (s : State) : Host.Outcome State Fault Refusal :=
  s.run (fun d => d.put RLN_STATUS_PLL_LOCK (putBits (d.get RLN_STATUS_PLL_LOCK) k.val k.val 1))

/-- LANE_ADAPTATION of a lane that is UP: setting k moves by one step; the eye that results, and whether a setting is at its
end (R162). -/
def execLaneAdaptation (n : Fin 80) (k : Nat) (up : Bool) (eye : BitVec 8) (limit : Bool) (s : State) :
    Host.Outcome State Fault Refusal :=
  s.run (fun d =>
    if d.laneUp n.val then
      let x := d.lane n.val
      let v := x.eq.getD k 0
      ((d.setLane n.val { x with eq := x.eq.set k (if up then v + 1 else v - 1) }).put (RLN_LANE_STATUS_EYE_MV n.val) eye.toNat).put
        (RLN_LANE_STATUS_ADAPT_LIMIT n.val) (b2n limit)
    else d)

end Sys2Proof.Machine
end

