-- ==== Sys2Proof/Machine/Containers.lean ====
section
/-! DEFINITION. The framers' containers: symbols and half-subframes, the uplink stream by its pointer, its queue and the power
measured on it, downlink tiles from send point to basic frame (R74, R189 to R191, R219, R308, R436, R444). -/

namespace Sys2Proof.Machine
open R

/-! ### Half-subframes and symbols (R32, R190, R219) -/

/-- The device's own frame number at basic frame i from the start of the current base tick: SFN, MFN and BFN (R174, R32). -/
def Device.txFrame (d : Device) (i : Nat) : Nat × Nat × Nat :=
  let t := d.sinceF + (i / 375 : Nat)
  (((t / 80 + d.get TTB_FRAME_SFN_OFS) % 1024).toNat, (t % 80).toNat / 4, (t % 80).toNat % 4 * 375 + i % 375)

/-- Half-subframes in the numbering SFN × 20 + MFN. -/
def halfNums : Nat := 1024 * 20

/-- The half-subframe of a label nearest to the current one, counted from frame offset F in units of four base ticks. -/
def Device.halfAbs (d : Device) (lab : Nat) : Int :=
  let cur := d.sinceF / 4
  let ahead := ((lab : Int) - 20 * d.get TTB_FRAME_SFN_OFS - cur + halfNums / 2) % halfNums
  cur + ahead - halfNums / 2

/-- Symbols of a half-subframe with slots of r base ticks (R30: 7 of LTE and of NR at 15 kHz). -/
def halfSyms (r : Nat) : Nat := 56 / max 1 r

/-- Slot, counted from F, and symbol of symbol j of a half-subframe. -/
def symSlot (r : Nat) (half : Int) (j : Nat) : Int × Nat :=
  let g := half * halfSyms r + j
  (g / 14, (g % 14).toNat)

/-- Half-subframe and place there of a symbol of a slot counted from F. -/
def symHalf (r : Nat) (slot : Int) (sym : Nat) : Int × Nat :=
  let g := 14 * slot + sym
  (g / halfSyms r, (g % halfSyms r).toNat)

/-- The sample at which symbol j of a half-subframe of S samples begins: N samples and a prefix of 9N / 128 each, and the
first with as much more as fills the half-subframe (R210's worked figures; PRESUMED, log entry 51). -/
def symBegin (S r j : Nat) : Nat := if j = 0 then 0 else 2 * S * (137 * j + 8 / max 1 r) / (1920 * (8 / max 1 r))

/-- The symbol that ends at place p of a half-subframe. -/
def symEnding (S r p : Nat) : Option Nat := (List.range (halfSyms r)).find? (fun j => symBegin S r (j + 1) == p)

/-- PRB groups per symbol of a frequency-domain container: S over the symbols (R188); over Ethernet S is 0, and the carrier's
width is in its CARRIER section (log entry 10). -/
def Device.symPrbs (d : Device) (e : List Byte) : Nat :=
  if cS e ≠ 0 then cS e / halfSyms (d.carrierR (cCarrier e))
  else match d.section? 0x50 (cCarrier e) with
    | some s => Config.carrierPrbs s.payload % 276
    | none => 0

/-! ### Uplink (R189, R190, R219, R436) -/

/-- A forced stop has left a container's carrier without processing (R74). -/
def Device.ctrStopped (d : Device) (e : List Byte) : Bool :=
  d.on (PKL_CARRIER_MAP_VALID (cCarrier e)) && !d.panelRuns (d.get (PKL_CARRIER_MAP_PANEL (cCarrier e)))

/-- 64-byte units that n bytes starting at byte o of a burst touch, as a mask. -/
def unitMask (o n : Nat) : Nat :=
  ((List.range 16).filter (fun i => decide (64 * i < o + n) && decide (o < 64 * i + 64))).foldl (fun m i => m.lor (2 ^ i)) 0

/-- Adds uplink bytes to a container; a whole burst joins the queue, or a marker stands for it when four
bursts are queued. Answers the bursts completed. -/
def ctrFeed : Nat → Ctr → List Byte → Bool → Nat → Ctr × Nat
  | 0, x, _, _, p => (x, p)
  | n + 1, x, bs, ones, p =>
    if bs.isEmpty then (x, p)
    else
      let part := bs.take (1024 - x.acc.length)
      let fl := if ones then x.flags.lor (unitMask x.acc.length part.length) else x.flags
      let acc := x.acc ++ part
      if acc.length < 1024 then ({ x with acc := acc, flags := fl }, p)
      else
        let real := (x.queue.filter (·.isSome)).length
        let units := if 48 < real then List.replicate 16 none
          else (List.range 16).map (fun i => some ((acc.drop (64 * i)).take 64, bit fl i))
        ctrFeed n { x with acc := [], flags := 0, queue := x.queue ++ units } (bs.drop part.length) ones (p + 1)

/-- Bytes of a container, with the all-ones mark; its request line is raised once per 1,024 bytes. -/
def Device.feed (d : Device) (n : Nat) (e : List Byte) (bs : List Byte) (ones : Bool) : Device :=
  let g := 32 * n + cCid e
  let r := ctrFeed (bs.length / 1024 + 2) (d.ctr g) bs (ones || (d.ctr g).jump) 0
  (List.range r.2).foldl (fun (d : Device) _ => d.dmaPulse (cDreq e)) (d.setCtr g r.1)

/-- The power of a time-domain unit. -/
def unitPower (fmt : Nat) (u : List Byte) : Nat :=
  let w := leNat u
  let b := if fmt = 1 then 12 else 16
  let re := toSigned b w
  let im := toSigned b (w / 2 ^ b)
  (re * re + im * im).toNat

/-- One unit measured and counted: its symbol's end is kept for the gain control, and the next mark begins the next
half-subframe. -/
def Ctr.advance (x : Ctr) (S r : Nat) (time : Option Nat) (u : List Byte) (ones : Bool) : Ctr :=
  let x := match time with
    | some fmt => { x with sum := x.sum + unitPower fmt u, n := x.n + 1, ais := x.ais || ones }
    | none => x
  let x := match symEnding S r (x.pos + 1) with
    | some j => if time.isSome then
        { x with ends := x.ends ++ [SymEnd.mk (x.half.getD 0) j x.sum x.n x.ais], sum := 0, n := 0, ais := false } else x
    | none => x
  if x.pos + 1 = S then { x with pos := 0, half := x.half.map (fun h => (h + 1) % halfNums) } else { x with pos := x.pos + 1 }

/-- Units of the stream, in order. -/
def Device.streamUnits (d : Device) (n : Nat) (e : List Byte) (us : List (List Byte × Bool)) : Device :=
  us.foldl (fun (d : Device) u =>
    let g := 32 * n + cCid e
    let x := (d.ctr g).advance (cS e) (d.carrierR (cCarrier e)) (if cFreq e then none else some (cFmt e)) u.1 (u.2 || (d.ctr g).jump)
    (d.setCtr g x).feed n e u.1 u.2) d

/-- n bytes of all ones. -/
def onesBytes (n : Nat) : List Byte := List.replicate n 0xFF

/-- Units of a container from place i of the multiframe of a label, with the pointer in force. The pointer gives each unit's
place after the mark of its half-subframe (R190): the stream starts at a mark, and where the place is not the one it stands at, it
is filled with all ones or units are left out, whichever is less (DESIGN CHOICE, log entry 51). While a stop leaves the carrier
without processing, they are discarded (R74). -/
def Device.feedAt (d : Device) (n : Nat) (e : List Byte) (lab ptr : Nat) (i : Int) (us : List (List Byte × Bool)) : Device :=
  let g := 32 * n + cCid e
  let x := d.ctr g
  let S := cS e
  if d.ctrStopped e then
    d.setCtr g { x with acc := [], flags := 0, queue := [], half := none, sum := 0, n := 0, ais := false, ends := [] }
  else if S = 0 then d
  else
    let c := i - (ptr * 2 ^ cScale e : Nat)
    let half := (((lab : Int) + c / S) % halfNums).toNat
    let place := (c % S).toNat
    match x.half with
    | none =>
      let wait := if place = 0 then 0 else S - place
      if us.length ≤ wait then d
      else (d.setCtr g { x with half := some (if wait = 0 then half else (half + 1) % halfNums), pos := 0 }).streamUnits n e
        (us.drop wait)
    | some _ =>
      let gap := (place + S - x.pos % S) % S
      if 2 * gap ≤ S then
        let d := d.streamUnits n e (List.replicate gap (onesBytes (cUnit e), true))
        (d.setCtr g { d.ctr g with half := some half, pos := place }).streamUnits n e us
      else d.streamUnits n e (us.drop (S - gap))

/-- A pop of 64-byte units: INLINE bit 0 when any was all ones; more than is queued is TARGET_ERR (R444). -/
def Device.ctrPop (d : Device) (g units : Nat) : Device × Resp :=
  let x := d.ctr g
  if x.queue.length < units then (d, targetErr)
  else
    let us := x.queue.take units
    let bs := us.flatMap (fun u => match u with
      | some p => p.1
      | none => onesBytes 64)
    let ais := us.any (fun u => match u with
      | some p => p.2
      | none => true)
    (d.setCtr g { x with queue := x.queue.drop units }, ⟨0, b2n ais, false, false, bs⟩)

/-! ### Downlink (R191, R206, R308) -/

/-- n units from a first one, cut into tiles of at most g. -/
def cutUnits (start n g : Nat) : List (Nat × Nat) :=
  (List.range (ceilDiv n (max 1 g))).map (fun i => (start + g * i, min g (n - g * i)))

/-- Places and units of the tiles of symbol j of a half-subframe: each symbol begins a new tile (R129, R210). -/
def Device.symTiles (d : Device) (e : List Byte) (j : Nat) : List (Nat × Nat) :=
  if cFreq e then cutUnits (j * d.symPrbs e) (d.symPrbs e) (fmtGroups (cFmt e))
  else
    let a := symBegin (cS e) (d.carrierR (cCarrier e)) j
    cutUnits a (symBegin (cS e) (d.carrierR (cCarrier e)) (j + 1) - a) (if cFmt e = 1 then 1365 else 1024)

/-- The half-subframe of a downlink unit at place i of a multiframe of a label, and its place after that half-subframe's mark
(R191). -/
def dlPlace (e : List Byte) (lab : Nat) (i : Nat) : Nat × Nat :=
  let c : Int := (i : Int) - (cPtr0 e * 2 ^ cScale e : Nat)
  ((((lab : Int) + cAdv e + c / cS e) % halfNums).toNat, (c % cS e).toNat)

/-- Places in the multiframe of the units of basic frame k. -/
def frameUnits (e : List Byte) (k : Nat) : List Nat := (List.range (cNk e k)).map (k * cS e / 1500 + ·)

/-- A tile reaches its send point: its request line is raised, and it is awaited. -/
def Device.sendPoint (d : Device) (n : Nat) (e : List Byte) (half : Nat) (t : Nat × Nat) : Device :=
  let g := 32 * n + cCid e
  let x := d.ctr g
  if x.dl.any (fun k => k.half == half && k.start == t.1) then d
  else (d.setCtr g { x with dl := x.dl ++ [⟨half, t.1, t.2, [], false, false⟩] }).dmaPulse (cDreq e)

/-- Filet: the tiles whose first unit basic frame i carries (R308). -/
def Device.sendPoints (d : Device) (n : Nat) (e : List Byte) (i : Nat) : Device :=
  let f := d.txFrame i
  let tiles := (List.range (halfSyms (d.carrierR (cCarrier e)))).flatMap (d.symTiles e)
  (frameUnits e f.2.2).foldl (fun (d : Device) u =>
    let p := dlPlace e (20 * f.1 + f.2.1) u
    match tiles.find? (fun t => t.1 == p.2) with
    | some t => d.sendPoint n e p.1 t
    | none => d) d

/-- ETH_25: the tiles of a symbol (R308). -/
def Device.sendSymbol (d : Device) (n : Nat) (e : List Byte) (half j : Nat) : Device :=
  (d.symTiles e j).foldl (fun (d : Device) t => d.sendPoint n e half t) d

/-- A push of downlink data: the oldest tile past its send point that has not arrived takes it; data of a
tile that was late is dropped (R308). A zero tile is counted in MXE_DL_CNT_LATE. -/
def Device.ctrPush (d : Device) (g : Nat) (zero : Bool) (bs : List Byte) : Device × Resp :=
  let x := d.ctr g
  if 0 < x.late then (d.setCtr g { x with late := x.late - 1 }, ok)
  else
    let i := x.dl.findIdx (fun t => !t.arrived)
    match x.dl[i]? with
    | none => (d, ok)
    | some t =>
      let t := { t with arrived := true, mute := zero, bytes := if zero then [] else bs }
      let d := if zero then d.count (MXE_DL_CNT_LATE_COUNT (g / 512)) 1 else d
      (d.setCtr g { x with dl := x.dl.set i t }, ok)

/-- A unit of u bytes is due: from its tile, or zeros with MUTE where the tile is muted, was never asked for, or has not
arrived, which makes it late (R308). The bytes, the mute mark, the container after it, and late tiles. -/
def Ctr.dlUnit (x : Ctr) (u half place : Nat) : List Byte × Bool × Ctr × Nat :=
  let zeros := List.replicate u 0
  let i := x.dl.findIdx (fun t => t.half == half && decide (t.start ≤ place) && decide (place < t.start + t.n))
  match x.dl[i]? with
  | none => (zeros, true, x, 0)
  | some t =>
    let late := !t.arrived
    let t := if late then { t with arrived := true, mute := true, bytes := [] } else t
    let own := (t.bytes.drop (u * (place - t.start))).take u
    let x := { x with
      late := x.late + b2n late
      dl := if place + 1 = t.start + t.n then x.dl.eraseIdx i else x.dl.set i t }
    (if t.mute then zeros else own ++ List.replicate (u - own.length) 0, t.mute, x, b2n late)

/-- The units of a downlink container at some places, in order; whether any was muted. A carrier without processing is sent
muted (R74). -/
def Device.dlUnits (d : Device) (n : Nat) (e : List Byte) (ps : List (Nat × Nat)) : Device × List (List Byte) × Bool :=
  let g := 32 * n + cCid e
  if d.ctrStopped e then (d.setCtr g { d.ctr g with dl := [], late := 0 }, ps.map (fun _ => List.replicate (cUnit e) 0), !ps.isEmpty)
  else
    let r := ps.foldl (fun (a : Ctr × List (List Byte) × Bool × Nat) p =>
      let y := a.1.dlUnit (cUnit e) p.1 p.2
      (y.2.2.1, a.2.1 ++ [y.1], a.2.2.1 || y.2.1, a.2.2.2 + y.2.2.2)) (d.ctr g, [], false, 0)
    ((d.setCtr g r.1).count (MXE_DL_CNT_LATE_COUNT (n / 16)) r.2.2.2, r.2.1, r.2.2.1)

/-- The bytes of a downlink container in basic frame k of a multiframe, with the MUTE it will send (R191). -/
def Device.dlFrame (d : Device) (n : Nat) (e : List Byte) (lab k : Nat) : Device × List Byte :=
  let g := 32 * n + cCid e
  match d.dlUnits n e ((frameUnits e k).map (dlPlace e lab)) with
  | (d, us, mute) => (d.setCtr g { d.ctr g with muteAge := if mute then 0 else min 32 ((d.ctr g).muteAge + 1) }, us.flatten)

/-! ### Meanings -/

/-- AGC_SYMBOL_END: the oldest symbol measured of an entry's container makes its step; its mean power in dBFS of the format is a
kernel (R212, R219). -/
def execAgcSymbolEnd (q : Fin 4) (e : Fin 512) (s : State) : Host.Outcome State Fault Refusal :=
  s.run (fun d =>
    let n := 16 * q.val + e.val / 32
    let g := 32 * n + e.val % 32
    match (d.ctrEntries n).find? (fun k => cCid k == e.val % 32 && !cDown k), (d.ctr g).ends with
    | some k, m :: t =>
      let p := symSlot (d.carrierR (cCarrier k)) (d.halfAbs m.half) m.sym
      (d.setCtr g { d.ctr g with ends := t }).agcStep q.val e.val (cCarrier k) (p.1 % 65536).toNat p.2
        (toSigned 16 (Config.kernel 41 [cFmt k, m.sum, m.n] [] 0)) m.ais
    | _, _ => d)

/-- CONTAINER_WINDOW_POP of 64-byte units (R444). -/
def execContainerWindowPop (g : Fin 2048) (units : Fin 65) (src : BitVec 10) (s : State) :
    Host.Outcome State Fault Refusal :=
  s.answer src.toNat (fun d => d.ctrPop g.val units.val)

/-- CONTAINER_WINDOW_PUSH (R444). -/
def execContainerWindowPush (g : Fin 2048) (zero : Bool) (data : List Byte) (src : BitVec 10) (s : State) :
    Host.Outcome State Fault Refusal :=
  s.answer src.toNat (fun d => d.ctrPush g.val zero data)

/-- DL_SEND_POINT: in a Filet mode of the tiles whose first unit basic frame i of the base tick carries, 3 µs ahead; over
Ethernet of a symbol's tiles (R308, R436). -/
def execDlSendPoint (n : Fin 64) (cid : Fin 32) (i : Fin 384) (slot : BitVec 16) (sym : Fin 14) (s : State) :
    Host.Outcome State Fault Refusal :=
  s.run (fun d =>
    match (d.ctrEntries n.val).find? (fun e => cCid e == cid.val && cDown e) with
    | none => d
    | some e =>
      let r := d.carrierR (cCarrier e)
      if d.laneMode n.val ≠ 3 then d.sendPoints n.val e i.val
      else
        let h := symHalf r (nearTick 16 (d.carrierTickI r) slot.toNat) sym.val
        d.sendSymbol n.val e ((h.1 + 20 * d.get TTB_FRAME_SFN_OFS) % halfNums).toNat h.2)

end Sys2Proof.Machine
end

