-- ==== Sys2Proof/Machine/TwinCells.lean ====
section
/-! DEFINITION. The cells of the twin link as they are formed and sent: headers, groups, messages,
mirrored lines and COMMITs (R526 to R528). -/

namespace Sys2Proof.Machine
open R

/-! ### Cells (R526, R527) -/

def roleStandby : Nat := 1
def roleActive : Nat := 2
def roleTaking : Nat := 3

/-- A cell of 72 bytes: header and one data unit, padded with zeros. -/
def cellBytes (ty : Nat) (last : Bool) (addr seq : Nat) (data : List Byte) : List Byte :=
  leBytes 8 (ty + 16 * b2n last + addr / 64 % 2 ^ 42 * 64 + 2 ^ 48 * (seq % 2 ^ 16)) ++
    (data ++ List.replicate (64 - data.length) 0)

/-- Puts a cell on a group, numbered within its group and type. -/
def Device.sendCell (d : Device) (g ty : Nat) (last : Bool) (addr : Nat) (data : List Byte) : Device :=
  let n := tabGet (fun _ => 0) d.twin.seq (16 * g + ty)
  { d with twin := { d.twin with
    tx := d.twin.tx ++ [(g, cellBytes ty last addr n data)]
    seq := tabSet (fun _ => 0) d.twin.seq (16 * g + ty) ((n + 1) % 2 ^ 16) } }

/-- Whether a twin group delivers data: its condition is neither DISABLED nor DOWN (R199). -/
def Device.grpLive (d : Device) (g : Nat) : Bool :=
  let st := if g = 0 then d.get TWN_STATUS_G0_STATE else d.get TWN_STATUS_G1_STATE
  st == 1 || st == 2 || st == 3

/-- The die of a line of DRAM or of a cluster's shared memory (R527). -/
def Device.lineDie (d : Device) (a : Nat) : Nat :=
  if a < 2 ^ 38 then (d.dramMap a).1 / 3
  else if a < 0x5400000000 then (a - 0x5000000000) / 2 ^ 24 / 10
  else (a - 0x5400000000) / 2 ^ 24 / 10

/-- The group a line travels on: its die's, else the other; LINK_DOWN when both are down (R527). -/
def Device.lineGroup (d : Device) (a : Nat) : Device × Nat :=
  let g := d.lineDie a
  if d.grpLive g then (d, g)
  else if d.grpLive (1 - g) then (d, 1 - g)
  else (d.cause TWN_EV_CAUSE_LINK_DOWN 128, g)

/-! ### What a group's basic frame carries -/

/-- One 64-byte unit of a die's message queue goes, and its room is announced on line 256d + 241 (R527). -/
def Device.takeMsg (d : Device) (g : Nat) : Device :=
  match tabGet (fun _ => []) d.twin.msgTx g with
  | [] => d
  | u :: t =>
    let d := { d with twin := { d.twin with msgTx := tabSet (fun _ => []) d.twin.msgTx g t } }
    (d.sendCell g 4 u.2 0 u.1).dmaPulse (256 * g + 241)

/-- The next line of the epoch goes, with the bytes it holds now: MIRROR, or SOFTBUF for an address plus 1
(R528). -/
def Device.takeLine (d : Device) (g a : Nat) : Device :=
  let soft := a % 2 == 1
  let addr := a / 64 * 64
  let d := { d with twin := { d.twin with
    lines := d.twin.lines.erase a
    sent := if soft then d.twin.sent else tabSet (fun _ => 0) d.twin.sent g (tabGet (fun _ => 0) d.twin.sent g + 1) } }
  let data := match d.place addr with
    | some p => d.bytes p 64
    | none => []
  d.sendCell g (if soft then 6 else 2) false addr data

/-- Messages, then lines of the epoch that travel on a group, until n cells wait on it. -/
def Device.fillCells (d : Device) (g n : Nat) : Nat → Device
  | 0 => d
  | f + 1 =>
    if n ≤ (d.twin.tx.filter (fun c => c.1 == g)).length then d
    else if !(tabGet (fun _ => []) d.twin.msgTx g).isEmpty then (d.takeMsg g).fillCells g n f
    else match d.twin.lines.find? (fun a => (d.lineGroup (a / 64 * 64)).2 == g) with
      | some a => ((d.lineGroup (a / 64 * 64)).1.takeLine g a).fillCells g n f
      | none => d

/-- Once every line has gone, both groups carry the COMMIT of the epoch with their counts. -/
def Device.commitEpoch (d : Device) : Device :=
  if d.twin.sending && d.twin.lines.isEmpty then
    let cell := fun (d : Device) g =>
      d.sendCell g 3 false 0 (leBytes 8 d.twin.epochTick ++ leBytes 4 (tabGet (fun _ => 0) d.twin.sent g))
    let d := cell (cell d 0) 1
    { d with twin := { d.twin with
      sending := false, sent := [], prevCommit := d.twin.sentCommit, sentCommit := d.twin.epochTick } }
  else d

/-- The payload of a twin group's basic frame: 42 cells, IDLE when none waits. -/
def Device.twinBytes (d : Device) (g len : Nat) : Device × List Byte :=
  let d := (d.fillCells g 42 42).commitEpoch
  let mine := (d.twin.tx.filter (fun c => c.1 == g)).take 42
  let rest := d.twin.tx.filter (fun c => c.1 != g) ++ (d.twin.tx.filter (fun c => c.1 == g)).drop 42
  let bs := mine.flatMap (·.2)
  let d := { d with twin := { d.twin with tx := rest } }
  (d.count TWN_CNT_TX_COUNT mine.length, bs ++ List.replicate (len - bs.length) 0)

end Sys2Proof.Machine
end

