-- ==== Sys2Proof/Machine/Framer.lean ====
section
/-! DEFINITION. Filet framing: basic-frame and multiframe alignment, pointers and justification, lane groups, transmission
(R173 to R201, R207, R208). -/

namespace Sys2Proof.Machine
open R

/-! ### Alignment and overhead blocks (R176 to R179) -/

/-- Bits of a block from hi down to lo, bit hi first. -/
def bitsDown (v hi lo : Nat) : List Bool := (List.range (hi + 1 - lo)).map (fun i => bit v (hi - i))

def crc6 (v : Nat) : Nat := crcBits 6 0x03 0 (bitsDown v 63 6)
def crc8Over (v : Nat) : Nat := crcBits 8 0x07 0 (bitsDown v 63 8)

def alignWord : Nat := 0x5C3A96E1
def aBfn (v : Nat) : Nat := bits v 31 21
def aMfn (v : Nat) : Nat := bits v 20 16
def aSfn (v : Nat) : Nat := bits v 15 6

/-- A valid block 0 (R176). -/
def alignValid (v : Nat) : Bool :=
  bits v 63 32 == alignWord && bits v 5 0 == crc6 v && decide (aBfn v < 1500) && decide (aMfn v < 20)

/-- Block 0 of a basic frame. -/
def alignBlock (sfn mfn bfn : Nat) : Nat :=
  let v := 2 ^ 32 * alignWord + 2 ^ 21 * bfn + 2 ^ 16 * mfn + 2 ^ 6 * sfn
  v + crc6 v

/-- Block 1 with its CRC8 (R177). -/
def overBlock (ptr jc cid : Nat) (mute gv : Bool) (grp mem : Nat) (par rdi : Bool) : Nat :=
  let v := 2 ^ 48 * (ptr % 65536) + 2 ^ 46 * jc + 2 ^ 41 * cid + 2 ^ 40 * b2n mute + 2 ^ 39 * b2n gv + 2 ^ 35 * grp +
    2 ^ 32 * mem + 2 ^ 31 * b2n par + 2 ^ 30 * b2n rdi
  v + crc8Over v

/-- The payload scrambler's seed for a basic frame, and one block through it, bit 0 first (R179). -/
def scrSeed (bfn : Nat) : Nat := 2 ^ 22 + 2 ^ 11 * bfn + 0x536
def scramble (reg v : Nat) : Nat × Nat :=
  (List.range 64).foldl (fun (a : Nat × Nat) i =>
    let o := bit a.1 22 != bit a.1 17
    ((a.1 * 2 + b2n o) % 2 ^ 23, a.2 + 2 ^ i * b2n (bit v i != o))) (reg, 0)

/-! ### Pointers and justification (R192 to R194) -/

def Device.pState (d : Device) (n : Nat) (e : List Byte) : Nat := d.get (FIL_CTR_STATUS_PSTATE n (cCid e))

/-- NORM with an expected pointer, from ACQ or LOP. -/
def Device.ptrNorm (d : Device) (n : Nat) (e : List Byte) (ptr : Nat) : Device :=
  (d.put (FIL_CTR_STATUS_PSTATE n (cCid e)) 1).put (FIL_CTR_STATUS_PTR n (cCid e)) ptr

/-- One visit of an uplink container whose block 1 checks (R193). -/
def Device.ptrVisit (d : Device) (n : Nat) (e : List Byte) (ptr : Nat) : Device :=
  let g := 32 * n + cCid e
  let x := d.ctr g
  let inr := decide (ptr < cPtrs e)
  let run := if !inr then 0 else if ptr = x.ptr then x.run + 1 else 1
  if d.pState n e ≠ 1 then
    if run = 3 then (d.setCtr g { x with ptr := ptr, run := 0, mism := 0 }).ptrNorm n e ptr
    else d.setCtr g { x with ptr := ptr, run := run }
  else if ptr = d.get (FIL_CTR_STATUS_PTR n (cCid e)) then d.setCtr g { x with run := 0, mism := 0 }
  else if run = 3 then
    ((d.setCtr g { x with ptr := ptr, run := 0, mism := 0, jump := true }).ptrNorm n e ptr).filCause n
      FIL_LANE_EV_CAUSE_PTR_JUMP
  else if x.mism + 1 = 8 then
    ((d.setCtr g { x with ptr := ptr, run := 0, mism := 0 }).put (FIL_CTR_STATUS_PSTATE n (cCid e)) 2).filCause n
      FIL_LANE_EV_CAUSE_LOP
  else d.setCtr g { x with ptr := ptr, run := run, mism := x.mism + 1 }

/-- One announcement of a container: 0b11, a failed block 1 and any JC of a LOCKED container count as
none (R194). -/
def Device.jcVote (d : Device) (n : Nat) (e : List Byte) (bfn : Nat) (ovhd : Option Nat) : Device :=
  let g := 32 * n + cCid e
  let v := bfn / 32
  let jc := match ovhd with
    | some o => bits o 47 46
    | none => 0
  let d := if jc = 3 || (cLocked e && jc ≠ 0) then d.bump (FIL_LANE_CNT_OHERR_COUNT n) 1 else d
  if 3 ≤ v % 6 || 8 ≤ v / 6 then d
  else
    let x := d.ctr g
    d.setCtr g { x with votes := (if v % 6 = 0 then [] else x.votes) ++ [if jc = 3 || cLocked e then 0 else jc] }

/-- Block 1 of a basic frame for the container it describes: its entry on the lane that serves it. -/
def Device.ctrVisit (d : Device) (n bfn : Nat) (ovhd : Option Nat) : Device :=
  match (d.ctrEntries n).find? (fun e => cCid e == bfn % 32 && !cDown e) with
  | none => d
  | some e =>
    let d := match ovhd with
      | some o => d.ptrVisit n e (bits o 63 48)
      | none => d
    d.jcVote n e bfn ovhd

/-- The justification of a container in basic frame k, decided by majority: units fewer or more, and the
pointer change of the next multiframe (R192, R194). -/
def Device.justify (d : Device) (n : Nat) (e : List Byte) (k : Nat) : Device × Int :=
  let c := cCid e
  if k < 96 + c || (k - 96 - c) % 192 ≠ 0 || d.pState n e ≠ 1 then (d, 0)
  else
    let g := 32 * n + c
    let x := d.ctr g
    let cnt := fun v => (x.votes.filter (· == v)).length
    let j : Int := if 2 ≤ cnt 1 then -1 else if 2 ≤ cnt 2 then 1 else 0
    let d := d.setCtr g { x with votes := [], adj := x.adj + j }
    if j = 0 then (d, 0)
    else
      let p : Int := d.get (FIL_CTR_STATUS_PTR n c) + x.delta - j
      let d := if j < 0 then d.bump (FIL_LANE_CNT_JUST_INC n) 1 else d.bump (FIL_LANE_CNT_JUST_DEC n) 1
      if p < 0 || (cPtrs e : Int) ≤ p then
        ((d.put (FIL_CTR_STATUS_PSTATE n c) 2).filCause n FIL_LANE_EV_CAUSE_LOP, j)
      else (d.setCtr g { d.ctr g with delta := x.delta - j }, j)

/-- The start of a multiframe for the containers a lane serves: pointers change, PTR_JUMP's mark ends. -/
def Device.ctrsStart (d : Device) (n : Nat) : Device :=
  (d.ctrEntries n).foldl (fun (d : Device) e =>
    if cDown e then d
    else
      let g := 32 * n + cCid e
      let x := d.ctr g
      let p : Int := d.get (FIL_CTR_STATUS_PTR n (cCid e)) + x.delta
      (if x.delta = 0 then d else d.put (FIL_CTR_STATUS_PTR n (cCid e)) p.toNat).setCtr g { x with delta := 0, adj := 0, jump := false }) d

/-! ### Delivery of a basic frame (R184, R185, R189, R193) -/

/-- The units of every uplink container of a lane in basic frame k of the multiframe of a label, from its payload bytes;
errored blocks make all ones of the units they touch, and so does a container in ACQ or LOP, with its labels from PTR0. -/
def Device.ctrsFrame (d : Device) (n lab k : Nat) (payload : List Byte) (bad : List Nat) : Device :=
  (d.ctrEntries n).foldl (fun (d : Device) e =>
    if cDown e then d
    else
      let first : Int := (k * cS e / 1500 : Nat) + (d.ctr (32 * n + cCid e)).adj
      match d.justify n e k with
      | (d, j) =>
        let u := cUnit e
        if d.pState n e ≠ 1 then
          d.feedAt n e lab (cPtr0 e) (k * cS e / 1500 : Nat) (List.replicate (cNk e k) (onesBytes u, true))
        else d.feedAt n e lab (d.get (FIL_CTR_STATUS_PTR n (cCid e))) first ((List.range ((cNk e k : Int) + j).toNat).map (fun i =>
          let o := cOfs e + i * u
          if bad.any (fun b => decide (8 * b < o + u) && decide (o < 8 * b + 8)) then (onesBytes u, true)
          else ((payload.drop o).take u, false)))) d

/-- All ones in place of every unit of basic frame k of a lane's containers. -/
def Device.ctrsOnes (d : Device) (n lab k : Nat) : Device :=
  (d.ctrEntries n).foldl (fun (d : Device) e => if cDown e then d else
    d.feedAt n e lab (cPtr0 e) (k * cS e / 1500 : Nat) (List.replicate (cNk e k) (onesBytes (cUnit e), true))) d

def nextMf (c : Nat × Nat) : Nat × Nat := if c.2 = 19 then ((c.1 + 1) % 1024, 0) else (c.1, c.2 + 1)

/-- The label SFN × 20 + MFN of the multiframe in progress: the expected counts, which advance once its own are known. -/
def Lane.label (x : Lane) : Nat :=
  match x.exp with
  | none => 0
  | some c => let c := if x.count.isSome then c else nextMf c
    20 * c.1 + c.2

/-- A complete basic frame of a lane: kept for its group, or delivered (R185, R198). -/
def Device.frameDone (d : Device) (n : Nat) : Device :=
  let x := d.lane n
  let d := d.setLane n { x with frame := [], skip := false }
  if !d.delivers n || x.skip then d
  else
    let bad := (x.frame.zipIdx.filter (fun p => p.1.2)).map (·.2)
    match d.laneGroup n with
    | some _ =>
      let f : RxFrame := ⟨1500 * x.label + x.bfn, x.stamp, x.frame.map (·.1), !bad.isEmpty, x.ovhd⟩
      d.setLane n { d.lane n with frames := x.frames ++ [f] }
    | none =>
      if 64 ≤ n then d
      else
        let d := d.put (FIL_LANE_STATUS_AIS n) 0
        d.ctrsFrame n x.label x.bfn (x.frame.flatMap (fun p => leBytes 8 p.1)) (if d.on FIL_CTRL_ERRBLK_AIS then bad else [])

/-! ### Alignment (R181 to R183) -/

/-- The winner is rejected: back to HUNT with the kept candidates, its position barred (R182). -/
def Device.reject (d : Device) (n : Nat) : Device :=
  let x := d.lane n
  let d := if x.mf then d.filCause n FIL_LANE_EV_CAUSE_MF_LOSS else d
  let d := d.setLane n { x with
    sync := false, mf := false, miss := 0, bars := x.bars ++ [x.base], frame := [], ovhd := none, frames := [] }
  (if (d.laneGroup n).isNone && n < 64 then d.ctrsAcq n else d).filShow n

/-- The judgement of a multiframe (R183): c are its counts when it is consistent, own the counts its first
valid block 0 gave. -/
def Device.judge (d : Device) (n : Nat) (cons : Bool) (own : Option (Nat × Nat)) : Device :=
  let x := d.lane n
  if !x.mf then
    let x := { x with bounds := x.bounds + 1, exp := own, prevOk := cons }
    if cons && (d.lane n).prevOk then
      ((d.setLane n { x with mf := true, badMf := 0, skip := true }).filCause n FIL_LANE_EV_CAUSE_MF_GAIN).filShow n
    else if 3 ≤ x.bounds then ((d.setLane n x).filCause n FIL_LANE_EV_CAUSE_FALSE_ALIGN).reject n
    else d.setLane n x
  else if cons then d.setLane n { x with exp := own, badMf := 0, prevOk := true }
  else
    let x := { x with exp := x.exp.map nextMf, badMf := x.badMf + 1, prevOk := false }
    if x.badMf = 3 then (d.setLane n x).reject n else d.setLane n x

/-- The counts of a multiframe become known from a valid block 0, and it is judged. -/
def Device.counts (d : Device) (n : Nat) (c : Nat × Nat) : Device :=
  let x := d.lane n
  let cons := x.exp.map nextMf == some c
  let d := if cons && n < 64 then (d.put (FIL_LANE_STATUS_SFN n) c.1).put (FIL_LANE_STATUS_MFN n) c.2 else d
  (d.setLane n { x with count := some c }).judge n cons (some c)

/-- A candidate's or a new candidate's step at a position (R181, R182). -/
def candStep (x : Lane) (p : Nat) (valid : Bool) (bfn : Nat) : Lane × Option Cand :=
  match x.cands.find? (fun c => c.pos == p) with
  | some c =>
    if valid && bfn = c.bfn then
      let c := { c with bfn := (bfn + 1) % 1500, hits := c.hits + 1 }
      ({ x with cands := x.cands.map (fun k => if k.pos = p then c else k) }, some c)
    else ({ x with cands := x.cands.filter (fun k => k.pos != p) }, none)
  | none =>
    if !x.sync && valid && decide (x.cands.length < 4) && !x.bars.contains p then
      ({ x with cands := x.cands ++ [⟨p, (bfn + 1) % 1500, 0⟩] }, none)
    else (x, none)

/-- HUNT's position: a candidate whose hits reach three wins (R181). -/
def Device.huntStep (d : Device) (n p v : Nat) (valid : Bool) : Device :=
  match candStep (d.lane n) p valid (aBfn v) with
  | (x, some c) =>
    if 3 ≤ c.hits then
      let x := { x with
        sync := true, base := p, bfn := aBfn v, miss := 0, cands := x.cands.filter (fun k => k.pos != p)
        count := some (aSfn v, aMfn v), exp := some (aSfn v, aMfn v), prevOk := false, bounds := 0, badMf := 0
        frame := [], ovhd := none, skip := true }
      ((d.setLane n x).filCause n FIL_LANE_EV_CAUSE_BF_GAIN).filShow n
    else (d.setLane n x).filShow n
  | (x, none) => (d.setLane n x).filShow n

/-- FIL_LANE_DELAY: when block 0 arrived, less the device's start of the same basic frame, which may lie between two
nanoseconds (R208, log entry 4). -/
def Device.frameDelay (d : Device) (n lab k : Nat) : Device :=
  let t : Int := 3 * ((d.lane n).stamp - (4 * d.halfAbs lab + d.frameF) * 125000) - 1000 * k
  match (if t % 3 = 0 then (false, d) else d.drawBool) with
  | (up, d) => d.put (FIL_LANE_DELAY_NS n) (ofSigned 32 (t / 3 + b2n up))

/-- Block 0's position in SYNC: the miss count, the multiframe boundary, the lane's delay (R181, R183). -/
def Device.syncBlock0 (d : Device) (n v : Nat) (valid : Bool) : Device :=
  let x := d.lane n
  let e := (x.bfn + 1) % 1500
  let good := valid && aBfn v = e
  let d := d.setLane n { x with bfn := e, miss := if good then 0 else x.miss + 1, frame := [], ovhd := none }
  let d := if good || 64 ≤ n then d else d.bump (FIL_LANE_CNT_AWERR_COUNT n) 1
  if !good && x.miss + 1 = 4 then d.frameLoss n
  else
    let d := if good && n < 64 then d.frameDelay n (20 * aSfn v + aMfn v) e else d
    let d := if e = 0 then
        let d := if x.count.isNone then d.judge n false none else d
        let d := if (d.lane n).sync then d.setLane n { d.lane n with count := none } else d
        if (d.laneGroup n).isNone && n < 64 then d.ctrsStart n else d
      else d
    if valid && (d.lane n).sync && (d.lane n).count.isNone then d.counts n (aSfn v, aMfn v) else d

/-- Block 1's position in SYNC (R177, R186, R193, R200). -/
def Device.syncBlock1 (d : Device) (n v : Nat) (err : Bool) : Device :=
  let x := d.lane n
  let okc := !err && bits v 7 0 == crc8Over v
  let ovhd := if okc then some v else none
  let d := d.setLane n { x with ovhd := ovhd, scr := scrSeed x.bfn }
  if 64 ≤ n then d
  else
    let d := if okc then d else d.bump (FIL_LANE_CNT_OHERR_COUNT n) 1
    let d := if okc && (bit v 30 != d.on (FIL_LANE_STATUS_RDI_RX n)) then
        (d.put (FIL_LANE_STATUS_RDI_RX n) (bits v 30 30)).filCause n
          (if bit v 30 then FIL_LANE_EV_CAUSE_RDI_ON else FIL_LANE_EV_CAUSE_RDI_OFF)
      else d
    match d.laneGroup n with
    | some (g, i) =>
      if !okc then d
      else
        let mem := if i = 8 then (d.grpData g).length - 1 else i
        let match_ := bit v 39 && bits v 38 35 == g && bits v 34 32 == mem && (bit v 31 == (i == 8))
        let x := d.lane n
        if match_ then d.setLane n { x with miswired := x.miswired - 1 }
        else (d.setLane n { x with miswired := 3 }).cause (FIL_GRP_EV_CAUSE_MISWIRED g) (112 + g)
    | none => if x.mf then d.ctrVisit n x.bfn ovhd else d

/-- A payload block in SYNC; the last one completes the basic frame. -/
def Device.syncPayload (d : Device) (n v : Nat) (err last : Bool) : Device :=
  let x := d.lane n
  let r := scramble x.scr v
  let d := d.setLane n { x with scr := r.1, frame := x.frame ++ [(r.2, err)] }
  if last then d.frameDone n else d

/-- A data block of the stream reaches the framer of a Filet lane: its position is judged (R181); at is the stamp of its header
(R52). An errored one is counted while the lane is ALIGNED (R185). -/
def Device.framerBlock (d : Device) (n v : Nat) (err : Bool) (stamp : Nat) : Device :=
  let x := d.lane n
  let b := d.frameB n
  let p := x.pos % b
  let valid := !err && alignValid v
  let off := (p + b - x.base % b) % b
  let d := d.setLane n { x with pos := (p + 1) % b, stamp := if off = 0 || (!x.sync && valid) then stamp else x.stamp }
  let d := if err && d.aligned n && n < 64 then d.bump (FIL_LANE_CNT_ERRBLK_COUNT n) 1 else d
  if !x.sync then d.huntStep n p v valid
  else
    let d := if off = 0 then d else
      let r := candStep (d.lane n) p valid (aBfn v)
      (d.setLane n r.1).filShow n
    if off = 0 then d.syncBlock0 n v valid
    else if off = 1 then d.syncBlock1 n v err
    else d.syncPayload n v err (off + 1 == b)

/-! ### Lane groups (R196 to R200) -/

/-- Basic frames in the numbering of RxFrame. -/
def frameNums : Nat := 1024 * 20 * 1500

/-- The earliest of some frame numbers. -/
def earliest (l : List Nat) : Option Nat :=
  l.foldl (fun (b : Option Nat) n => match b with
    | none => some n
    | some a => if (a + frameNums - n) % frameNums < frameNums / 2 then some n else some a) none

/-- XOR of blocks place by place. -/
def xorBlocks (a b : List Nat) : List Nat := (a.zip b).map (fun p => p.1.xor p.2)

/-- A group's condition for a basic frame, held for a multiframe, shows in its state (R199). -/
def Device.grpCond (d : Device) (g cond : Nat) : Device :=
  let x := tabGet (fun _ => laneGroup0) d.groups g
  let run := if x.cond = cond then x.run + 1 else 1
  let d := { d with groups := tabSet (fun _ => laneGroup0) d.groups g { x with cond := cond, run := min run 1500 } }
  if run < 1500 then d
  else if 16 ≤ g then
    let f := if g = 16 then TWN_STATUS_G0_STATE else TWN_STATUS_G1_STATE
    let old := d.get f
    if old = cond then d
    else
      let d := d.put f cond
      let d := if old = 1 then d.cause TWN_EV_CAUSE_GRP_DEGRADED 128 else d
      let up := d.get TWN_STATUS_G0_STATE
      let ups := (1 ≤ up && up ≤ 3) || (1 ≤ d.get TWN_STATUS_G1_STATE && d.get TWN_STATUS_G1_STATE ≤ 3)
      if ups && !d.on TWN_STATUS_LINK_UP then (d.put TWN_STATUS_LINK_UP 1).cause TWN_EV_CAUSE_LINK_UP 128
      else if !ups && d.on TWN_STATUS_LINK_UP then (d.put TWN_STATUS_LINK_UP 0).cause TWN_EV_CAUSE_LINK_DOWN 128
      else d
  else if d.get (FIL_GRP_STATUS_STATE g) = cond then d
  else
    let d := d.put (FIL_GRP_STATUS_STATE g) cond
    match cond with
    | 1 => d.cause (FIL_GRP_EV_CAUSE_RESTORED g) (112 + g)
    | 4 => d.cause (FIL_GRP_EV_CAUSE_DOWN g) (112 + g)
    | _ => d.cause (FIL_GRP_EV_CAUSE_DEGRADED g) (112 + g)

/-- The largest skew of the last multiframe, in units of 20 ns. -/
def Device.grpSkew (d : Device) (g m : Nat) : Device :=
  let x := tabGet (fun _ => laneGroup0) d.groups g
  let mx := max x.skew m
  let full := decide (1500 ≤ x.frames + 1)
  let d := { d with groups := tabSet (fun _ => laneGroup0) d.groups g { x with
    skew := if full then 0 else mx, frames := if full then 0 else x.frames + 1 } }
  if full && g < 16 then d.put (FIL_GRP_STATUS_SKEW g) (min mx 255) else d

/-- A basic frame of a group, delivered, rebuilt or all ones: a member's skew is how much later than the earliest member's its
block 0 arrived (R198, R199). -/
def Device.groupFrame (d : Device) (g i : Nat) : Device :=
  let data := d.grpData g
  let par := d.grpPar g
  let all := data ++ par.toList
  if data.isEmpty then d
  else
    let num := earliest (all.filterMap (fun n => ((d.lane n).frames.head?).map (·.num)))
    let got := fun n => (d.lane n).frames.find? (fun f => some f.num == num)
    let times := all.filterMap (fun n => (got n).map (·.at_))
    let first := times.foldl min (times.headD 0)
    let skew := fun n => (got n).elim 0 (fun f => f.at_ - first)
    let usable := all.map (fun n => d.delivers n && (d.lane n).miswired == 0 && decide (skew n ≤ 4000) && (match got n with
      | some f => !f.bad
      | none => false))
    let d := if all.any (fun n => decide (4000 < skew n)) && g < 16 then d.cause (FIL_GRP_EV_CAUSE_SKEW g) (112 + g) else d
    let d := d.grpSkew g ((all.map skew).foldl max 0 / 20)
    let du := usable.take data.length
    let parOk := par.isSome && usable.getD data.length false
    let lost := (du.filter (!·)).length
    let cond : Nat := if lost = 0 then (if par.isSome && !parOk then 2 else 1)
      else if lost = 1 && parOk then 3 else 4
    let mask := (usable.take data.length).zipIdx.foldl (fun m p => m + b2n p.1 * 2 ^ p.2) 0 + 256 * b2n parOk
    let d := if g < 16 then (d.put (FIL_GRP_STATUS_USABLE g) mask).put (FIL_GRP_STATUS_LOST g)
        (if cond = 3 then du.findIdx (!·) else 0) else d
    let pay := fun n => match got n with
      | some f => f.payload
      | none => []
    let rebuilt := (((data.zip du).filter (·.2)).map (fun p => pay p.1)).foldl xorBlocks (par.elim [] pay)
    let blocks := (data.zip du).map (fun p => if p.2 then pay p.1 else rebuilt)
    let ovhd := ((all.zip usable).filter (·.2)).findSome? (fun p => (got p.1).bind (·.ovhd))
    let own := d.txFrame i
    let at_ := num.getD (1500 * (20 * own.1 + own.2.1) + own.2.2)
    let lab := at_ / 1500
    let k := at_ % 1500
    let d := all.foldl (fun (d : Device) n => d.setLane n { d.lane n with
      frames := (d.lane n).frames.filter (fun f => some f.num != num) }) d
    let n0 := data.headD 0
    let d := d.grpCond g cond
    let bytes := (List.range ((blocks.headD []).length)).flatMap (fun r => blocks.flatMap (fun b => leBytes 8 (b.getD r 0)))
    if 16 ≤ g then
      if cond = 4 then d
      else { d with twin := { d.twin with rx := d.twin.rx ++ (List.range 42).map (fun j => (g - 16, (bytes.drop (72 * j)).take 72)) } }
    else if cond = 4 then
      (((d.bump (FIL_GRP_CNT_AISBF_COUNT g) 1).tally 9 1).ctrsAcq n0).ctrsOnes n0 lab k
    else
      let d := if cond = 3 then (d.bump (FIL_GRP_CNT_RECON_COUNT g) 1).tally 8 1 else d
      let d := if k = 0 then d.ctrsStart n0 else d
      (d.ctrVisit n0 k ovhd).ctrsFrame n0 lab k bytes []

/-! ### Transmission (R174, R191, R206) -/

/-- Places bytes at an offset. -/
def putAt (l : List Byte) (o : Nat) (bs : List Byte) : List Byte := l.take o ++ bs ++ l.drop (o + bs.length)

/-- Payload of basic frame k of the multiframe of a label for the containers of a lane, of len bytes. -/
def Device.txPayload (d : Device) (n lab k len : Nat) : Device × List Byte :=
  (d.ctrEntries n).foldl (fun (a : Device × List Byte) e =>
    if cDown e then
      let r := a.1.dlFrame n e lab k
      (r.1, putAt a.2 (cOfs e) r.2)
    else a) (d, List.replicate len 0)

/-- Scrambles payload blocks in order. -/
def scrambleAll : Nat → List Nat → List Nat
  | _, [] => []
  | reg, v :: t => let r := scramble reg v
    r.2 :: scrambleAll r.1 t

/-- Sends one lane's basic frame and the two or three fillers that its reference leaves room for, or the test pattern (R158,
R170); block 0 is stamped (R52). How many fillers there are is a measured fact (log entry 5). -/
def Device.sendFrame (d : Device) (n : Nat) (f : Nat × Nat × Nat) (ovhd : Nat) (blocks : List Nat) : Device :=
  if d.laneState n = lDisabled || !d.laneRuns n then d
  else if d.on (RLN_LANE_TEST_GEN n) then d.emit (.prbs n)
  else match d.drawBool with
    | (three, d) =>
      let bs := ([alignBlock f.1 f.2.1 f.2.2, ovhd] ++ scrambleAll (scrSeed f.2.2) blocks).map (fun v => (1, v))
      match d.lineBlocks n (bs ++ List.replicate (2 + b2n three) (2, fillerBlock)) with
      | (d, out) => d.emit (.frame n (d.time.stamp (1000 * (f.2.2 % 375) / 3) (3 + d.laneMode n)) out)

/-- Blocks of bytes, eight at a time. -/
def toBlocks (bs : List Byte) : List Nat := (List.range (bs.length / 8)).map (fun i => leNat ((bs.drop (8 * i)).take 8))

/-- PTR, JC and MUTE of the container that basic frame k describes. -/
def Device.overOf (d : Device) (n k : Nat) : Nat × Bool :=
  match (d.ctrEntries n).find? (fun e => cCid e == k % 32 && cDown e) with
  | none => (0, false)
  | some e => (cPtr0 e, decide ((d.ctr (32 * n + cCid e)).muteAge < 32) || d.get TWN_STATUS_ROLE == 1)

/-- RDI that a lane sends (R186). -/
def Device.rdiOf (d : Device) (n : Nat) : Bool := d.on FIL_CTRL_RDI_TX && !d.aligned n

/-- Basic frame i of the current base tick begins on the members of a group (R174, R196, R197). -/
def Device.txGroup (d : Device) (g i : Nat) (bytes : Device → Nat → Nat → Nat → Device × List Byte) : Device :=
  let f := d.txFrame i
  let data := d.grpData g
  let n0 := data.headD 0
  let p := d.frameB n0 - 2
  let m := data.length
  match bytes d (20 * f.1 + f.2.1) f.2.2 (8 * p * m) with
  | (d, bs) =>
    let all := toBlocks bs
    let row := fun j => (List.range p).map (fun r => all.getD (m * r + j) 0)
    let o := d.overOf n0 f.2.2
    let gn := if 16 ≤ g then g - 16 else g
    let d := (List.range m).foldl (fun (d : Device) j =>
      let n := data.getD j 0
      d.sendFrame n f (overBlock o.1 0 (f.2.2 % 32) o.2 true gn j false (d.rdiOf n)) (row j)) d
    match d.grpPar g with
    | none => d
    | some n => d.sendFrame n f (overBlock o.1 0 (f.2.2 % 32) o.2 true gn (m - 1) true (d.rdiOf n))
        ((List.range m).foldl (fun b j => xorBlocks b (row j)) (List.replicate p 0))

/-- Basic frame i of the current base tick begins on a lane outside any group; while it delivers no data, all ones take the place of its uplink units on the same clock (R174, R184). -/
def Device.txLane (d : Device) (n i : Nat) : Device :=
  let f := d.txFrame i
  let p := d.frameB n - 2
  match d.txPayload n (20 * f.1 + f.2.1) f.2.2 (8 * p) with
  | (d, bs) =>
    let o := d.overOf n f.2.2
    let d := d.sendFrame n f (overBlock o.1 0 (f.2.2 % 32) o.2 false 0 0 false (d.rdiOf n)) (toBlocks bs)
    if d.delivers n || (d.ctrEntries n).all cDown then d
    else ((d.put (FIL_LANE_STATUS_AIS n) 1).bump (FIL_LANE_CNT_AISBF_COUNT n) 1).ctrsOnes n (20 * f.1 + f.2.1) f.2.2

/-! ### Blocks between PCS and framer (R160) -/

/-- The framer takes every block its FIFO holds. -/
def Device.drainFifo (d : Device) (n : Nat) : Device :=
  let x := d.lane n
  x.fifo.foldl (fun (d : Device) b => d.framerBlock n b.1 b.2.1 b.2.2) (d.setLane n { x with fifo := [] })

/-- A block for the framer: into the FIFO while the framer is held back, lost with FIFO_OVF when 32 wait there; else the framer
takes all that wait, and it. -/
def Device.fifoPut (d : Device) (n v : Nat) (err held : Bool) (stamp : Nat) : Device :=
  let x := d.lane n
  if held then
    (if 32 ≤ x.fifo.length then d.laneCause n RLN_LANE_EV_CAUSE_FIFO_OVF
    else d.setLane n { x with fifo := x.fifo ++ [(v, err, stamp)] })
  else (d.drainFifo n).framerBlock n v err stamp

/-- A block of a Filet lane, descrambled: a filler is deleted, and counted inside a basic frame; another control block is a
code error (R153, R160). -/
def Device.filetBlock (d : Device) (n hdr v : Nat) (held : Bool) (stamp : Nat) : Device :=
  if hdr = 2 && v = fillerBlock then
    let x := d.lane n
    let b := d.frameB n
    if x.sync && (x.pos + b - x.base % b) % b ≠ 0 then d.count (RLN_LANE_CNT_FILLER_COUNT n) 1 else d
  else
    let d := if hdr = 2 then d.count (RLN_LANE_CNT_CODEERR_COUNT n) 1 else d
    d.fifoPut n v (hdr != 1) held stamp

/-! ### Meanings -/

/-- LANE_BLOCK_RECEIVE: a header and 64 bits from the line, into nanoseconds after the last edge; held tells that the framer is
held back, and reads how many blocks the PCS of an ETH_25 lane takes meanwhile (R149 to R161, R170). With RSFEC, the block is
what the FEC's decoder gives, with an invalid header where it could not correct. A network lane, whose PCS and FEC are those of
IEEE 802.3, has only its pattern checked. -/
def execLaneBlockReceive (n : Fin 80) (hdr : BitVec 2) (payload : BitVec 64) (held : Bool) (reads : Fin 3) (into : Nat)
    (s : State) : Host.Outcome State Fault Refusal :=
  s.run (fun d =>
    let n := n.val
    let b := polar (d.rxInv n) (hdr.toNat, payload.toNat)
    if !d.laneHears n then d
    else
      let d := d.patternCheck n b.1 b.2
      if 72 ≤ n then d
      else
        let r := descramble (d.lane n).line b.2
        let d := d.setLane n { d.lane n with line := r.1 }
        match d.header n (b.1 == 1 || b.1 == 2) with
        | (d, false) => d
        | (d, true) =>
          if d.laneMode n = 3 then d.ethBlock n (b.1, r.2) reads.val
          else if !d.filet n then d
          else d.filetBlock n b.1 r.2 held (d.time.stamp into (3 + d.laneMode n)))

/-- ALIGNMENT_BLOCK_RECEIVE: a block at a block 0 position, or any position in HUNT (R156, R181). -/
def execAlignmentBlockReceive (n : Fin 72) (v : BitVec 64) (err : Bool) (into : Nat) (s : State) :
    Host.Outcome State Fault Refusal :=
  s.run (fun d =>
    let x := d.lane n.val
    let b := d.frameB n.val
    if d.laneLocked n.val && d.filet n.val && (!x.sync || x.pos % b == x.base % b) then
      d.framerBlock n.val v.toNat err (d.time.stamp into (3 + d.laneMode n.val))
    else d)

/-- CANDIDATE_BAR_EXPIRY: the oldest bar of a lane ends (R182). -/
def execCandidateBarExpiry (n : Fin 72) (s : State) : Host.Outcome State Fault Refusal :=
  s.run (fun d => d.setLane n.val { d.lane n.val with bars := (d.lane n.val).bars.drop 1 })

/-- OVERHEAD_BLOCK_RECEIVE: a block at a block 1 position (R177, R193). -/
def execOverheadBlockReceive (n : Fin 72) (v : BitVec 64) (err : Bool) (s : State) : Host.Outcome State Fault Refusal :=
  s.run (fun d =>
    let x := d.lane n.val
    let b := d.frameB n.val
    if d.laneLocked n.val && d.filet n.val && x.sync && x.pos % b == (x.base + 1) % b then
      d.framerBlock n.val v.toNat err x.stamp
    else d)

/-- GROUP_FRAME_DELIVERY (R199). -/
def execGroupFrameDelivery (g : Fin 18) (i : Fin 375) (s : State) : Host.Outcome State Fault Refusal :=
  s.run (fun d => d.groupFrame g.val i.val)

/-- BASIC_FRAME_TX: basic frame i of the base tick, on a lane or, from a group's member 0, on the group (R174). -/
def execBasicFrameTx (n : Fin 72) (i : Fin 375) (s : State) : Host.Outcome State Fault Refusal :=
  s.run (fun d =>
    if !d.filet n.val || d.laneState n.val = lDisabled then d
    else match d.laneGroup n.val with
      | none => if n.val < 64 then d.txLane n.val i.val else d
      | some (g, j) =>
        if j ≠ 0 then d
        else if 16 ≤ g then d.txGroup g i.val (fun d _ _ len => d.twinBytes (g - 16) len)
        else d.txGroup g i.val (fun d lab k len => d.txPayload n.val lab k len))

end Sys2Proof.Machine
end

