-- ==== Sys2Proof/Machine/Lace.lean ====
section
/-! DEFINITION. Lacework at its initiators: injection, held packets, responses, timeouts, epochs, crossing failures and
statistics (R95, R97, R99, R102, R105 to R108, R115 to R117). What a target does with a request it receives is
Serve.lean's. -/

namespace Sys2Proof.Machine
open R

/-! ### Injection (R97, R99, R103, R105, R116) -/

/-- A launched packet enters its router: its header in the local input, its units behind it. -/
def Device.enter (d : Device) (p : Packet) (req : Option Packet) : Device :=
  let inp := localInput p.src.toNat
  let f : Flight := ⟨p, [⟨inp, 1, d.lwk.moves⟩], pktUnits p, false, false, req, none⟩
  ({ d with lwk := { d.lwk with moves := d.lwk.moves + 1 } }.setFlights (d.lwk.flights ++ [f])).probe inp p

/-- A request at its injecting router: resolved in the current epoch and launched, or answered there (R90, R99). -/
def Device.injectNow (d : Device) (p : Packet) (again : Bool) : Device :=
  let c := p.cmd.toNat
  let e := d.get LWK_EPOCH_CUR
  if d.injectBad p then (d.lwErr LWK_ERR_INJ_DECODE 268 p).emit (.resp p.src.toNat decodeErr)
  else match (if c = cEvent || c = cBell then Dest.node p.dest.toNat else d.resolve e p.addr.toNat) with
    | .node n =>
      let p := d.launch { p with dest := BitVec.ofNat 10 n } (e == 1)
      let d := d.statInject p
      let d := if pktAwaits p then
          { d with lwk := { d.lwk with outst := d.lwk.outst ++ [⟨p, d.get LWK_EPOCH_FLIPS, again⟩] } }
        else d
      d.enter p none
    | .answer r =>
      let d := if r.code = 2 then d.lwErr LWK_ERR_INJ_DECODE 268 p else d
      d.emit (.resp p.src.toNat r)

/-- The packet of what is ready at a local port. -/
def Ready.pkt : Ready → Packet
  | .request p _ => p
  | .response p _ => p

/-- Whether what is ready may enter now: its port has a credit of its virtual channel. -/
def Device.roomFor (d : Device) (x : Ready) : Bool :=
  canEnter d.lwk.flights (localInput x.pkt.src.toNat) x.pkt.cls.toNat

/-- The first packet ready that may enter, none of its port and class before it. -/
def Device.nextReady (d : Device) : Option Ready :=
  d.lwk.ready.find? (fun x => d.roomFor x &&
    (d.lwk.ready.find? (fun y => y.pkt.src == x.pkt.src && y.pkt.cls == x.pkt.cls)) == some x)

/-- Packets ready enter their routers while credits last (R103). -/
def Device.pump : Nat → Device → Device
  | 0, d => d
  | n + 1, d =>
    match d.nextReady with
    | none => d
    | some x =>
      let d := { d with lwk := { d.lwk with ready := d.lwk.ready.erase x } }
      Device.pump n (match x with
        | .request p again => d.injectNow p again
        | .response p req => d.enter (d.launch p p.epoch) req)

/-- What is ready goes in as far as it can. -/
def Device.pumped (d : Device) : Device := Device.pump d.lwk.ready.length d

/-- A request is ready at its initiator's interface. -/
def Device.inject (d : Device) (p : Packet) (again : Bool) : Device :=
  { d with lwk := { d.lwk with ready := d.lwk.ready ++ [Ready.request p again] } }.pumped

/-- Whether an earlier request of an initiator has neither its response nor its acknowledgement, one held FENCED among
them (R97). -/
def Device.waitsOn (d : Device) (src : BitVec 10) : Bool :=
  d.lwk.outst.any (fun w => w.pkt.src == src) ||
    d.lwk.ready.any (fun x => match x with
      | .request p _ => p.src == src && pktAwaits p
      | .response _ _ => false) ||
    d.lwk.held.any (fun p => p.1.src == src && pktAwaits p.1 && (match p.2 with
      | .fenced _ => true
      | _ => false))

/-- Whether an initiator has a barrier waiting. -/
def Device.barred (d : Device) (src : BitVec 10) : Bool :=
  d.lwk.held.any (fun p => p.1.src == src && p.2 == .barrier)

/-- A packet offered to the initiator's interface: held behind or with a BARRIER, or injected (R97). -/
def Device.offer (d : Device) (p : Packet) : Device :=
  if d.barred p.src || (p.barrier && d.waitsOn p.src) then
    { d with lwk := { d.lwk with held := d.lwk.held ++ [(p, .barrier)] } }
  else d.inject p false

/-- Once nothing is awaited, the oldest held packets of an initiator go on, up to the next BARRIER. -/
def Device.barrierGo (d : Device) (src : BitVec 10) : Nat → Device
  | 0 => d
  | n + 1 =>
    match d.lwk.held.find? (fun p => p.1.src == src && p.2 == .barrier) with
    | none => d
    | some p =>
      if p.1.barrier && d.waitsOn src then d
      else ({ d with lwk := { d.lwk with held := d.lwk.held.erase p } }.inject p.1 false).barrierGo src n

/-! ### Responses (R93, R95, R102) -/

/-- Sends the response of a request, in the epoch of the request. A posted request has one when it is not OKAY; a posted
write has an acknowledgement (R95). -/
def Device.reply (d : Device) (p : Packet) (r : Resp) : Device :=
  if r.code = 0 && !pktAwaits p then d
  else { d with lwk := { d.lwk with
    ready := d.lwk.ready ++ [Ready.response (respPacket p r) (if pktAwaits p then none else some p)] } }.pumped

/-- What the interface does with the answer of a request made f flips ago: one marked FENCED is held until a flip has
taken place after its injection, and is injected again; one that was injected again already is completed (R17). -/
def Device.fencedHold (d : Device) (p : Packet) (flips : Nat) : Device :=
  if d.get LWK_EPOCH_FLIPS ≠ flips then d.inject p true
  else { d with lwk := { d.lwk with held := d.lwk.held ++ [(p, .fenced (d.get LWK_EPOCH_FLIPS))] } }

/-- A response at its initiator: late, FENCED and held, or the completion of its request (R17, R92, R95). -/
def Device.respond (d : Device) (p : Packet) (req : Option Packet) (poison : Bool) : Device :=
  let fenced := !poison && p.resp == 3 && p.inl.toNat % 2 == 1 && (nodeCluster p.src.toNat).isSome
  let answer := fun (d : Device) => d.emit (.resp p.dest.toNat (if poison then targetErr
    else ⟨p.resp.toNat, p.inl.toNat, p.prov, p.verify, p.data⟩))
  match req, d.lwk.outst.find? (fun w => w.pkt.src == p.dest && w.pkt.tag == p.tag) with
  | some q, _ => if fenced then d.fencedHold q (d.get LWK_EPOCH_FLIPS) else answer d
  | none, none => d.lwNote LWK_ERR_TIMEOUT p
  | none, some w =>
    let d := { d with lwk := { d.lwk with outst := d.lwk.outst.erase w } }
    if fenced && !w.again then d.fencedHold w.pkt w.flips
    else
      let d := if w.pkt.posted then d else d.statDone w.pkt true
      if p.cmd = 5 then d else answer d

/-! ### Epochs (R105 to R107, R115) -/

/-- DRAINED has risen: EV261, unless it has been found risen already (R106, R120). -/
def Device.drainRise (d : Device) : Device :=
  if d.oldCount = 0 && !d.lwk.drained then { d with lwk := { d.lwk with drained := true } }.pulse 261 else d

/-- The nearest working row to a row in a direction, the lower when two are equally near; the row
itself when none works (R115). -/
def Device.nearRow (d : Device) (die y : Nat) : Nat :=
  let f := d.get LWK_XLINK_FAILED
  let okr := (List.range 8).filter (fun r => !bit f (2 * r + die))
  (okr.foldl (fun (b : Option Nat) r =>
    let far := fun a => if a < y then y - a else a - y
    match b with
    | none => some r
    | some a => if far r < far a then some r else some a) none).getD y

/-- The router of the other die that a ROUTE entry names, from router i (0 to 95); a logical cluster's
entry applies only while its router lies on the other die (R108). -/
def Device.routeIdx (d : Device) (i idx : Nat) : Option Nat :=
  if idx < 48 then some idx
  else if 64 ≤ idx && idx < 84 then
    match d.physOf (idx - 64) with
    | some c => if c / 10 = i / 48 then none else some (routerOf (clusterNode c 0))
    | none => none
  else none

/-- Crossing rows as the ROUTE sections in force set them (R108). Of two entries that name the same router the later one holds
(DESIGN CHOICE, log entry 50). -/
def Device.routeRows (d : Device) : Tab Nat :=
  (d.pkl.active.filter (fun s => s.ty == 0x20)).foldl (fun t s =>
    let i := 48 * bits s.target 15 15 + 6 * bits s.target 11 9 + bits s.target 14 12
    (List.range (s.payload.length / 4)).foldl (fun t j =>
      match d.routeIdx i (wordAt s.payload j % 128) with
      | some k => tabSet xrowDflt t (64 * i + k) (bits (wordAt s.payload j) 9 7)
      | none => t) t) []

/-- Crossing rows of the next tables: those of the pricking, every failed one replaced (R108, R115). -/
def Device.xrowNow (d : Device) : Tab Nat :=
  let rows := d.routeRows
  if d.get LWK_XLINK_FAILED = 0 then rows
  else (List.range 96).foldl (fun t i => (List.range 48).foldl (fun t k =>
      let y := tabGet xrowDflt rows (64 * i + k)
      if bit (d.get LWK_XLINK_FAILED) (2 * y + i / 48) then tabSet xrowDflt t (64 * i + k) (d.nearRow (i / 48) y)
      else t) t) rows

/-- A ROUTE section of a partial pricking over the one in force: entries it does not name stay (R108). -/
def overRoute (old : List Section) (s : Section) : List Section :=
  if old.any (fun o => o.ty == 0x20 && o.target == s.target) then
    old.map (fun o => if o.ty == 0x20 && o.target == s.target then { o with payload := o.payload ++ s.payload } else o)
  else old ++ [s]

/-- Applied ROUTE sections come into force; those of a partial pricking only at its restart (R72, R76). -/
def Device.takeRoutes (d : Device) (restart : Bool) : Device :=
  match d.pkl.routes with
  | none => d
  | some (whole, ss) =>
    if whole then
      { d with pkl := { d.pkl with routes := none, active := d.pkl.active.filter (fun s => s.ty != 0x20) ++ ss } }
    else if restart then
      { d with pkl := { d.pkl with routes := none, active := ss.foldl overRoute d.pkl.active } }
    else d

/-- Whether a flip has taken place at this base tick edge (R77). -/
def Device.flipped (d : Device) : Bool := d.lwk.flipAt == d.time.edges + 1

/-- Whether a flip must come with a panel's start (R76). -/
def Device.routesWait (d : Device) (p : Nat) : Bool :=
  d.pkl.cmd == .reprick false p && (match d.pkl.routes with
    | some (false, _) => true
    | _ => false)

/-- The panel whose restart, due at this edge, brings routes (R76). -/
def Device.dueRoutes (d : Device) : Option Nat :=
  (List.range 20).find? (fun p => d.routesWait p && d.startDue p && d.mayStart p)

/-- The rotation due at this edge: CLa and the fallow cluster, with their logical clusters (R522). -/
def Device.dueRotation (d : Device) : Option (Nat × Nat × Nat × Nat) :=
  match d.flt.rotTo with
  | none => none
  | some a => match d.lcOf a, d.physOf (5 * (a / 5) + 4) with
    | some lc, some s => if d.flt.rotAt < d.time.edges then some (a, s, lc, 5 * (a / 5) + 4) else none
    | _, _ => none

/-- The tables of a flip at this edge: the map and the rows now in force, with the rotation and the restart that are due
at it (R77, R522). -/
def Device.planned (d : Device) : Routes :=
  let d := d.takeRoutes d.dueRoutes.isSome
  let d := match d.dueRotation with
    | some (a, s, lc, fal) => (d.put (FLT_LCMAP_PHYS lc) s).put (FLT_LCMAP_PHYS fal) a
    | none => d
  ⟨d.lcNow, d.xrowNow⟩

/-- A flip at this base tick edge has already written its tables with what is due. -/
def Device.joined (d : Device) : Bool := d.flipped && d.rt (d.get LWK_EPOCH_CUR) == d.planned

/-- The flip: the non-current tables, written with what is due at the edge, become current; held FENCED requests are injected again (R77, R105, R107, R17). -/
def Device.flip (d : Device) : Device :=
  if d.joined then d
  else
    let cur := d.get LWK_EPOCH_CUR
    let d := (d.drainRise).setRt (1 - cur) d.planned
    let d := (d.put LWK_EPOCH_CUR (1 - cur)).put LWK_EPOCH_FLIPS (d.get LWK_EPOCH_FLIPS + 1)
    let d := { d with lwk := { d.lwk with flipWanted := false, flipAt := d.time.edges + 1, drained := d.oldCount == 0 } }.pulse 260
    let isF := fun (p : Packet × HoldWhy) => match p.2 with
      | .fenced _ => true
      | _ => false
    let back := d.lwk.held.filter isF
    let d := { d with lwk := { d.lwk with held := d.lwk.held.filter (fun p => !isF p) } }
    back.foldl (fun (d : Device) p => d.inject p.1 true) d

/-- A flip that cannot take place at this edge: deferred, with EV262 (R107). -/
def Device.deferFlip (d : Device) : Device := (d.bump LWK_EPOCH_DEFERRED 1).pulse 262

/-- Whether Hayward may have written the non-current tables: their epoch is drained (R107), and no flip has taken place
at this edge. -/
def Device.canFlip (d : Device) : Bool := d.oldCount == 0 && !d.flipped

/-- Whether a change due at this edge has its flip: one that can be made, or the one that was made with it (R77). -/
def Device.canJoin (d : Device) : Bool := d.canFlip || d.joined

/-- A poisoned flit, at an input of a router (R92, R115). -/
def Device.poisoned (d : Device) (p : Packet) (inp : Nat) : Device :=
  let d := d.lwErr LWK_ERR_LINK_UE 257 p
  if inp % 13 = 12 then
    let x := 2 * (inp / 13 % 48 / 6) + (1 - inp / 13 / 48)
    { d with lwk := { d.lwk with
      xlinkUe := tabSet (fun _ => 0) d.lwk.xlinkUe x (tabGet (fun _ => 0) d.lwk.xlinkUe x + 1) } }
  else d

/-! ### Meanings -/

/-- PACKET_INJECT (R99). -/
def execPacketInject (p : Packet) (s : State) : Host.Outcome State Fault Refusal := s.run (fun d => d.offer p)

/-- A flight leaves the routers, and what is ready goes in. -/
def Device.dropFlight (d : Device) (n : Nat) : Device := (d.setFlights (d.lwk.flights.eraseIdx n)).pumped

/-- RESPONSE_RECEIVE: packet n of those under way, a response that its destination router has passed on, reaches its
initiator (R92, R95). -/
def execResponseReceive (n : Nat) (poison : Bool) (s : State) : Host.Outcome State Fault Refusal :=
  s.run (fun d =>
    match d.lwk.flights[n]? with
    | none => d
    | some f =>
      if !f.taken then d
      else
        let d := if poison then d.lwErr LWK_ERR_LINK_UE 257 f.pkt else d
        (d.dropFlight n).respond f.pkt f.req (f.poison || poison))

/-- FENCED_HOLD_TIMEOUT: 250 µs after its answer, the oldest request of a node held FENCED is injected
again (R17). -/
def execFencedHoldTimeout (src : BitVec 10) (s : State) : Host.Outcome State Fault Refusal :=
  s.run (fun d =>
    match d.lwk.held.find? (fun p => p.1.src == src && (match p.2 with
        | .fenced _ => true
        | _ => false)) with
    | none => d
    | some p => ({ d with lwk := { d.lwk with held := d.lwk.held.erase p } }).inject p.1 true)

/-- REQUEST_TIMEOUT of the oldest non-posted request of a node and tag: TARGET_ERR, EV259, and its
header with the fault manager (R95). -/
def execRequestTimeout (src : BitVec 10) (tag : BitVec 12) (s : State) : Host.Outcome State Fault Refusal :=
  s.run (fun d =>
    match d.lwk.outst.find? (fun w => w.pkt.src == src && w.pkt.tag == tag && !w.pkt.posted) with
    | none => d
    | some w =>
      let d := ({ d with lwk := { d.lwk with outst := d.lwk.outst.erase w } }).lwErr LWK_ERR_TIMEOUT 259 w.pkt
      let d := (d.statDone w.pkt false).note (report 3 aLog 9 (routerAll src.toNat) w.pkt.addr.toNat src.toNat 3 259)
      d.emit (.resp src.toNat targetErr))

/-- BARRIER_RELEASE at a node's interface (R97). -/
def execBarrierRelease (src : BitVec 10) (s : State) : Host.Outcome State Fault Refusal :=
  s.run (fun d => d.barrierGo src d.lwk.held.length)

/-- EPOCH_FLIP at a base tick edge: a wanted flip takes place when Hayward has written the tables,
which needs the old epoch drained; otherwise it is deferred (R105, R107, R115). -/
def execEpochFlip (written : Bool) (s : State) : Host.Outcome State Fault Refusal :=
  s.run (fun d =>
    if !d.lwk.flipWanted then d
    else if written && d.canFlip then (d.takeRoutes false).flip
    else d.deferFlip)

/-- EPOCH_DRAINED (R106). -/
def execEpochDrained (s : State) : Host.Outcome State Fault Refusal :=
  s.run (fun d => d.drainRise)

/-- XLINK_FAIL of crossing 2y + d, once its limit is reached (R115). -/
def execXlinkFail (x : Fin 16) (s : State) : Host.Outcome State Fault Refusal :=
  s.run (fun d =>
    if bit (d.get LWK_XLINK_FAILED) x.val || tabGet (fun _ => 0) d.lwk.xlinkUe x.val < d.get1 LWK_XLINK_UE_LIMIT_LIMIT then d
    else
      let d := d.put LWK_XLINK_FAILED (d.get LWK_XLINK_FAILED + 2 ^ x.val)
      ({ d with lwk := { d.lwk with flipWanted := true } }.lwErrBare LWK_ERR_XLINK_FAIL).pulse 267)

/-- STAT_WINDOW_CLOSE at the edge that ends the window (R117). -/
def execStatWindowClose (s : State) : Host.Outcome State Fault Refusal :=
  s.run (fun d =>
    if d.lwk.statEdges < d.get1 LWK_STAT_CTRL_WIN then d
    else
      let d := { d with lwk := { d.lwk with snap := d.lwk.stat, stat := [], statEdges := 0 } }
      (d.count LWK_STAT_CTRL_SEQ 1).pulse 266)

/-- A write of LWK_TRC_CTRL: ARM from 0 to 1 clears FULL, and the buffer fills anew (DEDUCED, log entry 49). -/
def Device.writeTrcCtrl (d : Device) (v : Nat) : Device :=
  let d := if !d.on LWK_TRC_CTRL_ARM && bit v 0 then
      { d with lwk := { d.lwk with traced := 0 } }.put LWK_TRC_STATUS_FULL 0
    else d
  (d.put LWK_TRC_CTRL_ARM v).put LWK_TRC_CTRL_MODE (v / 2)

/-- TRACE_ARM (R119). -/
def execTraceArm (v : Word) (s : State) : Host.Outcome State Fault Refusal := s.run (fun d => d.writeTrcCtrl v.toNat)

end Sys2Proof.Machine
end

