-- ==== Sys2Proof/Machine/Faults.lean ====
section
/-! DEFINITION. What a fault record's action does: twin cells and the request for takeover, DRAM
retraining and retirement, fences of cores, clusters and engines, and the preparation of a spare
swap (R465 to R467, R510 to R515, R519, R521, R526, R534, R545). -/

namespace Sys2Proof.Machine
open R

/-! ### Takeover requests -/

/-- A request that the partner take over, on both groups (R526). -/
def Device.askTakeover (d : Device) (reason : Nat) : Device :=
  (d.sendCell 0 5 false 0 [BitVec.ofNat 8 reason]).sendCell 1 5 false 0 [BitVec.ofNat 8 reason]

/-- What a record with action TAKEOVER does: TWIN_HB_OUT stops, and an ACTIVE device asks its partner (R534). -/
def Device.takeover (d : Device) : Device :=
  let d := { d with twin := { d.twin with fatal := true } }
  if d.get TWN_STATUS_ROLE = roleActive then d.askTakeover 1 else d

/-- Enters a record of CLASS 7 (R511). -/
def Device.fatalRec (d : Device) (kind index addr detail event lc : Nat) : Device :=
  (d.note { Sys2Proof.Machine.report 7 aTakeover kind index addr noReq detail event with lc := lc }).takeover

/-! ### DRAM channels (R465 to R467) -/

def chUp : Nat := 2
def chRetraining : Nat := 3
def chQuiesced : Nat := 4
def chRetired : Nat := 5

/-- Causes of a DRAM channel's events (R477). -/
def Device.dramErr (d : Device) (k : Nat) (f : Nat → Fld) : Device := d.cause (f k) (224 + 2 * k)
def Device.dramNote (d : Device) (k : Nat) (f : Nat → Fld) : Device := d.cause (f k) (225 + 2 * k)

/-- Retraining begins on a channel that is up (R465). -/
def Device.dramRetrain (d : Device) (k : Nat) : Device :=
  if d.get (DRC_CH_STATUS_STATE k) = chUp then
    let d := d.put (DRC_CH_STATUS_STATE k) chRetraining
    ({ d with dram := { d.dram with due := d.dram.due.filter (· ≠ k), slices := tabSet (fun _ => 0) d.dram.slices k 0 } }).dramNote k
      DRC_CH_EV_CAUSE_RETRAIN
  else d

/-- Frees a correction table entry. -/
def Device.ctClear (d : Device) (i : Nat) : Device :=
  (((d.setWord (DRC_CT_W0 i) 0).setWord (DRC_CT_W1 i) 0).setWord (DRC_CT_W2 i) 0).setWord (DRC_CT_W3 i) 0

/-- Whether a retirement finds a reserve (R459, R467). -/
def Device.dramReserve (d : Device) : Bool :=
  d.on DRC_MAP_RESERVE_EN && decide (2 ≤ d.dramChans.length) && d.get DRC_MAP_REDIRECT == 7

/-- A channel is retired: RETIRED, the soft buffers' generation, the redirect asked for or a FATAL
record, its table entries freed, a repair window ended, its waiting requests answered TARGET_ERR
(R466, R467, R476). -/
def Device.dramRetire (d : Device) (k : Nat) : Device :=
  if d.chanRetired k then d
  else
    let d := (d.put DRC_MAP_RETIRED (d.get DRC_MAP_RETIRED + 2 ^ k)).put (DRC_CH_STATUS_STATE k) chRetired
    let d := d.count FEC_SB_GEN_GEN 1
    let d := (List.range 16).foldl (fun (d : Device) i =>
      if d.get (DRC_CT_W2_STATE i) ≠ 0 && d.get (DRC_CT_W1_CHANNEL i) = k then d.ctClear i else d) d
    let d := if d.get DRC_PPR_STATUS_STATE = 2 && d.dram.ppr = k then
        ((d.put DRC_PPR_STATUS_STATE 0).put DRC_PPR_STATUS_RESULT 3).dramNote k DRC_CH_EV_CAUSE_PPR_DONE
      else d
    let q := tabGet (fun _ => []) d.dram.queue k
    let d := { d with dram := { d.dram with
      queue := tabSet (fun _ => []) d.dram.queue k [], due := d.dram.due.filter (· ≠ k) } }
    let d := q.foldl (fun (d : Device) p => d.reply p targetErr) d
    let d := d.dramNote k DRC_CH_EV_CAUSE_RETIRED
    if d.dramReserve then d.put DRC_MAP_REDIRECT k
    else d.fatalRec 7 k 0 0 (225 + 2 * k) 0x1F

/-! ### Cores and clusters (R511, R512, R519, R521) -/

/-- Semaphores that cores of a fenced cluster own are released (R545). -/
def Device.semFence (d : Device) (c : Nat) : Device :=
  let mine := (List.range 128).filter (fun s =>
    decide (0x20 + 8 * c ≤ d.get (HWD_SEM_OWNER_OWNER s)) && decide (d.get (HWD_SEM_OWNER_OWNER s) < 0x28 + 8 * c))
  if mine.isEmpty then d
  else (mine.foldl (fun (d : Device) s => (d.put (HWD_SEM_OWNER_OWNER s) 0).put (HWD_SEM_SEM s) 0) d).cause
    HWD_EV_CAUSE_SEM_FENCED 150

/-- A core at its fence: no dispatch, its items re-dispatched or expired (R38, R395, R512). -/
def Device.fenceCore (d : Device) (c k : Nat) : Device :=
  if d.coreFenced c k then d
  else
    let d := { d with flt := { d.flt with fencedCore := tabSet (fun _ => false) d.flt.fencedCore (8 * c + k) true } }
    let ks := d.itemsOn c (some k)
    let d := d.coreStop c k
    (d.redispatchAll ks).schedule

/-- Storage of a cluster: its bytes removed, so that they read as never written. -/
def Device.clearCluster (d : Device) (c : Nat) : Device :=
  { d with mem := d.mem.filter (fun p => !(decide (cluBase c ≤ p.1) && decide (p.1 < cluBase (c + 1)))) }

/-- Loads a role image: segments whose data cannot be read, or that leave the cluster's memories, are
skipped (R518). -/
def Device.loadRole (d : Device) (lc c : Nat) : Device :=
  let a := d.addr48 (FLT_ROLE_LO_ADDR lc) (FLT_ROLE_HI_ADDR lc)
  (List.range (min 32 (d.get (FLT_ROLE_HI_COUNT lc)))).foldl (fun (d : Device) i =>
    match d.fetch (a + 16 * i) 16 with
    | none => d
    | some bs =>
      let off := wordAt bs 0
      let len := wordAt bs 1
      if len = 0 || 2 ^ 24 < off + len || !cluOffset off || !cluOffset (off + len - 1) then d
      else match d.fetch (wordAt bs 2 + 2 ^ 32 * (wordAt bs 3 % 2 ^ 16)) len with
        | none => d
        | some data => d.store (cluBase c + off) data) d

/-- Copies the shared memory of a cluster to another (R519). -/
def Device.copyShared (d : Device) (old new : Nat) : Device :=
  let src := d.mem.filter (fun p => decide (cluBase old ≤ p.1) && decide (p.1 < cluBase old + 0x100000))
  let kept := { d with mem := d.mem.filter (fun p =>
    !(decide (cluBase new ≤ p.1) && decide (p.1 < cluBase new + 0x100000))) }
  src.foldl (fun (d : Device) p => d.store (p.1 - cluBase old + cluBase new) [p.2]) kept

/-- A migration whose copy runs is abandoned at its switch when a cluster of either panel is fenced (R83). -/
def Device.migFence (d : Device) (lc : Nat) : Device :=
  if d.get PKL_MIG_STATUS_STATE = 2 &&
      (bit (d.panelWord d.pkl.migSrc 0) lc || bit (d.panelWord d.pkl.migDest 0) lc) then
    { d with pkl := { d.pkl with migFault := true } }
  else d

/-- A rotation of a quadrant is abandoned by a fence in it (R522). -/
def Device.dropRotation (d : Device) (q : Nat) : Device :=
  match d.flt.rotTo with
  | some c => if c / 5 = q then
      ({ d with flt := { d.flt with rotTo := none } }).put FLT_ROT_STATUS_STATE 0
    else d
  | none => d

/-- The state of FLT_FALLOW. -/
def fReady : Nat := 0
def fTesting : Nat := 1
def fFailed : Nat := 2
def fAbsent : Nat := 3

/-- The fence of a cluster: dispatch stops, its cores stop, its open tiles are force-sealed, and its
semaphores are released (R17, R139, R362, R395, R519). -/
def Device.fenceCluster (d : Device) (c : Nat) : Device :=
  let d := { d with flt := { d.flt with fencedCl := tabSet (fun _ => false) d.flt.fencedCl c true } }
  let d := (d.put FLT_SPARED_CL ((d.get FLT_SPARED_CL).lor (2 ^ c))).put FLT_SWAP_STATUS_OLD c
  let d := (List.range 8).foldl (fun (d : Device) k => d.coreStop c k) d
  let d := ((d.forceSeal (clusterNode c 0)).semFence c).dropRotation (c / 5)
  match d.lcOf c with
  | some l => d.migFence l
  | none => d

/-- A swap whose new cluster has failed leaves the old role unmapped (R521). -/
def Device.voidSwap (d : Device) (c : Nat) : Device :=
  match d.flt.swap.find? (fun s => s.new == c) with
  | none => d
  | some s =>
    let rest := d.flt.swap.map (fun t => if t.new == c then { t with new := 0x1F } else t)
    let d := { d with flt := { d.flt with swap := rest } }
    d.fatalRec 1 s.old 0 0 noEvent s.lc

/-- Adds a swap, or an unmapping when new is 0x1F, to those that wait for an edge. -/
def Device.addSwap (d : Device) (s : SwapPrep) : Device := { d with flt := { d.flt with swap := d.flt.swap ++ [s] } }

/-- Memories and role image of the cluster that will take a role, and the shared memory as at the
fence, for which a domain in Doze or Retain is brought to Run, unless the fenced cluster's domain has failed (R501,
R518, R519). -/
def Device.prepare (d : Device) (old new lc : Nat) : Device :=
  let d := (List.range 8).foldl (fun (d : Device) k => d.coreStop new k) d
  let d := if d.get (ELP_DOM_STATE_STATE new) = 4 then d.put (ELP_DOM_STATE_STATE new) 0 else d
  let d := (d.clearCluster new).loadRole lc new
  let dead := d.get (ELP_DOM_STATE_STATE old) == 6
  let d := if d.get (ELP_DOM_STATE_STATE old) = 2 || d.get (ELP_DOM_STATE_STATE old) = 3 then d.put (ELP_DOM_STATE_STATE old) 0 else d
  let d := d.put FLT_SWAP_STATUS_COPY_SKIPPED (b2n dead)
  if dead then d else d.copyShared old new

/-- The SPARE action on a cluster (R519, R521). The fallow cluster itself is fenced and its role left
unmapped, with no FATAL record (DEDUCED, log entry 28). -/
def Device.spareCluster (d : Device) (c : Nat) : Device :=
  if d.cluFenced c then d
  else
    let q := c / 5
    let role := d.lcOf c
    let fal := d.physOf (5 * q + 4)
    let st := d.get (FLT_FALLOW_STATE q)
    let d := (d.voidSwap c).fenceCluster c
    match role with
    | none => d
    | some lc =>
      if lc = 5 * q + 4 then
        (d.put (FLT_FALLOW_STATE q) fFailed).addSwap ⟨c, 0x1F, lc⟩
      else match fal with
        | some s =>
          if (st = fReady || st = fTesting) && !d.cluFenced s && !d.flt.swap.any (fun x => x.new == s) then
            (d.prepare c s lc).addSwap ⟨c, s, lc⟩
          else (d.addSwap ⟨c, 0x1F, lc⟩).fatalRec 1 c 0 0 noEvent lc
        | none => (d.addSwap ⟨c, 0x1F, lc⟩).fatalRec 1 c 0 0 noEvent lc

/-! ### Engines -/

def Device.engFenced (d : Device) (kind i : Nat) : Bool := tabGet (fun _ => false) d.flt.fencedEng (256 * kind + i)

/-- An engine at its fence: KIND 2 to 5, or 6 for a DMA engine (R512). -/
def Device.fenceEngine (d : Device) (kind i : Nat) : Device :=
  if d.engFenced kind i then d
  else
    let d := { d with flt := { d.flt with fencedEng := tabSet (fun _ => false) d.flt.fencedEng (256 * kind + i) true } }
    (if kind = 6 then d.dmaFence i else d.engineFence kind i).schedule

/-- A spared engine stays fenced until power-on reset and at every later boot (R512). -/
def Device.spareEngine (d : Device) (kind i : Nat) : Device :=
  let d := d.fenceEngine kind i
  { d with
    flt := { d.flt with sparedEng := tabSet (fun _ => false) d.flt.sparedEng (256 * kind + i) true }
    hwd := { d.hwd with dirty := true } }

/-- A Heath bank is due for retirement at the next base tick edge (R141, R512). -/
def Device.dueBank (d : Device) (b : Nat) : Device :=
  if d.retired b || d.heath.due.contains b then d else { d with heath := { d.heath with due := d.heath.due ++ [b] } }

/-! ### The action of a record (R512) -/

/-- Whether a unit number lies within its kind. -/
def unitOk (kind i : Nat) : Bool :=
  match kind with
  | 1 => decide (i < 20)
  | 2 => decide (i < 32)
  | 3 => decide (i < 4)
  | 4 => decide (i < 4)
  | 5 => decide (i < 24)
  | 6 => decide (i < 8)
  | 7 => decide (i < 6)
  | 8 => decide (i < 80)
  | _ => true

/-- Takes the action of a record as it enters the queue. -/
def Device.act (d : Device) (r : FaultRec) : Device :=
  if !unitOk r.kind r.index || r.action = aLog then d
  else if r.action = aTakeover then d.takeover
  else
    let spare := r.action == aSpare
    match r.kind with
    | 1 => if r.coreV && !spare then d.fenceCore r.index r.core
      else { d.spareCluster r.index with hwd := { d.hwd with dirty := true } }
    | 2 | 3 | 4 | 5 | 6 => if spare then d.spareEngine r.kind r.index else d.fenceEngine r.kind r.index
    | 7 => if spare then d.dramRetire r.index else d.dramRetrain r.index
    | 8 => d.dueBank r.index
    | _ => d

/-- An error that a unit reports: its record enters the queue and takes its action (R510 to R515). -/
def Device.fault (d : Device) (r : FaultRec) : Device :=
  let p := d.record r
  p.1.act p.2

/-- The first action of a class (R511); a nested machine check is a SPARE from its entry. -/
def firstAction (cls : Nat) (nested : Bool) : Nat :=
  match cls with
  | 5 => if nested then aSpare else aFence
  | 6 => aSpare
  | 7 => aTakeover
  | _ => aLog

/-- FLT_POP: the record of a SEQ leaves the queue, else POP_MISS (R513). EV32's flag stays while the
queue holds records (R508). -/
def Device.popFault (d : Device) (seq : Nat) : Device :=
  if d.flt.queue.any (fun r => r.seq == seq) then
    { d with flt := { d.flt with queue := d.flt.queue.filter (fun r => r.seq != seq) } }
  else d.put FLT_STATUS_POP_MISS 1

def execFltPop (v : BitVec 16) (s : State) : Host.Outcome State Fault Refusal := s.run (fun d => d.popFault v.toNat)

/-- A write of FLT_UNFENCE: a fenced, not spared, engine of KIND 2 to 6 is to be released (R536). -/
def Device.askUnfence (d : Device) (kind i : Nat) : Device :=
  let key := 256 * kind + i
  if 2 ≤ kind && kind ≤ 6 && unitOk kind i && d.engFenced kind i && !d.flt.unfence.contains key then
    { d with flt := { d.flt with unfence := d.flt.unfence ++ [key] } }
  else d

def execUnfence (kind i : BitVec 8) (s : State) : Host.Outcome State Fault Refusal :=
  s.run (fun d => d.askUnfence kind.toNat i.toNat)

/-- The release at the next base tick edge, if no record of the unit is queued (R536). -/
def Device.applyUnfence (d : Device) (kind i : Nat) : Device :=
  let key := 256 * kind + i
  if !d.flt.unfence.contains key then d
  else
    let d := { d with flt := { d.flt with unfence := d.flt.unfence.filter (· ≠ key) } }
    if d.flt.queue.any (fun r => r.kind == kind && r.index == i) || tabGet (fun _ => false) d.flt.sparedEng key then d
    else
      let d := { d with flt := { d.flt with fencedEng := tabSet (fun _ => false) d.flt.fencedEng key false } }
      (if kind = 6 then d.dmaUnfence i else d).schedule

def execUnfenceApply (kind i : BitVec 8) (s : State) : Host.Outcome State Fault Refusal :=
  s.run (fun d => d.applyUnfence kind.toNat i.toNat)

/-! ### The event fabric (R505 to R508) -/

/-- EVENT_PULSE: a unit pulses EVn. -/
def execEventPulse (n : Fin 384) (s : State) : Host.Outcome State Fault Refusal := s.run (fun d => d.pulse n.val)

/-- A W1C write of an EVF_PEND word; EV32 stays while the fault queue holds a record (R508). -/
def Device.clearPend (d : Device) (w v : Nat) : Device :=
  let keep := if w = 1 && !d.flt.queue.isEmpty then bits v 31 1 * 2 else v
  d.setWord (EVF_PEND w) (BitVec.ofNat 32 ((d.word (EVF_PEND w)).toNat.land (2 ^ 32 - 1 - keep)))

/-- EVF_PEND_CLEAR: a bit whose event comes in the same cycle ends set (R8). -/
def execEvfPendClear (w : Fin 12) (v same : Word) (s : State) : Host.Outcome State Fault Refusal :=
  s.run (fun d =>
    let d := d.clearPend w.val v.toNat
    d.setWord (EVF_PEND w.val) (d.word (EVF_PEND w.val) ||| same))

/-- EVENT_FORCE: a write of EVF_FORCE (R538); numbers from 384 name no event. -/
def execEventForce (v : Word) (s : State) : Host.Outcome State Fault Refusal :=
  s.run (fun d => d.pulse (bits v.toNat 8 0))

/-- A host writes a vector's mask bit 0: its pending message is sent (R506). -/
def Device.unmask (d : Device) (h v : Nat) : Device :=
  let m := d.msix h
  let d := d.setMsix h { m with mask := tabSet (fun _ => true) m.mask v false }
  if tabGet (fun _ => false) m.pend v && !m.fmask && m.enable && (d.host h).linkUp then
    let m := d.msix h
    (d.setMsix h { m with pend := tabSet (fun _ => false) m.pend v false }).emit (.msix h v)
  else d

def execMsixUnmask (h : Fin 2) (v : Fin 384) (s : State) : Host.Outcome State Fault Refusal :=
  s.run (fun d => d.unmask h.val v.val)

end Sys2Proof.Machine
end

