-- ==== Sys2Proof/Machine/Edges.lean ====
section
/-! DEFINITION. What happens at base tick edges over several units: the edge itself, steps,
expiries, engine completions, spare swaps, fallow tests and rotations, and the promotion of the
replica (R29, R36, R44, R45, R352, R517 to R525). -/

namespace Sys2Proof.Machine
open R

/-! ### Expiry and completion -/

/-- WORK_ITEM_EXPIRY: the due edge of an unfinished item has occurred (R34, R36, R359). -/
def Device.lateItem (d : Device) (k : Nat) : Device :=
  let i := d.item k
  if i.st == .empty || !d.duePast i || i.overrun then d
  else ((d.expireItem k).engineExpiries).schedule

def execWorkItemExpiry (h : Handle) (s : State) : Host.Outcome State Fault Refusal :=
  s.run (fun d =>
    let k := h.toNat % 2 ^ 17
    if bits h.toNat 20 17 = (d.item k).gen then d.lateItem k else d)

/-- ENGINE_COMPLETION: the oldest completion an engine has to report, into nanoseconds after the last edge (R352). -/
def execEngineCompletion (target : Fin 6) (e : Fin 32) (into : Nat) (s : State) : Host.Outcome State Fault Refusal :=
  s.run (fun d =>
    let x := d.engine (engKey target.val e.val)
    match x.fin with
    | [] => d
    | f :: t =>
      (((d.setEngine (engKey target.val e.val) { x with fin := t }).engineDone target.val into f).engineExpiries).schedule)

/-! ### Items after a step (R45) -/

/-- The keys of live items. -/
def Device.liveItems (d : Device) : List Nat := (d.items.filter (fun p => p.2.st != .empty)).map (·.1)

/-- An item not yet dispatched whose release tick is ahead again after a step backward waits for it (R45). -/
def Device.unrelease (d : Device) (k : Nat) : Device :=
  let i := d.item k
  if (i.st == .waiting || i.st == .ready) && i.released && !d.releasePast i then
    d.setItem k { i with st := .waiting, released := false }
  else d

/-! ### Spare swaps (R38, R519, R521) -/

/-- Provisional rings in a logical cluster that a swap moves (R288). -/
def Device.ringMoved (d : Device) (lc : Nat) : Device :=
  (List.range 4).foldl (fun (d : Device) q =>
    let a := d.addr48 (FEC_PROV_BASE_LO_ADDR q) (FEC_PROV_BASE_HI_ADDR q)
    let lo := 0x5000000000 + 2 ^ 24 * lc
    if lo < a + 32 * max 64 (d.get (FEC_PROV_SIZE_SIZE q)) && a < lo + 2 ^ 24 then d.grpCause q FEC_GRP_CAUSE_RING_MOVED
    else d) d

/-- Sets a logical cluster's physical one. -/
def Device.mapLc (d : Device) (lc c : Nat) : Device := d.put (FLT_LCMAP_PHYS lc) c

/-- Words that answered TARGET_ERR to the copy are written as zero and counted (R519). -/
def Device.copyErrs (d : Device) (new : Nat) (ws : List Nat) : Device :=
  let d := ws.foldl (fun (d : Device) w => d.store (cluBase new + 8 * w) (leBytes 8 0)) d
  d.put FLT_SWAP_STATUS_COPY_ERR (min ws.length 65535)

/-- The swap, or the unmapping, at its edge. -/
def Device.swapNow (d : Device) (s : SwapPrep) (errs : List Nat) : Device :=
  let q := s.old / 5
  let real := decide (s.new < 20)
  let d := { d with
    flt := { d.flt with swap := d.flt.swap.filter (· != s), roleSince := tabSet (fun _ => 0) d.flt.roleSince s.new d.time.edges }
    hwd := { d.hwd with dirty := true } }
  let d := (d.forceSeal (clusterNode s.old 0)).mapLc s.lc s.new
  let d :=
    if real then
      let d := ((d.mapLc (5 * q + 4) 0x1F).put (FLT_FALLOW_STATE q) fAbsent).put (FLT_FALLOW_PHYS q) 0x1F
      let d := ((d.put FLT_SWAP_STATUS_OLD s.old).put FLT_SWAP_STATUS_NEW s.new).put FLT_SWAP_STATUS_LC s.lc
      ((if d.on FLT_SWAP_STATUS_COPY_SKIPPED then d else d.copyErrs s.new errs).ringMoved s.lc).cause FLT_EV_CAUSE_SWAP_DONE 6
    else d
  let d := (d.takeRoutes false).flip
  let ks := d.itemsOn s.old none ++ (if real then d.itemsOn s.new none else [])
  (d.redispatchAll ks).schedule

/-- SPARE_SWAP of a fenced cluster at the first base tick edge after preparation; a flip that cannot
take place moves it to the next (R107, R519). -/
def execSpareSwap (f : Fin 20) (errs : List (Fin 131072)) (s : State) : Host.Outcome State Fault Refusal :=
  s.run (fun d =>
    match d.flt.swap.find? (fun x => x.old == f.val) with
    | none => d
    | some x => if d.canFlip then d.swapNow x (errs.map (·.val)) else d.deferFlip)

/-! ### Fallow tests (R517) -/

/-- The panel that holds a logical cluster. -/
def Device.lcPanel (d : Device) (lc : Nat) : Option Nat :=
  (List.range 20).find? (fun p => bit (d.panelWord p 0) lc)

/-- Whether a panel has a carrier. -/
def Device.panelCarries (d : Device) (p : Nat) : Bool :=
  (List.range 64).any (fun c => d.get (PKL_CARRIER_MAP_PANEL c) == p && (d.section? 0x50 c).isSome)

/-- Whether the fallow role of a quadrant carries no carrier and holds no work item. -/
def Device.roleIdle (d : Device) (q : Nat) : Bool :=
  match d.physOf (5 * q + 4) with
  | none => false
  | some s => (d.itemsOn s none).isEmpty && !d.flt.swap.any (fun x => x.new == s) &&
      (match d.lcPanel (5 * q + 4) with
       | some p => !d.panelCarries p
       | none => true)

/-- FALLOW_TEST of a quadrant begins. -/
def execFallowTest (q : Fin 4) (s : State) : Host.Outcome State Fault Refusal :=
  s.run (fun d =>
    if d.get (FLT_FALLOW_STATE q.val) = fReady && d.roleIdle q.val then d.put (FLT_FALLOW_STATE q.val) fTesting else d)

/-- FALLOW_TEST_DONE: memories filled with zeros and READY, or FAILED with its record. -/
def Device.testDone (d : Device) (q : Nat) (pass : Bool) : Device :=
  let c := d.get (FLT_FALLOW_PHYS q)
  if d.get (FLT_FALLOW_STATE q) ≠ fTesting then d
  else if pass then
    (((d.clearCluster c).put (FLT_FALLOW_STATE q) fReady).bump (FLT_FALLOW_PASSES q) 1).schedule
  else
    let d := (d.put (FLT_FALLOW_STATE q) fFailed).cause FLT_EV_CAUSE_FALLOW_FAIL 41
    d.fault { Sys2Proof.Machine.report 4 aFence 1 c 0 noReq 0 41 with lc := d.lcField c }

def execFallowTestDone (q : Fin 4) (pass : Bool) (s : State) : Host.Outcome State Fault Refusal :=
  s.run (fun d => d.testDone q.val pass)

/-! ### Fallow rotation (R522) -/

/-- The active cluster of a quadrant that a rotation moves to rest: one moved to the front, else the one
that has held a role longest. -/
def Device.rotTarget (d : Device) (q : Nat) : Option Nat :=
  let act := (List.range 4).filterMap (fun i => d.physOf (5 * q + i))
  match d.flt.early.find? (fun c => act.contains c) with
  | some c => some c
  | none => act.foldl (fun b c => match b with
      | none => some c
      | some a => if tabGet (fun _ => 0) d.flt.roleSince c < tabGet (fun _ => 0) d.flt.roleSince a then some c else some a) none

/-- Whether a migration or a panel stop involves a quadrant. -/
def Device.quadBusy (d : Device) (q : Nat) : Bool :=
  let inQ := fun p => (d.panelLcs p).any (fun l => l / 5 == q)
  (d.get PKL_MIG_STATUS_STATE ≠ 0 && (inQ d.pkl.migSrc || inQ d.pkl.migDest)) ||
    (match d.pkl.cmd with
     | .reprick false p => !d.pkl.stopped && inQ p
     | .stop p => !d.pkl.stopped && inQ p
     | _ => false)

/-- The end of a rotation's attempt that was refused eight times. -/
def Device.rotGiveUp (d : Device) : Device :=
  ((d.put FLT_ROT_STATUS_STATE 0).put FLT_ROT_STATUS_DEFERRED 0).cause FLT_EV_CAUSE_ROT_DEFER 42

/-- ROTATION_START at edge E − 1: the energy is asked for, and the role image and shared memory of CLa
go to the fallow cluster. -/
def Device.rotStart (d : Device) (q : Nat) : Device :=
  match d.rotTarget q, d.physOf (5 * q + 4) with
  | some a, some s =>
    if d.get (FLT_FALLOW_STATE q) ≠ fReady || d.flt.rotTo.isSome || d.quadBusy q || !d.flt.swap.isEmpty ||
        (d.get FLT_ROT_PERIOD_H = 0 && !d.flt.early.contains a) then d
    else
      let lc := d.lcField a
      match d.askEnergy 4 ((d.lcPanel lc).getD 0) (1000 * 2 ^ d.get ELP_CTRL_MIG_ECLASS) with
      | (false, d) =>
        let n := d.get FLT_ROT_STATUS_DEFERRED + 1
        if 8 ≤ n then d.rotGiveUp
        else ((d.put FLT_ROT_STATUS_STATE 1).put FLT_ROT_STATUS_QUAD q).put FLT_ROT_STATUS_DEFERRED n
      | (true, d) =>
        let d := ({ d with flt := { d.flt with rotTo := some a, rotAt := d.time.edges } }.put FLT_ROT_STATUS_STATE 2).put FLT_ROT_STATUS_QUAD q
        let d := if d.get (ELP_DOM_STATE_STATE s) = 4 then d.put (ELP_DOM_STATE_STATE s) 0 else d
        (d.loadRole lc s).copyShared a s
  | _, _ => d

def execRotationStart (q : Fin 4) (s : State) : Host.Outcome State Fault Refusal := s.run (fun d => d.rotStart q.val)

/-- ROTATION_FLIP at edge E: dirty lines copied, the flip, CLa takes the fallow role and begins a test. -/
def Device.rotFlip (d : Device) : Device :=
  match d.dueRotation with
  | none => d
  | some (a, s, lc, fal) =>
    if !d.canJoin then d.deferFlip
    else
      let q := a / 5
      let ks := d.itemsOn a none
      let d := ((d.copyShared a s).mapLc lc s).mapLc fal a
      let d := { d with flt := { d.flt with
        rotTo := none, early := d.flt.early.filter (· ≠ a)
        roleSince := tabSet (fun _ => 0) d.flt.roleSince s d.time.edges } }
      let d := (d.takeRoutes false).flip
      let d := ((d.put FLT_ROT_STATUS_STATE 0).put FLT_ROT_STATUS_DEFERRED 0)
      let d := (d.put (FLT_FALLOW_PHYS q) a).put (FLT_FALLOW_STATE q) fTesting
      (((d.redispatchAll ks).cause FLT_EV_CAUSE_ROT_DONE 7)).schedule

def execRotationFlip (s : State) : Host.Outcome State Fault Refusal := s.run (fun d => d.rotFlip)

/-! ### The replica (R523 to R525) -/

/-- AON_HEARTBEAT: Hayward on die 0 sends its heartbeat; its arrival changes nothing but the replica's
wait, which HEARTBEAT_MISSING's occurrence measures (log entry 5). -/
def execAonHeartbeat (s : State) : Host.Outcome State Fault Refusal := s.run (fun d => d)

/-- A failure of an always-on block: of die 0's, promotion is due; of the replica's, REPLICA_LOST; of the
last one, a FATAL record (R524, R525). -/
def Device.aonFail (d : Device) (index : Nat) : Device :=
  if d.flt.promoted || d.flt.replicaLost then
    if (index = 1) = d.flt.promoted then d.fatalRec 14 index 0 0 noEvent 0x1F else d
  else if index = 0 then { d with flt := { d.flt with promoteDue := true } }
  else
    let due := d.flt.promoteDue
    let d := { d with flt := { d.flt with replicaLost := true, promoteDue := false } }
    let d := if due then d.fatalRec 14 0 0 0 noEvent 0x1F else d
    (d.note (Sys2Proof.Machine.report 4 aSpare 14 1 0 noReq 0 2)).cause FLT_EV_CAUSE_REPLICA_LOST 2

/-- HEARTBEAT_MISSING: the replica misses four heartbeats or an edge. -/
def execHeartbeatMissing (s : State) : Host.Outcome State Fault Refusal :=
  s.run (fun d => if d.flt.promoted then d else d.aonFail 0)

/-- The mailbox command in progress is answered RESTARTED (R560). -/
def Device.restartMbx (d : Device) : Device :=
  { d with hwd := { d.hwd with mbx := match d.hwd.mbx with
      | [] => []
      | c :: t => (if c.done.isNone then { c with done := some (7, []) } else c) :: t } }

/-- Requests in flight to a node are answered TARGET_ERR. -/
def Device.failFlights (d : Device) (node : Nat) : Device :=
  let hit := fun (f : Flight) => f.pkt.dest.toNat == node && !isResp f.pkt.cmd.toNat
  let fs := d.lwk.flights.filter hit
  fs.foldl (fun (d : Device) f => d.reply f.pkt targetErr) (d.setFlights (d.lwk.flights.filter (fun f => !hit f)))

/-- PROMOTION at the next base tick edge: the replica serves (R524). -/
def Device.promote (d : Device) : Device :=
  if !d.flt.promoteDue then d
  else
    let d := { d with flt := { d.flt with promoteDue := false, promoted := true } }
    let d := (d.failFlights (aonNode 0)).restartMbx
    (d.note (Sys2Proof.Machine.report 4 aSpare 14 0 0 noReq 0 2)).cause FLT_EV_CAUSE_PROMOTED 2

def execPromotion (s : State) : Host.Outcome State Fault Refusal := s.run (fun d => d.promote)

/-- FAULT_RECORD_ENTRY: a unit of a KIND reports an error of a CLASS; MCHK records name a core, and an
always-on block that fails acts under R524 and R525 (R510, R511). -/
def execFaultRecordEntry (cls : Fin 8) (kind : Fin 17) (index : BitVec 8) (core : Option (Fin 8)) (nested : Bool)
    (addr : BitVec 48) (req : BitVec 10) (detail : Word) (event : BitVec 9) (s : State) :
    Host.Outcome State Fault Refusal :=
  s.run (fun d =>
    if !unitOk kind.val index.toNat || (cls.val == 5 && (kind.val != 1 || core.isNone)) then d
    else if kind.val = 14 then d.aonFail (index.toNat % 2)
    else
      let r := Sys2Proof.Machine.report cls.val (firstAction cls.val nested) kind.val index.toNat addr.toNat req.toNat
        detail.toNat event.toNat
      d.fault { r with
        core := core.elim 0 (·.val), coreV := core.isSome && kind.val == 1
        lc := if kind.val = 1 then d.lcField index.toNat else 0x1F })

end Sys2Proof.Machine
end

