-- ==== Sys2Proof/Machine/Digest.lean ====
section
/-! DEFINITION. The digest and the signature that authenticate a pricking stream: SHA-384, and ECDSA over the curve P-384
(R62, R63). The standards that R62 names are FIPS 180-4, FIPS 186-5 and SP 800-186; their contents are PRESUMED (log entry 6). -/

namespace Sys2Proof.Machine

/-- A number from bytes, the first the most significant: the octets of these standards. -/
def octets (bs : List Byte) : Nat := bs.foldl (fun n b => 256 * n + b.toNat) 0

/-- n octets of a number. -/
def toOctets (n v : Nat) : List Byte := (leBytes n v).reverse

/-! ### SHA-384 -/

/-- The largest number of b bits whose k-th power is at most n. -/
def rootOf (k n b : Nat) : Nat :=
  (List.range b).foldl (fun r i =>
    let t := r + 2 ^ (b - 1 - i)
    if t ^ k ≤ n then t else r) 0

/-- The first 80 primes. -/
def shaPrimes : List Nat := (List.range 410).filter (fun n => decide (2 ≤ n) && (List.range n).all (fun k => k < 2 || n % k != 0))

/-- The round constants: 64 bits of the fraction of each prime's cube root. -/
def shaK : List (BitVec 64) := shaPrimes.map (fun p => BitVec.ofNat 64 (rootOf 3 (p * 2 ^ 192) 70))

/-- The eight starting words: 64 bits of the fraction of the square roots of the ninth to the sixteenth prime. -/
def shaStart : List (BitVec 64) := ((shaPrimes.drop 8).take 8).map (fun p => BitVec.ofNat 64 (rootOf 2 (p * 2 ^ 128) 70))

/-- Two rotations to the right, and a third or a shift, combined. -/
def rot3 (x : BitVec 64) (i j k : Nat) : BitVec 64 := x.rotateRight i ^^^ x.rotateRight j ^^^ x.rotateRight k
def rotShift (x : BitVec 64) (i j k : Nat) : BitVec 64 := x.rotateRight i ^^^ x.rotateRight j ^^^ x >>> k

/-- The last 16 words of a block's schedule, oldest first, after one more. -/
def shaNext (w : List (BitVec 64)) : List (BitVec 64) :=
  let at_ := fun i => w.getD i 0
  w.drop 1 ++ [at_ 0 + rotShift (at_ 1) 1 8 7 + at_ 9 + rotShift (at_ 14) 19 61 6]

/-- One round: the eight working words with a round constant and a word of the schedule. -/
def shaRound (h : List (BitVec 64)) (k w : BitVec 64) : List (BitVec 64) :=
  match h with
  | [a, b, c, d, e, f, g, z] =>
    let t := z + rot3 e 14 18 41 + ((e &&& f) ^^^ (~~~e &&& g)) + k + w
    let u := rot3 a 28 34 39 + ((a &&& b) ^^^ (a &&& c) ^^^ (b &&& c))
    [t + u, a, b, c, d + t, e, f, g]
  | _ => h

/-- One block of sixteen words. -/
def shaBlock (h w : List (BitVec 64)) : List (BitVec 64) :=
  let r := shaK.foldl (fun (s : List (BitVec 64) × List (BitVec 64)) k => (shaRound s.1 k (s.2.headD 0), shaNext s.2)) (h, w)
  (h.zip r.1).map (fun p => p.1 + p.2)

/-- A message with its padding and its length in bits, a multiple of 128 bytes. -/
def shaPad (bs : List Byte) : List Byte :=
  bs ++ [0x80] ++ List.replicate ((239 - bs.length % 128) % 128) 0 ++ toOctets 16 (8 * bs.length)

/-- The 48-byte digest of a message. -/
@[irreducible] def sha384 (bs : List Byte) : List Byte :=
  let m := shaPad bs
  let h := (List.range (m.length / 128)).foldl (fun h i =>
    shaBlock h ((List.range 16).map (fun j => BitVec.ofNat 64 (octets ((m.drop (128 * i + 8 * j)).take 8))))) shaStart
  (h.take 6).flatMap (fun w => toOctets 8 w.toNat)

/-! ### The curve P-384: y² = x³ − 3x + b over the field of p -/

def ecP : Nat := 2 ^ 384 - 2 ^ 128 - 2 ^ 96 + 2 ^ 32 - 1
def ecB : Nat := 0xb3312fa7e23ee7e4988e056be3f82d19181d9c6efe8141120314088f5013875ac656398d8a2ed19d2a85c8edd3ec2aef
def ecN : Nat := 0xffffffffffffffffffffffffffffffffffffffffffffffffc7634d81f4372ddf581a0db248b0a77aecec196accc52973
def ecG : Nat × Nat :=
  (0xaa87ca22be8b05378eb1c71ef320ad746e1d3b628ba79b9859f741e082542a385502f25dbf55296c3a545e3872760ab7,
   0x3617de4a96262c6f5d9e98bf9292dc29f8f41dbd289a147ce9da3113b5f0b8c00a60b1ce1d7e819d7a431d7c90ea0e5f)

/-- x to the e modulo m, for e of 384 bits. -/
def powMod (x e m : Nat) : Nat :=
  (List.range 384).foldl (fun r i => let s := r * r % m
    if bit e (383 - i) then s * x % m else s) 1

/-- The inverse modulo a prime. -/
def invMod (x m : Nat) : Nat := powMod x (m - 2) m

/-- The third point on a line of slope l through x coordinates u and v, mirrored; (u, y) is one of the two. -/
def ecThird (l u v y : Nat) : Nat × Nat :=
  let x := (l * l + 2 * ecP - u - v) % ecP
  (x, (l * (u + ecP - x) + ecP - y) % ecP)

/-- Sum of two points; none is the point at infinity. -/
def ecAdd : Option (Nat × Nat) → Option (Nat × Nat) → Option (Nat × Nat)
  | none, q => q
  | p, none => p
  | some (u, y), some (v, z) =>
    if u ≠ v then some (ecThird ((z + ecP - y) * invMod (v + ecP - u) ecP % ecP) u v y)
    else if y ≠ z || y = 0 then none
    else some (ecThird ((3 * u * u + ecP - 3) * invMod (2 * y) ecP % ecP) u u y)

/-- k times a point. -/
def ecMul (k : Nat) (q : Nat × Nat) : Option (Nat × Nat) :=
  (List.range 384).foldl (fun a i => let a := ecAdd a a
    if bit k (383 - i) then ecAdd a (some q) else a) none

/-- Whether a pair of coordinates is a point of the curve. -/
def ecOn (x y : Nat) : Bool :=
  decide (x < ecP) && decide (y < ecP) && y * y % ecP == (x * x * x + (ecP - 3) * x + ecB) % ecP

/-- Whether r and s sign a message under a public key. -/
@[irreducible] def ecdsaOk (msg qx qy r s : List Byte) : Bool :=
  let x := octets qx
  let y := octets qy
  let r := octets r
  let s := octets s
  let w := invMod s ecN
  ecOn x y && decide (0 < r) && decide (r < ecN) && decide (0 < s) && decide (s < ecN) &&
    (match ecAdd (ecMul (octets (sha384 msg) * w % ecN) ecG) (ecMul (r * w % ecN) (x, y)) with
     | some p => p.1 % ecN == r
     | none => false)

end Sys2Proof.Machine
end

