-- ==== Sys2Proof/Machine/Dram.lean ====
section
/-! DEFINITION. DRAM and stored-data ECC apart from the service of requests: corrected and
uncorrectable errors, refresh, calibration, retraining, retirement, scrubbing and soft repair (R457,
R461 to R477). What a request reads and writes is Serve.lean's. -/

namespace Sys2Proof.Machine
open R

/-! ### Correction tables (R469 to R472) -/

/-- Field of word w of entry i of the table whose first word lies at b. -/
def ctF (b i w hi lo : Nat) : Fld := ⟨b + 16 * i + 4 * w, hi, lo⟩

def ctState (b i : Nat) : Fld := ctF b i 2 1 0
def ctRewrites (b i : Nat) : Fld := ctF b i 2 3 2
def ctWrit (b i : Nat) : Fld := ctF b i 2 4 4

/-- The tables' first words and sizes. -/
def dramTable : Nat := DRC_CT_W0 0
def cluTable (c : Nat) : Nat := DRC_CLCT_W0 c 0

/-- The entry that holds an address. -/
def Device.ctFind (d : Device) (b n a : Nat) : Option Nat :=
  (List.range n).find? (fun i => d.get (ctState b i) != 0 && d.get (ctF b i 0 31 0) + 2 ^ 32 * d.get (ctF b i 1 15 0) == a)

/-- The entry a new address takes: a FREE one, else the ACTIVE one corrected longest ago. -/
def Device.ctPick (d : Device) (b n : Nat) : Option Nat :=
  match (List.range n).find? (fun i => d.get (ctState b i) == 0) with
  | some i => some i
  | none =>
    let age := fun i => (d.time.tick + 2 ^ 32 - d.get (ctF b i 3 31 0)) % 2 ^ 32
    ((List.range n).filter (fun i => d.get (ctState b i) == 1)).foldl (fun (x : Option Nat) i => match x with
      | none => some i
      | some j => if age j < age i then some i else some j) none

/-- Clears an entry. -/
def Device.ctFree (d : Device) (b i : Nat) : Device :=
  (List.range 4).foldl (fun (d : Device) w => d.setWord (b + 16 * i + 4 * w) 0) d

/-- What a logged correction led to. -/
inductive CtDone where
  | unlogged | rewritten | persistent | known
  deriving DecidableEq, Repr

/-- The entry of an address, new or old; none when every entry is PERSISTENT. -/
def Device.ctEntry (d : Device) (b n a ch sub : Nat) : Device × Option Nat :=
  match d.ctFind b n a with
  | some i => (d, some i)
  | none =>
    match d.ctPick b n with
    | none => (d, none)
    | some i =>
      let d := d.ctFree b i
      let d := (((d.put (ctF b i 0 31 0) a).put (ctF b i 1 15 0) (a / 2 ^ 32)).put (ctF b i 1 18 16) ch).put (ctF b i 1 19 19) sub
      (d.put (ctState b i) 1, some i)

/-- Logs a correction at an address (R469, R470); rmw: found by the read half of a read-modify-write. -/
def Device.ctLog (d : Device) (b n a ch sub pos : Nat) (rmw : Bool) : Device × CtDone :=
  match d.ctEntry b n a ch sub with
  | (d, none) => (d, .unlogged)
  | (d, some i) =>
    let d := ((d.put (ctF b i 1 27 20) pos).bump (ctF b i 2 19 8) 1).put (ctF b i 3 31 0) d.time.tick
    let d := if d.on (ctWrit b i) then (d.put (ctRewrites b i) 0).put (ctWrit b i) 0 else d
    if d.get (ctRewrites b i) = 3 then
      (d.put (ctState b i) 2, if d.get (ctState b i) = 2 then .known else .persistent)
    else if rmw then (d, .rewritten)
    else (d.put (ctRewrites b i) (d.get (ctRewrites b i) + 1), .rewritten)

/-- A counter that passes 2^12 sets its cause. -/
def passes (old new : Nat) : Bool := decide (old ≤ 4096) && decide (4096 < new)

/-- A corrected error of a DRAM burst (R469 to R472). -/
def Device.dramCe (d : Device) (a pos : Nat) (rmw : Bool) : Device :=
  let m := d.dramMap a
  let k := m.1
  let n := d.get (DRC_CH_CNT_CE_COUNT k)
  let d := (d.count (DRC_CH_CNT_CE_COUNT k) 1).tally 4 1
  let d := if passes n (n + 1) then d.dramErr k DRC_CH_EV_CAUSE_CE_THRESH else d
  match d.ctLog dramTable 16 (a / 64 * 64) k (m.2 / 64 % 2) pos rmw with
  | (d, r) =>
    let d := if (r == .rewritten || r == .unlogged) && !rmw then d.count (DRC_CH_CNT_REWRITE_COUNT k) 1 else d
    match r with
    | .unlogged => (d.bump DRC_CT_OVF_COUNT 1).dramNote k DRC_CH_EV_CAUSE_CT_OVF
    | .persistent => d.dramErr k DRC_CH_EV_CAUSE_PERSISTENT
    | _ => d

/-- A corrected error of a word of a cluster memory; a PERSISTENT entry is recorded, and the cluster
moves to the front of the rotation (R469, R472). -/
def Device.cluCe (d : Device) (c off pos : Nat) (rmw : Bool) : Device :=
  let n := d.get (CLU_CNT_CE_COUNT c)
  let d := (d.count (CLU_CNT_CE_COUNT c) 1).tally 6 1
  let d := if passes n (n + 1) then d.cause (CLU_EV_CAUSE_CE c) (352 + c) else d
  match d.ctLog (cluTable c) 8 (off / 8 * 8) 0 0 pos rmw with
  | (d, r) => match r with
    | .unlogged => d.bump (DRC_CLCT_OVF_COUNT c) 1
    | .persistent =>
      let d := if d.flt.early.contains c then d else { d with flt := { d.flt with early := d.flt.early ++ [c] } }
      d.fault { Sys2Proof.Machine.report 0 aLog 1 c (cluBase c + off / 8 * 8) noReq 0 noEvent with lc := d.lcField c }
    | _ => d

/-! ### Uncorrectable errors (R473) -/

/-- Writes DRC_UE_LOG at NEXT. -/
def Device.ueLog (d : Device) (a source : Nat) (scrub : Bool) : Device :=
  let n := d.get DRC_UE_PTR_NEXT
  let d := (((d.put (DRC_UE_LOG_A_ADDR n) a).put (DRC_UE_LOG_B_ADDR n) (a / 2 ^ 32)).put (DRC_UE_LOG_B_SOURCE n) source).put
    (DRC_UE_LOG_B_SCRUB n) (b2n scrub)
  let d := if 8 ≤ d.dram.logged then d.put DRC_UE_PTR_WRAPPED 1 else d
  { d with dram := { d.dram with logged := d.dram.logged + 1 } }.put DRC_UE_PTR_NEXT (n + 1)

/-- An uncorrectable error in DRAM; UE_RETRAIN of them within a second make retraining due (R465, R473). -/
def Device.dramUe (d : Device) (a req : Nat) (scrub : Bool) : Device :=
  let k := (d.dramMap a).1
  let d := ((d.count (DRC_CH_CNT_UE_COUNT k) 1).tally 5 1).ueLog (a / 64 * 64) k scrub
  let d := d.dramErr k (if scrub then DRC_CH_EV_CAUSE_SCRUB_UE else DRC_CH_EV_CAUSE_UE)
  let es := (d.time.edges :: tabGet (fun _ => []) d.dram.ues k).filter (fun e => decide (d.time.edges ≤ e + 8000))
  let hit := decide (d.get1 DRC_CTRL_UE_RETRAIN ≤ es.length)
  let d := { d with dram := { d.dram with
    ues := tabSet (fun _ => []) d.dram.ues k (if hit then [] else es)
    due := if hit && !d.dram.due.contains k then d.dram.due ++ [k] else d.dram.due } }
  d.fault (Sys2Proof.Machine.report 3 aLog 7 k (a / 64 * 64) req (if scrub then 0 else 3) (224 + 2 * k))

/-! ### Refresh, calibration, retraining (R461, R464, R465) -/

/-- REFRESH of a subchannel: one that fell due inside a granted burst is counted as postponed. -/
def execRefresh (k : Fin 6) (_sub : Fin 2) (postponed : Bool) (s : State) : Host.Outcome State Fault Refusal :=
  s.run (fun d => if postponed then d.count (DRC_CH_CNT_REF_POST_COUNT k.val) 1 else d)

/-- MR4_POLL: above 85 °C the interval halves. -/
def execMr4Poll (k : Fin 6) (hot : Bool) (s : State) : Host.Outcome State Fault Refusal :=
  s.run (fun d => d.put (DRC_CH_STATUS_REF2X k.val) (b2n hot))

/-- CALIBRATION of a channel: its smallest eye margin and its PHY's temperature; a margin below
MARGIN_MIN makes retraining due. -/
def Device.calibrate (d : Device) (k margin temp : Nat) : Device :=
  let d := (d.count (DRC_CH_CNT_CAL_COUNT k) 1).put (DRC_CH_STATUS_MARGIN k) margin
  let d := d.put (DRC_CH_STATUS_TEMP k) temp
  if margin < d.get DRC_CTRL_MARGIN_MIN && !d.dram.due.contains k then
    { d with dram := { d.dram with due := d.dram.due ++ [k] } }
  else d

/-- Whether a channel is up or between slices of its retraining. -/
def Device.chanLive (d : Device) (k : Nat) : Bool :=
  d.get (DRC_CH_STATUS_STATE k) == chUp || d.get (DRC_CH_STATUS_STATE k) == chRetraining

def execCalibration (k : Fin 6) (margin temp : BitVec 8) (s : State) : Host.Outcome State Fault Refusal :=
  s.run (fun d => if d.chanLive k.val then d.calibrate k.val margin.toNat temp.toNat else d)

/-- DRAM_RETRAIN of a channel whose retraining is due. -/
def execDramRetrain (k : Fin 6) (s : State) : Host.Outcome State Fault Refusal :=
  s.run (fun d => if d.dram.due.contains k.val then d.dramRetrain k.val else d)

/-- RETRAIN_SLICE: at most 400; one that finds a working setting ends the retraining. -/
def Device.slice (d : Device) (k : Nat) (found : Bool) : Device :=
  let n := tabGet (fun _ => 0) d.dram.slices k
  if d.get (DRC_CH_STATUS_STATE k) ≠ chRetraining || 400 ≤ n then d
  else
    let d := { d with dram := { d.dram with slices := tabSet (fun _ => 0) d.dram.slices k (n + 1) } }
    if found then (d.put (DRC_CH_STATUS_STATE k) chUp).dramNote k DRC_CH_EV_CAUSE_RECOVERED else d

def execRetrainSlice (k : Fin 6) (found : Bool) (s : State) : Host.Outcome State Fault Refusal :=
  s.run (fun d => d.slice k.val found)

/-- CHANNEL_RETIRE after 400 slices without a working setting (R466, R467). -/
def execChannelRetire (k : Fin 6) (s : State) : Host.Outcome State Fault Refusal :=
  s.run (fun d =>
    if d.get (DRC_CH_STATUS_STATE k.val) = chRetraining && 400 ≤ tabGet (fun _ => 0) d.dram.slices k.val then
      d.dramRetire k.val
    else d)

/-- REDIRECT_APPLY at the next edge: the channel's blocks move to the survivors' reserves, and what they
held is lost (R466). -/
def Device.redirectNow (d : Device) : Device :=
  let k := d.get DRC_MAP_REDIRECT
  if k = 7 || d.dram.redirect ≠ 7 then d
  else
    let lost := fun a => decide (a < 2 ^ 38) && (d.dramMap a).1 == k
    { d with
      mem := d.mem.filter (fun p => !lost p.1)
      dram := { d.dram with redirect := k, unread := d.dram.unread.filter (fun a => !lost a) } }

def execRedirectApply (s : State) : Host.Outcome State Fault Refusal := s.run (fun d => d.redirectNow)

/-! ### Scrubbing (R474) -/

/-- Whether an enabled patrol range holds an address. -/
def Device.scrubbed (d : Device) (a : Nat) : Bool :=
  d.on DRC_SCRUB_EN && decide (a < d.dramEnd) && (List.range 4).any (fun r =>
    decide (2 ^ 20 * d.get (DRC_SCRUB_BASE_MIB r) ≤ a) && decide (a < 2 ^ 20 * d.get (DRC_SCRUB_LIMIT_MIB r)))

/-- PATROL_SCRUB of a burst: the symbol corrected, or an uncorrectable error. -/
def execPatrolScrub (b : BitVec 32) (ce : Option (Fin 160)) (ue : Bool) (s : State) : Host.Outcome State Fault Refusal :=
  s.run (fun d =>
    let a := 64 * b.toNat
    if !d.scrubbed a || !d.chanLive (d.dramMap a).1 then d
    else if ue || d.unreadable a 64 then d.dramUe a noReq true
    else match ce with
      | some p => d.dramCe a p.val false
      | none => d)

/-- CLUSTER_SCRUB of a word of a cluster memory: the bit corrected, or an uncorrectable error, which is
logged. -/
def execClusterScrub (c : Fin 20) (w : Fin 2097152) (ce : Option (Fin 72)) (ue : Bool) (s : State) :
    Host.Outcome State Fault Refusal :=
  s.run (fun d =>
    let off := 8 * w.val
    if !bit (d.get DRC_CL_SCRUB_EN) c.val || !cluOffset off then d
    else if ue then d.ueLog off (32 + c.val) true
    else match ce with
      | some p => d.cluCe c.val off p.val false
      | none => d)

/-! ### Soft post-package repair (R475, R476) -/

/-- Bank (5 bits) and row (16 bits) of a channel-local address: which DRAM address lines select them is
left open, and the same address names the same row (log entry 4). -/
def Device.dramRow (d : Device) (a : Nat) : Nat × Nat × Nat :=
  let m := d.dramMap a
  (m.1, Config.kernel 40 [m.2] [] 0 % 32, Config.kernel 40 [m.2] [] 1 % 65536)

/-- The address in DRC_PPR_ADDR. -/
def Device.pprAddr (d : Device) : Nat := d.addr48 DRC_PPR_ADDR_LO_ADDR DRC_PPR_ADDR_HI_ADDR

/-- A write of DRC_PPR_CTRL: GO is ignored while a repair is active, and BAD_ADDR answers an address
outside DRAM or on a retired channel. -/
def Device.pprGo (d : Device) (v : Nat) : Device :=
  if !bit v 0 || d.get DRC_PPR_STATUS_STATE ≠ 0 then d
  else
    let a := d.pprAddr
    let r := d.dramRow a
    if d.dramEnd ≤ a || d.chanRetired r.1 then d.put DRC_PPR_STATUS_RESULT 4
    else
      let d := ((d.put DRC_PPR_STATUS_STATE 1).put DRC_PPR_STATUS_BANK r.2.1).put DRC_PPR_STATUS_ROW r.2.2
      { d with dram := { d.dram with ppr := r.1 } }

def execPprGo (_r : Req) (v : Word) (s : State) : Host.Outcome State Fault Refusal := s.run (fun d => d.pprGo v.toNat)

/-- The end of a repair with a result. -/
def Device.pprEnd (d : Device) (res : Nat) : Device :=
  ((d.put DRC_PPR_STATUS_STATE 0).put DRC_PPR_STATUS_RESULT res).dramNote d.dram.ppr DRC_CH_EV_CAUSE_PPR_DONE

/-- Resource key of the bank group of the row under repair. -/
def Device.pprKey (d : Device) : Nat := 8 * d.dram.ppr + d.get DRC_PPR_STATUS_BANK / 4

/-- PPR_WINDOW at the next base tick edge: requests to the channel are held; a bank group whose resource
is used ends it with NO_RESOURCE. -/
def execPprWindow (s : State) : Host.Outcome State Fault Refusal :=
  s.run (fun d =>
    if d.get DRC_PPR_STATUS_STATE ≠ 1 then d
    else if d.get (DRC_CH_STATUS_STATE d.dram.ppr) = chRetired then d.pprEnd 3
    else if d.dram.used.contains d.pprKey then d.pprEnd 1
    else
      let was := d.get (DRC_CH_STATUS_STATE d.dram.ppr)
      ({ d with dram := { d.dram with pprWas := was } }.put DRC_PPR_STATUS_STATE 2).put (DRC_CH_STATUS_STATE d.dram.ppr) chQuiesced)

/-- The repair completes: bursts uncorrectable in the read become unreadable, the resource is used, and
PERSISTENT entries of the row are freed. -/
def Device.pprDone (d : Device) (ok : Bool) (bad : List Nat) : Device :=
  if d.get DRC_PPR_STATUS_STATE ≠ 2 then d
  else
    let row := d.dramRow d.pprAddr
    let d := (bad.filter (fun a => decide (a < d.dramEnd) && d.dramRow a == row)).foldl (fun (d : Device) a =>
      let d := d.ueLog a row.1 false
      { d with dram := { d.dram with unread := if d.dram.unread.contains a then d.dram.unread else d.dram.unread ++ [a] } }) d
    let d := d.put (DRC_CH_STATUS_STATE d.dram.ppr) d.dram.pprWas
    if !ok then d.pprEnd 2
    else
      let d := { d with
        dram := { d.dram with used := d.dram.used ++ [d.pprKey] }
        hwd := { d.hwd with repairs := d.hwd.repairs ++ [d.pprAddr], dirty := true } }
      let d := (List.range 16).foldl (fun (d : Device) i =>
        let a := d.get (DRC_CT_W0_ADDR_LO i) + 2 ^ 32 * d.get (DRC_CT_W1_ADDR_HI i)
        if d.get (DRC_CT_W2_STATE i) = 2 && d.dramRow a == row then d.ctClear i else d) d
      d.pprEnd 0

def execPprDone (ok : Bool) (bad : List (BitVec 32)) (s : State) : Host.Outcome State Fault Refusal :=
  s.run (fun d => d.pprDone ok (bad.map (fun b => 64 * b.toNat)))

/-- CT_FREE: a write of DRC_CT_FREE frees a PERSISTENT entry (R472). -/
def Device.ctFreeWrite (d : Device) (v : Nat) : Device :=
  let i := bits v 4 0
  let c := bits v 10 6
  if bit v 5 then
    (if c < 20 && i < 8 && d.get (ctState (cluTable c) i) = 2 then d.ctFree (cluTable c) i else d)
  else if i < 16 && d.get (ctState dramTable i) = 2 then d.ctFree dramTable i
  else d

def execCtFree (_r : Req) (v : Word) (s : State) : Host.Outcome State Fault Refusal := s.run (fun d => d.ctFreeWrite v.toNat)

end Sys2Proof.Machine
end

