-- ==== Sys2Proof/Machine/Net.lean ====
section
/-! DEFINITION. The network ports: queues and their windows, frames received and sent, stamps, links, and the losses of
lock that take one down (R157, R163 to R169, R546 to R552). -/

namespace Sys2Proof.Machine
open R

/-! ### Ports and queues -/

/-- Whether a port exists in the mode in force (R546). -/
def Device.portOn (d : Device) (p : Nat) : Bool :=
  match d.get NET_CTRL_MODE with
  | 1 => p == 0
  | 2 => decide (p < 2)
  | 3 => decide (p < 4)
  | _ => false

/-- The die a port lies on. -/
def Device.portDie (d : Device) (p : Nat) : Nat :=
  match d.get NET_CTRL_MODE with
  | 2 => p % 2
  | 3 => p / 2 % 2
  | _ => 0

/-- The lanes of a port. -/
def Device.portLanes (d : Device) (p : Nat) : List Nat :=
  ((List.range 8).filter (fun i => d.portOn p && d.lanePort i == some p)).map (72 + ·)

/-- Causes of a port (R564). -/
def Device.netCause (d : Device) (p : Nat) (f : Nat → Fld) : Device := d.cause (f p) (136 + p)

/-- Receive and transmit queue j of die e, oldest unit first. -/
def Device.rxq (d : Device) (q : Nat) : List (List Byte) := tabGet (fun _ => []) d.net.rx q
def Device.txq (d : Device) (q : Nat) : List (List Byte) := tabGet (fun _ => []) d.net.tx q
def Device.setRxq (d : Device) (q : Nat) (l : List (List Byte)) : Device :=
  { d with net := { d.net with rx := tabSet (fun _ => []) d.net.rx q l } }
def Device.setTxq (d : Device) (q : Nat) (l : List (List Byte)) : Device :=
  { d with net := { d.net with tx := tabSet (fun _ => []) d.net.tx q l } }

/-- Units a queue holds room for: 64 KiB and 32 KiB (R548). -/
def rxCap : Nat := 1024
def txCap : Nat := 512

/-- Pulses a request line n times (R434). -/
def Device.linePulses (d : Device) (line : Nat) : Nat → Device
  | 0 => d
  | n + 1 => (d.dmaPulse line).linePulses line n

/-- n units have entered receive queue q: its line, once for every 16 (R548). -/
def Device.rxCount (d : Device) (q n : Nat) : Device :=
  let c := tabGet (fun _ => 0) d.net.rxLine q + n
  let d := { d with net := { d.net with rxLine := tabSet (fun _ => 0) d.net.rxLine q (c % 16) } }
  d.linePulses (256 * (q / 8) + 224 + q % 8) (c / 16)

/-- n units of room have been freed in transmit queue q. -/
def Device.txFree (d : Device) (q n : Nat) : Device :=
  let c := tabGet (fun _ => 0) d.net.txFreed q + n
  let d := { d with net := { d.net with txFreed := tabSet (fun _ => 0) d.net.txFreed q (c % 16) } }
  d.linePulses (256 * (q / 8) + 232 + q % 8) (c / 16)

/-- 64-byte units of bytes, the last padded with zeros. -/
def unitsOf (bs : List Byte) : List (List Byte) :=
  (List.range ((bs.length + 63) / 64)).map (fun i =>
    let u := (bs.drop (64 * i)).take 64
    u ++ List.replicate (64 - u.length) 0)

/-- An idle unit (R549). -/
def idleUnit : List Byte := List.replicate 64 0

/-- Fields of a header unit (R549). -/
def hLen (u : List Byte) : Nat := bits (wordAt u 0) 13 0
def hType (u : List Byte) : Nat := bits (wordAt u 0) 31 24

/-! ### Reception (R549 to R551) -/

/-- A big-endian number from bytes. -/
def beNat (bs : List Byte) : Nat := bs.foldl (fun n b => 256 * n + b.toNat) 0

/-- The EtherType of an untagged frame, and its byte i. -/
def etherType (bs : List Byte) : Nat := beNat ((bs.drop 12).take 2)
def at_ (bs : List Byte) (i : Nat) : Nat := ((bs.drop i).headD 0).toNat

/-- Bytes before the UDP payload of an IPv4 UDP frame; none for another frame (PRESUMED, log entry 29). -/
def udpBody (bs : List Byte) : Option Nat :=
  if etherType bs = 0x0800 && at_ bs 14 / 16 = 4 && at_ bs 23 = 17 then some (14 + 4 * (at_ bs 14 % 16) + 8) else none

/-- ESMC: EtherType 0x8809, subtype 0x0A (R551). -/
def isEsmc (bs : List Byte) : Bool := etherType bs == 0x8809 && at_ bs 14 == 0x0A

/-- A frame that goes to Hayward on a port of PTP_PORTS (R551). -/
def toHayward (bs : List Byte) : Bool :=
  etherType bs == 0x88F7 || isEsmc bs ||
    (match udpBody bs with
     | some o => let port := beNat ((bs.drop (o - 6)).take 2)
       port == 319 || port == 320
     | none => false)

/-- The stamp of an event at the PCS of a network port, whose latency is that of the ports' mode (R52). -/
def Device.netStamp (d : Device) (into : Nat) : Nat := d.time.stamp into (d.get NET_CTRL_MODE)

/-- The header unit of a received frame. -/
def Device.rxHeader (d : Device) (p len : Nat) (tci : Option (BitVec 16)) (into : Nat) : List Byte :=
  let tod := d.netStamp into
  leBytes 4 (len + 2 ^ 14 * p + 2 ^ 16 * b2n tci.isSome + 2 ^ 17 * b2n (d.get TTB_STATUS_STATE == stLocked) + 2 ^ 24) ++
    leBytes 4 (tci.elim 0 (·.toNat)) ++ leBytes 8 (tod / 1000000000 % 2 ^ 48) ++ leBytes 4 (tod % 1000000000) ++
    List.replicate 44 0

/-- A frame with an FCS or a length error (R547, R550). -/
def frameBad (bs : List Byte) (tagged fcsOk : Bool) : Bool :=
  !fcsOk || decide (9216 < bs.length) || decide (bs.length + (if tagged then 4 else 0) < 60)

/-- NET_FRAME_RX on a port: its bytes from the destination address, without tag and FCS, stamped into
nanoseconds after the last base tick edge. -/
def Device.netRx (d : Device) (p : Nat) (tci : Option (BitVec 16)) (bs : List Byte) (fcsOk : Bool) (into : Nat) : Device :=
  if !d.portOn p || !bit (d.get NET_CTRL_PORT_EN) p || !d.on (NET_PORT_STATUS_LINK p) then d
  else if frameBad bs tci.isSome fcsOk then d.count (NET_CNT_FCS_COUNT p) 1
  else
    let d := d.count (NET_CNT_RX_COUNT p) 1
    if toHayward bs && bit (d.get NET_CTRL_PTP_PORTS) p then
      let d := if isEsmc bs then
          { d with hwd := { d.hwd with ssmRx := tabSet (fun _ => 0) d.hwd.ssmRx p (at_ bs 27 % 16) } }
        else d
      d.emit (.hayward p (d.netStamp into) bs)
    else
      let pcp := tci.elim 0 (fun t => t.toNat / 2 ^ 13)
      let q := 8 * d.portDie p + bits (d.get (NET_RXQ_MAP p)) (3 * pcp + 2) (3 * pcp)
      let us := d.rxHeader p bs.length tci into :: unitsOf bs
      if rxCap < (d.rxq q).length + us.length then
        (d.count (NET_CNT_RX_DROP_COUNT p) 1).netCause p NET_PORT_EV_CAUSE_RX_DROP
      else (d.setRxq q (d.rxq q ++ us)).rxCount q us.length

def execNetFrameRx (p : Fin 4) (tci : Option (BitVec 16)) (data : List Byte) (fcsOk : Bool) (into : Nat) (s : State) :
    Host.Outcome State Fault Refusal :=
  s.run (fun d => d.netRx p.val tci data fcsOk into)

/-- RXQ_IDLE_FILL: a queue that holds some units, fewer than 16, fills itself to 16 (R548). -/
def execRxqIdleFill (q : Fin 16) (s : State) : Host.Outcome State Fault Refusal :=
  s.run (fun d =>
    let n := (d.rxq q.val).length
    if 0 < n && n < 16 then
      (d.setRxq q.val (d.rxq q.val ++ List.replicate (16 - n) idleUnit)).rxCount q.val (16 - n)
    else d)

/-! ### Transmission (R549 to R552) -/

/-- The port of transmit queue q: none when it lies on another die. -/
def Device.queuePort (d : Device) (q : Nat) : Option Nat :=
  let p := bits (d.get (NET_TXQ_PORT_MAP (q / 8))) (2 * (q % 8) + 1) (2 * (q % 8))
  if d.portDie p = q / 8 && d.portOn p then some p else none

/-- Units of the frame at the front of a queue; none when no whole frame is queued. -/
def frontFrame : List (List Byte) → Option Nat
  | [] => none
  | u :: t =>
    let n := (hLen u + 63) / 64
    if n ≤ t.length then some (n + 1) else none

/-- Units of the whole frames at the front of a queue. -/
def wholeUnits (l : List (List Byte)) : Nat → Nat
  | 0 => 0
  | f + 1 => match frontFrame l with
    | some k => k + wholeUnits (l.drop k) f
    | none => 0

/-- Whole frames of queues with no port to go to are discarded, those of a port that is down counted (R550,
R552). -/
def Device.txDiscard (d : Device) (q : Nat) : Nat → Device
  | 0 => d
  | f + 1 =>
    match frontFrame (d.txq q) with
    | none => d
    | some n =>
      let drop := fun (d : Device) => (d.setTxq q ((d.txq q).drop n)).txFree q n
      match d.queuePort q with
      | none => (drop d).txDiscard q f
      | some p =>
        if d.on (NET_PORT_STATUS_LINK p) then d
        else (((drop d).count (NET_CNT_TX_DROP_COUNT p) 1).netCause p NET_PORT_EV_CAUSE_TX_DROP).txDiscard q f

/-- One unit pushed into a transmit queue (R549). -/
def Device.txPush (d : Device) (q : Nat) (u : List Byte) : Device :=
  let left := tabGet (fun _ => 0) d.net.txLeft q
  let skip := tabGet (fun _ => 0) d.net.txSkip q
  let setLeft := fun (d : Device) n => { d with net := { d.net with txLeft := tabSet (fun _ => 0) d.net.txLeft q n } }
  let setSkip := fun (d : Device) n => { d with net := { d.net with txSkip := tabSet (fun _ => 0) d.net.txSkip q n } }
  if 0 < skip then (setSkip d (skip - 1)).txFree q 1
  else if 0 < left then (setLeft d (left - 1)).setTxq q (d.txq q ++ [u])
  else if hType u ≠ 1 then d.txFree q 1
  else if hLen u < 14 || 9216 < hLen u then
    (((setSkip d ((min (hLen u) 9216 + 63) / 64)).txFree q 1)).cause (NET_Q_EV_CAUSE_TXQ_ERR (q / 8)) (140 + q / 8)
  else (setLeft d ((hLen u + 63) / 64)).setTxq q (d.txq q ++ [u])

/-- A refused push with PROV: EV270, and the frame under way is discarded (R98, R552): its units queued so
far, and those still to come. -/
def Device.txRefuse (d : Device) (q n : Nat) : Device :=
  let d := (d.put LWK_ERR_PROV_REFUSED 1).pulse 270
  let left := tabGet (fun _ => 0) d.net.txLeft q
  let us := d.txq q
  if left = 0 then d
  else
    let whole := wholeUnits us us.length
    let d := (d.setTxq q (us.take whole)).txFree q (us.length - whole)
    { d with net := { d.net with
      txLeft := tabSet (fun _ => 0) d.net.txLeft q 0
      txSkip := tabSet (fun _ => 0) d.net.txSkip q (left - n) } }

/-- A write of a transmit window: units pushed, or TARGET_ERR beyond the free room (R548). -/
def Device.netPush (d : Device) (q : Nat) (prov : Bool) (data : List Byte) : Device × Resp :=
  let us := unitsOf data
  if prov then (d.txRefuse q us.length, targetErr)
  else if txCap < (d.txq q).length + us.length then (d, targetErr)
  else ((us.foldl (fun (d : Device) u => d.txPush q u) d).txDiscard q txCap, ok)

/-- A read of a receive window: units popped, or TARGET_ERR beyond those queued (R548). -/
def Device.netPop (d : Device) (q n : Nat) : Device × Resp :=
  if (d.rxq q).length < n then (d, targetErr)
  else (d.setRxq q ((d.rxq q).drop n), { ok with data := ((d.rxq q).take n).flatMap (fun u => u) })

def execNetQueuePop (q : Fin 16) (units : Fin 65) (src : BitVec 10) (s : State) : Host.Outcome State Fault Refusal :=
  s.answer src.toNat (fun d => d.netPop q.val units.val)

def execNetQueuePush (q : Fin 16) (prov : Bool) (data : List Byte) (src : BitVec 10) (s : State) :
    Host.Outcome State Fault Refusal :=
  s.answer src.toNat (fun d => d.netPush q.val prov data)

/-- Writes bytes over a frame's bytes from an offset. -/
def overlay (bs : List Byte) (o : Nat) (v : List Byte) : List Byte := bs.take o ++ v ++ bs.drop (o + v.length)

/-- n bytes of a number, big-endian. -/
def beBytes (n v : Nat) : List Byte := (leBytes n v).reverse

/-- ONE_STEP: the transmit time in originTimestamp of a PTP event message, the UDP checksum cleared (R551;
PRESUMED layout of the messages, log entry 29). -/
def oneStep (bs : List Byte) (sec ns : Nat) : List Byte :=
  let stamp := fun (bs : List Byte) o =>
    if at_ bs o % 16 < 4 then overlay bs (o + 34) (beBytes 6 (sec % 2 ^ 48) ++ beBytes 4 ns) else bs
  if etherType bs = 0x88F7 then stamp bs 14
  else match udpBody bs with
    | some o => if at_ bs o % 16 < 4 then overlay (stamp bs o) (o - 2) [0, 0] else bs
    | none => bs

/-- NET_FRAME_TX on a port: the highest queue with a whole frame sends it, stamped at the PCS, or the test pattern in its place
while a lane of the port sends one (R170, R550, R551). -/
def Device.netTx (d : Device) (p into : Nat) : Device :=
  let qs := ((List.range 8).map (fun j => 8 * d.portDie p + (7 - j))).filter (fun q =>
    d.queuePort q == some p && (frontFrame (d.txq q)).isSome)
  match qs with
  | [] => d
  | q :: _ =>
    if !d.on (NET_PORT_STATUS_LINK p) || !bit (d.get NET_CTRL_PORT_EN) p then d
    else
      let us := d.txq q
      let n := (frontFrame us).getD 1
      let u := us.headD []
      let bs := (((us.drop 1).take (n - 1)).flatMap (fun u => u)).take (hLen u)
      let tod := d.netStamp into
      let sec := tod / 1000000000
      let ns := tod % 1000000000
      let one := bit (wordAt u 0) 19
      let bs := if one then oneStep bs sec ns else bs
      let bs := bs ++ List.replicate (60 - bs.length) 0
      let d := ((d.setTxq q (us.drop n)).txFree q n).count (NET_CNT_TX_COUNT p) 1
      let d := d.emit (if (d.portLanes p).any (fun n => d.on (RLN_LANE_TEST_GEN n)) then .netPrbs p
        else .net p (if bit (wordAt u 0) 16 then some (wordAt u 1 % 65536) else none) bs one)
      if !bit (wordAt u 0) 18 then d
      else
        let st := tabGet (fun _ => []) d.net.stamps p
        if 16 ≤ st.length then d.netCause p NET_PORT_EV_CAUSE_TXTS_OVF
        else { d with net := { d.net with
          stamps := tabSet (fun _ => []) d.net.stamps p (st ++ [TxStamp.mk (wordAt u 5) sec ns]) } }.put
            (NET_PORT_STATUS_TXTS_COUNT p) (st.length + 1)

def execNetFrameTx (p : Fin 4) (into : Nat) (s : State) : Host.Outcome State Fault Refusal :=
  s.run (fun d => d.netTx p.val into)

/-- A read of NET_TXTS_TAG: the oldest stamp is popped and its time latched; 0 when there is none. -/
def Device.txtsPop (d : Device) (p : Nat) : Device × Nat :=
  match tabGet (fun _ => []) d.net.stamps p with
  | [] => (d, 0)
  | t :: rest =>
    let d := { d with net := { d.net with stamps := tabSet (fun _ => []) d.net.stamps p rest } }
    let d := (d.put (NET_PORT_STATUS_TXTS_COUNT p) rest.length).put (NET_TXTS_NS_NS p) t.ns
    ((d.put (NET_TXTS_SEC_LO_SEC p) t.sec).put (NET_TXTS_SEC_HI_SEC p) (t.sec / 2 ^ 32), t.tag)

def execTxtsPop (r : Req) (p : Fin 4) (s : State) : Host.Outcome State Fault Refusal :=
  s.run (fun d => match d.txtsPop p.val with
    | (d, v) => d.emit (.regRead (reqNum r) (NET_TXTS_TAG p.val) v))

/-! ### Links -/

/-- A port's link goes down: its queues' frames are discarded (R552). -/
def Device.netDown (d : Device) (p : Nat) : Device :=
  if !d.on (NET_PORT_STATUS_LINK p) then d
  else
    let d := (d.put (NET_PORT_STATUS_LINK p) 0).netCause p NET_PORT_EV_CAUSE_LINK_DOWN
    (List.range 16).foldl (fun (d : Device) q => d.txDiscard q txCap) d

/-- The link of the port that a network lane carries goes down (R165). -/
def Device.laneNetDown (d : Device) (n : Nat) : Device :=
  if n < 72 then d else match d.lanePort (n - 72) with
    | some p => d.netDown p
    | none => d

/-- A lane's port is enabled: it trains; disabled: it is out of use, and its port's link down (R164, R168). -/
def Device.netLaneEn (d : Device) (n : Nat) (was now : Bool) : Device :=
  if now && !was && !d.power.trip && !d.hwd.ready then d.laneTrain n lTraining false
  else if was && !now then (d.laneNetDown n).laneOff n
  else d

/-- A write of NET_CTRL: the lanes of the ports that are enabled train, those of ports disabled stop. -/
def Device.writeNetCtrl (d : Device) (v : Nat) : Device :=
  let old := d.get NET_CTRL_PORT_EN
  let d := (d.put NET_CTRL_PORT_EN (v / 256)).put NET_CTRL_PTP_PORTS (v / 4096)
  (List.range 8).foldl (fun (d : Device) i => match d.lanePort i with
    | some p => d.netLaneEn (72 + i) (bit old p) (bit (d.get NET_CTRL_PORT_EN) p)
    | none => d) d

/-- Every network transmitter off (R558). -/
def Device.netOff (d : Device) : Device :=
  (List.range 8).foldl (fun (d : Device) i => (d.laneNetDown (72 + i)).laneOff (72 + i)) d

def execNetLinkDown (p : Fin 4) (s : State) : Host.Outcome State Fault Refusal := s.run (fun d => d.netDown p.val)

/-- A port's link comes up: it exists and is enabled, its lanes are UP, and no trip has turned the transmitters off. -/
def execNetLinkUp (p : Fin 4) (s : State) : Host.Outcome State Fault Refusal :=
  s.run (fun d =>
    if d.on (NET_PORT_STATUS_LINK p.val) || !d.portOn p.val || !bit (d.get NET_CTRL_PORT_EN) p.val || d.power.trip || d.ballsTaken ||
        !(d.portLanes p.val).all d.laneUp then d
    else (d.put (NET_PORT_STATUS_LINK p.val) 1).netCause p.val NET_PORT_EV_CAUSE_LINK_UP)

/-- HI_BER of a port's PCS asserts or clears (R552). -/
def execHiBer (p : Fin 4) (on_ : Bool) (s : State) : Host.Outcome State Fault Refusal :=
  s.run (fun d =>
    let d := d.put (NET_PORT_STATUS_HI_BER p.val) (b2n on_)
    if on_ then d.netCause p.val NET_PORT_EV_CAUSE_HI_BER else d)

/-! ### Lanes that lose their lock (R157, R163, R169) -/

/-- LOSS_OF_SIGNAL: the lane loses its lock, and a network lane takes its port's link down (R157, R165). -/
def execLossOfSignal (n : Fin 80) (s : State) : Host.Outcome State Fault Refusal :=
  s.run (fun d =>
    if d.laneState n.val = lDisabled || d.on (RLN_LANE_STATUS_LOS n.val) then d
    else (((d.put (RLN_LANE_STATUS_LOS n.val) 1).laneCause n.val RLN_LANE_EV_CAUSE_LOS).dropLock n.val).laneNetDown n.val)

/-- RETRAIN: a lane that is UP whose lock has been lost for 100 µs, or with RETRAIN_TICKS base ticks in a
row above the limit (R163). -/
def execRetrain (n : Fin 80) (unlocked : Bool) (s : State) : Host.Outcome State Fault Refusal :=
  s.run (fun d =>
    if d.laneUp n.val && ((unlocked && !d.on (RLN_LANE_STATUS_BLOCK_LOCK n.val)) ||
        decide (d.get1 RLN_CTRL_RETRAIN_TICKS ≤ (d.lane n.val).badTicks)) then
      let d := (d.count (RLN_LANE_CNT_RETRAIN_COUNT n.val) 1).laneCause n.val RLN_LANE_EV_CAUSE_RETRAIN
      ((d.laneTrain n.val lRetraining false).filShow n.val).laneNetDown n.val
    else d)

/-- QUAD_PLL_UNLOCK: every lane of the quad drops block lock (R169). -/
def execQuadPllUnlock (k : Fin 20) (s : State) : Host.Outcome State Fault Refusal :=
  s.run (fun d =>
    let d := d.put RLN_STATUS_PLL_LOCK (putBits (d.get RLN_STATUS_PLL_LOCK) k.val k.val 0)
    (List.range 4).foldl (fun (d : Device) i => (d.dropLock (4 * k.val + i)).laneNetDown (4 * k.val + i)) d)

end Sys2Proof.Machine
end

