-- ==== Sys2Proof/Machine/Power.lean ====
section
/-! DEFINITION. Heat, voltage and the power domains (R480, R487 to R502). -/

namespace Sys2Proof.Machine
open R

/-! ### Links that a trip takes down (R490, R542) -/

/-- A host's link goes down: its requests' responses are discarded, and EV(144 + p) is raised (R542). -/
def Device.hostDown (d : Device) (p : Nat) : Device :=
  if !(d.host p).linkUp then d
  else (d.setHost p { d.host p with linkUp := false, retry := [] }).cause
    ⟨HWD_EV_CAUSE, 7 + p, 7 + p⟩ (144 + p)

/-! ### Heat (R487 to R490) -/

/-- T_soft and H in °C (R504). -/
def Device.tSoft (d : Device) : Int := (max 70 (min 100 (d.get ELP_CTRL_THERM_SOFT)) : Nat)
def Device.tHyst (d : Device) : Int := (d.get1 ELP_CTRL_THERM_HYST : Nat)

/-- The thermal state after a sample with Tj in quarter degrees: 0 NORMAL, 1 SOFT, 2 STRETCH (R488). -/
def Device.thermNext (d : Device) (tj : Int) : Nat :=
  let st := d.get ELP_BUDGET_TSTATE
  if 420 ≤ tj || (st = 2 && 412 < tj) then 2
  else if 4 * d.tSoft ≤ tj || (st ≠ 0 && 4 * (d.tSoft - d.tHyst) < tj) then 1
  else 0

/-- The telemetry collector's largest Tj per quadrant, four sensors each, and highest state (R577). -/
def Device.heat (d : Device) (ts : List Int) (st : Nat) : Device :=
  let m := d.tlm.now
  let tj := (ts.zipIdx).foldl (fun (t : Tab Int) p => tabSet tj0 t (p.2 / 4) (max p.1 (tabGet tj0 t (p.2 / 4)))) m.tj
  { d with tlm := { d.tlm with now := { m with tj := tj, tstate := max m.tstate st } } }

/-- THERMAL_SAMPLE: the sixteen sensors in quarter degrees, and the transitions the state passes through. -/
def Device.thermal (d : Device) (ts : List Int) : Device :=
  let d := (ts.zipIdx).foldl (fun (d : Device) p => d.put (ELP_TEMP_TEMP p.2) (ofSigned 12 p.1)) d
  let tj := maxInt ts
  let d := (d.put ELP_TEMP_MAX_TEMP (ofSigned 12 tj)).put ELP_TEMP_MAX_SENSOR (ts.findIdx (· == tj))
  let old := d.get ELP_BUDGET_TSTATE
  let new := d.thermNext tj
  let d := (d.put ELP_BUDGET_TSTATE new).heat ts new
  let d := if old = 0 && new ≠ 0 then d.cause ELP_EV_CAUSE_SOFT_ON 8 else d
  let d := if old ≠ 2 && new = 2 then d.cause ELP_EV_CAUSE_STRETCH_ON 9 else d
  let d := if old = 2 && new ≠ 2 then d.cause ELP_EV_CAUSE_STRETCH_OFF 9 else d
  if old ≠ 0 && new = 0 then d.cause ELP_EV_CAUSE_SOFT_OFF 8 else d

def execThermalSample (ts : List (BitVec 12)) (s : State) : Host.Outcome State Fault Refusal :=
  s.run (fun d =>
    if ts.length = 16 && !d.power.trip then d.thermal (ts.map (fun t => toSigned 12 t.toNat)) else d)

/-- THERMAL_TRIP: THERMTRIP_N, the clocks stop, every link goes down, and TRIPPED is set (R490). -/
def Device.tripNow (d : Device) : Device :=
  let d := { d with power := { d.power with trip := true } }.put ELP_TRIP_TRIPPED 1
  let d := (List.range 4).foldl (fun (d : Device) p => d.netDown p) d
  let d := (List.range 2).foldl (fun (d : Device) p =>
    (d.hostDown p).setHost p { (d.hostDown p).host p with txOn := false }) d
  (List.range 80).foldl (fun (d : Device) n => d.laneOff n) d

def execThermalTrip (s : State) : Host.Outcome State Fault Refusal :=
  s.run (fun d => if d.power.trip then d else d.tripNow)

/-! ### Estimators and voltage (R480, R493, R494) -/

/-- A gain moved by at most 1 % of itself toward what the comparison asks for, in parts per thousand. -/
def gainStep (g want : Int) : Int := clampInt (g - g / 100) (g + g / 100) want

/-- GAIN_CALIBRATION: the gain each rail's comparison asks for, none where its regulator reports no
reading or has not acknowledged (R480, R494). -/
def execGainCalibration (core sram : Option Int) (s : State) : Host.Outcome State Fault Refusal :=
  s.run (fun d => { d with ledger := { d.ledger with
    gainCore := core.elim d.ledger.gainCore (gainStep d.ledger.gainCore)
    gainSram := sram.elim d.ledger.gainSram (gainStep d.ledger.gainSram) } })

/-- AVS_MEASURE: the oscillators' counts, the slowest one's margin, and whether it falls short of what
the silicon requires or exceeds it (R493). -/
def Device.avs (d : Device) (osc : List Nat) (margin : Nat) (short surplus : Bool) : Device :=
  let tab : Tab Nat := (osc.zipIdx).foldl (fun t p => tabSet (fun _ => 0) t p.2 p.1) []
  let n := if surplus && !short then d.power.surplus + 1 else 0
  let d := { d with power := { d.power with osc := tab, surplus := n, lowered := d.power.lowered + 1 } }
  let d := d.put ELP_AVS_MARGIN margin
  let v := d.get ELP_AVS_VSET
  if !d.on ELP_CTRL_AVS_EN then d
  else if short then
    (if v < 24 then d.put ELP_AVS_VSET (v + 1) else (d.put ELP_AVS_VSET 24).cause ELP_EV_CAUSE_AVS_LIMIT 13)
  else if 1000 ≤ n && 10 ≤ d.power.lowered && 0 < v then
    { d with power := { d.power with lowered := 0 } }.put ELP_AVS_VSET (v - 1)
  else d

def execAvsMeasure (osc : List (BitVec 16)) (margin : BitVec 8) (short surplus : Bool) (s : State) :
    Host.Outcome State Fault Refusal :=
  s.run (fun d => if osc.length = 64 then d.avs (osc.map (·.toNat)) margin.toNat short surplus else d)

/-- A transaction regulator r does not acknowledge; the third in a row sets PMB_NACK (R494). -/
def Device.pmbNack (d : Device) (r : Nat) : Device :=
  let n := tabGet (fun _ => 0) d.power.nacks r + 1
  let d := { d with power := { d.power with nacks := tabSet (fun _ => 0) d.power.nacks r n } }
  if n = 3 then d.cause ELP_EV_CAUSE_PMB_NACK 12 else d

/-- An acknowledged transaction. -/
def Device.pmbAck (d : Device) (r : Nat) : Device :=
  { d with power := { d.power with nacks := tabSet (fun _ => 0) d.power.nacks r 0 } }

/-- PMBUS_POLL of a regulator: READ_VOUT in mV and READ_IOUT in 0.1 A, or no acknowledgement. -/
def execPmbusPoll (r : Fin 8) (vi : Option (BitVec 16 × BitVec 16)) (s : State) : Host.Outcome State Fault Refusal :=
  s.run (fun d =>
    if !d.on (ELP_PMB_STATUS_PRESENT r.val) then d
    else match vi with
      | none => d.pmbNack r.val
      | some p => ((d.pmbAck r.val).put (ELP_PMB_V_MV r.val) p.1.toNat).put (ELP_PMB_I_DA r.val) p.2.toNat)

/-- Bits of a STATUS_WORD that report a fault, POWER_GOOD# among them, and those that report a warning
(PRESUMED from PMBus 1.3, log entry 30). -/
def pmbFault (w : Nat) : Bool := bit w 11 || bits w 6 3 != 0
def pmbWarn (w : Nat) : Bool := bits w 2 0 != 0 || bits w 10 8 != 0 || bits w 15 12 != 0

/-- A STATUS_WORD read from regulator r: a warning, or a fault, which is FATAL (R494). -/
def Device.pmbStatus (d : Device) (r : Nat) (w : Option Nat) : Device :=
  if !d.on (ELP_PMB_STATUS_PRESENT r) then d
  else match w with
    | none => d.pmbNack r
    | some w =>
      let d := (d.pmbAck r).put (ELP_PMB_STATUS_STATUS_WORD r) w
      let d := if pmbWarn w then d.cause ELP_EV_CAUSE_PMB_WARN 12 else d
      if pmbFault w then (d.cause ELP_EV_CAUSE_PMB_FAULT 12).fatalRec 13 r 0 w 12 0x1F else d

/-- STATUS_POLL of a regulator, every 10 ms. -/
def execStatusPoll (r : Fin 8) (w : Option (BitVec 16)) (s : State) : Host.Outcome State Fault Refusal :=
  s.run (fun d => d.pmbStatus r.val (w.map (·.toNat)))

/-- PMB_ALERT: PMB_ALERT_N asserts, and every present regulator's STATUS_WORD is read. -/
def execPmbAlert (ws : List (Option (BitVec 16))) (s : State) : Host.Outcome State Fault Refusal :=
  s.run (fun d => (ws.take 8).zipIdx.foldl (fun (d : Device) p => d.pmbStatus p.2 (p.1.map (·.toNat))) d)

/-! ### Power domains (R495 to R502) -/

/-- A domain's bit in ELP_DOM_HOLD. -/
def Device.domHold (d : Device) (m : Nat) : Bool :=
  if m < 32 then bit (d.get ELP_DOM_HOLD_LO_HOLD) m else bit (d.get ELP_DOM_HOLD_HI_HOLD) (m - 32)

/-- Whether work runs, is queued or is pre-empted on a domain's units (R497). -/
def Device.domBusy (d : Device) (m : Nat) : Bool :=
  let q := fun t e => !(d.engine (engKey t e)).queue.isEmpty
  if m < 20 then !(d.itemsOn m none).isEmpty || (List.range 8).any (fun k => !(d.core m k).waiting)
  else if m < 40 then false
  else if m < 48 then
    (List.range 4).any (fun i => q 1 (4 * (m - 40) + i)) ||
      (m % 2 == 0 && (q 3 ((m - 40) / 2) || !(tabGet (fun _ => []) d.occs ((m - 40) / 2)).isEmpty))
  else if m < 52 then q 2 (m - 48) || d.loops.any (fun l => l.me == m - 48)
  else if m < 56 then q 4 (m - 52) || q 5 (m - 52)
  else true

/-- Whether a packet is inside a domain's boundary, or a request of its own is outstanding (R497). -/
def Device.domPackets (d : Device) (m : Nat) : Bool :=
  d.lwk.flights.any (fun f => nodeDomain f.pkt.dest.toNat == some m) ||
    d.lwk.outst.any (fun w => nodeDomain w.pkt.src.toNat == some m)

/-- Whether an enabled wake selector of a domain has its event's flag set; FAST ones too when all counts. -/
def Device.wakeFlag (d : Device) (m : Nat) (all : Bool) : Bool :=
  (List.range 4).any (fun s => d.on (ELP_WAKE_EN m s) && (all || !d.on (ELP_WAKE_FAST m s)) &&
    d.on (pendFld (d.get (ELP_WAKE_EV m s))))

/-- A wake input of a domain is asserted or latched (R499). -/
def Device.domWake (d : Device) (m : Nat) : Bool :=
  d.lwk.held.any (fun p => p.2.domain == some m) || d.domHold m || d.wakeFlag m false || d.power.edge.contains m ||
    (m < 20 && (List.range 8).any (fun k => d.get (CX_INT_PEND_PEND m k) % 2 == 1))

/-- A domain is idle and may begin entry (R497). -/
def Device.domIdle (d : Device) (m : Nat) : Bool :=
  !d.domBusy m && !d.domPackets m && !d.domHold m && !d.wakeFlag m true && !d.domWake m

/-- Entry to Doze or Retain, with every step of R498. -/
def Device.domEnter (d : Device) (m st : Nat) : Device :=
  let d := if m < 20 then (List.range 8).foldl (fun (d : Device) k => d.syncCycles m k) d else d
  (d.put (ELP_DOM_STATE_STATE m) st).count (ELP_DOM_CNT_ENTRIES m) 1

/-- DOZE_ENTRY after DOZE_IDLE of idleness. -/
def execDozeEntry (m : Fin 64) (s : State) : Host.Outcome State Fault Refusal :=
  s.run (fun d =>
    if d.domSt m.val = pRun && (d.get (ELP_DOM_STATE_POLICY m.val) = 1 || d.get (ELP_DOM_STATE_POLICY m.val) = 2)
        && d.domIdle m.val then d.domEnter m.val pDoze
    else d)

/-- RETAIN_ENTRY after RETAIN_IDLE in Doze. -/
def execRetainEntry (m : Fin 64) (s : State) : Host.Outcome State Fault Refusal :=
  s.run (fun d =>
    if d.domSt m.val = pDoze && d.get (ELP_DOM_STATE_POLICY m.val) = 2 && d.domIdle m.val then
      d.domEnter m.val pRetain
    else d)

/-- The packets of a domain's hold buffer go on to it in arrival order, and none passes its port before the last of them
has been delivered; requests of DMA channels go on with their engines (R113). -/
def Device.deliverHeld (d : Device) (m : Nat) : Device :=
  let mine := d.lwk.held.filter (fun p => p.2.domain == some m)
  let out := (mine.filter (fun p => p.2.channel.isNone)).map (fun p => (⟨p.1, [], 0, false, false, none, some m⟩ : Flight))
  { d with lwk := { d.lwk with
    held := d.lwk.held.filter (fun p => p.2.domain != some m), flights := d.lwk.flights ++ out } }

/-- The domain of a register that a radio quad or lane, an engine or a cluster holds (R27, R147). -/
def regDomain (off : Nat) : Option Nat :=
  if 0x800100 ≤ off && off < 0x800200 then some (56 + (off - 0x800100) / 0x20)
  else if 0x810000 ≤ off && off < 0x811000 then some (56 + (off - 0x810000) / 0x200)
  else if 0x2000000 ≤ off && off < 0x2A00000 then some ((off - 0x2000000) / 0x80000)
  else
    let rows := if 0x3800000 ≤ off && off < 0x3A00000 then rowsFFE else if 0x3A00000 ≤ off && off < 0x3C00000 then rowsMXE
      else if 0x3C00000 ≤ off && off < 0x3E00000 then rowsFEC else if 0x3E00000 ≤ off then rowsPRE else []
    match rows.find? (fun r => r.holds off) with
    | none => none
    | some r =>
      match r.dims with
      | (c, st) :: _ =>
        let i := (off - r.base) / st
        if off < 0x3A00000 then (if c = 32 then some (40 + i / 4) else none)
        else if off < 0x3C00000 then some (48 + i)
        else if off < 0x3E00000 then some (52 + (if c = 24 then engGroup i else i))
        else some (40 + 2 * i)
      | [] => none

/-- What a domain loses in Off: its registers and its memory (R495); lanes are out of use (R168). -/
def Device.domLose (d : Device) (m : Nat) : Device :=
  let d := if m < 56 then d else (List.range 8).foldl (fun (d : Device) i => d.laneOff (8 * (m - 56) + i)) d
  let d := { d with regs := d.regs.filter (fun p => regDomain p.1 != some m) }
  if m < 20 then
    let d := d.clearCluster m
    { d with cores := d.cores.filter (fun p => p.1 / 8 ≠ m) }
  else if m < 40 then
    let d := d.groupReset (m - 20)
    let lo := 0x4000000000 + (m - 20) * 0x800000
    { d with mem := d.mem.filter (fun p => !(decide (lo ≤ p.1) && decide (p.1 < lo + 0x800000))) }
  else if m < 48 then
    let es := (List.range 4).map (fun i => engKey 1 (4 * (m - 40) + i)) ++ (if m % 2 = 0 then [engKey 3 ((m - 40) / 2)] else [])
    { d with
      engines := d.engines.filter (fun p => !es.contains p.1)
      occs := if m % 2 = 0 then tabSet (fun _ => []) d.occs ((m - 40) / 2) [] else d.occs }
  else if m < 52 then
    { d with
      engines := d.engines.filter (fun p => p.1 ≠ engKey 2 (m - 48)), loops := d.loops.filter (fun l => l.me ≠ m - 48) }
  else if m < 56 then
    { d with
      engines := d.engines.filter (fun p => p.1 ≠ engKey 4 (m - 52) && p.1 ≠ engKey 5 (m - 52))
      fec := tabSet (fun _ => fecGroup0) d.fec (m - 52) fecGroup0 }
  else d

/-- A domain placed in Off. -/
def Device.domOff (d : Device) (m : Nat) : Device :=
  if d.domSt m = pFailed || d.domSt m = pOff then d else (d.domLose m).put (ELP_DOM_STATE_STATE m) pOff

/-- A domain brought to Run (R501): a bank group from Off with its headers reset (R140), isolation released, held packets delivered; a FAILED one stays (R495). -/
def Device.domRun (d : Device) (m : Nat) : Device :=
  if d.domSt m = pFailed || d.domSt m = pRun then d
  else
    let d := { d with power := { d.power with edge := d.power.edge.filter (· ≠ m) } }
    let d := if d.domSt m = pOff && 20 ≤ m && m < 40 then d.groupReset (m - 20) else d
    (d.put (ELP_DOM_STATE_STATE m) pRun).deliverHeld m

/-- DOMAIN_RETURN of a domain in Doze or Retain that a wake input calls. -/
def execDomainReturn (m : Fin 64) (s : State) : Host.Outcome State Fault Refusal :=
  s.run (fun d =>
    if (d.domSt m.val = pDoze || d.domSt m.val = pRetain) && d.domWake m.val then (d.domRun m.val).schedule else d)

/-- The fences of a FAILED domain's units (R502). -/
def Device.domFence (d : Device) (m : Nat) : Device :=
  if m < 20 then d.spareCluster m
  else if m < 40 then (List.range 4).foldl (fun (d : Device) i => d.dueBank (4 * (m - 20) + i)) d
  else if m < 48 then
    let d := (List.range 4).foldl (fun (d : Device) i => d.fenceEngine 2 (4 * (m - 40) + i)) d
    if m % 2 = 0 then d.fenceEngine 4 ((m - 40) / 2) else d
  else if m < 52 then d.fenceEngine 3 (m - 48)
  else if m < 56 then ((List.range 24).filter (fun e => engGroup e == m - 52)).foldl (fun (d : Device) e => d.fenceEngine 5 e) d
  else d

/-- Whether a domain that is Off is on its way to Run: an accepted whole-device pricking marks it INIT 1, a bank of its
quadrant is about to be retired and needs its headroom, or its cluster is the one a swap or rotation prepares (R501). -/
def Device.mayBring (d : Device) (m : Nat) : Bool :=
  let priced := match d.pkl.cmd, d.pkl.staged with
    | .reprick true _, some st => (st.sections.find? (fun s => s.ty == 0x60)).any (fun s => bit (wordAt s.payload (1 + m)) 0)
    | _, _ => false
  priced || (decide (m < 20) && (List.range 4).any (fun q => d.get (FLT_FALLOW_PHYS q) == m)) ||
    (decide (20 ≤ m) && decide (m < 40) && d.heath.due.any (fun b =>
      b / 20 == (m - 20) / 5 && d.get (HTH_BANK_STATE_STATE b) == 0))

/-- WAKE_FAIL of a domain on its way to Run: FAILED, its record, and the fence of its units (R502). -/
def execWakeFail (m : Fin 64) (s : State) : Host.Outcome State Fault Refusal :=
  s.run (fun d =>
    let st := d.domSt m.val
    if ((st = pDoze || st = pRetain) && d.domWake m.val) || (st = pOff && d.mayBring m.val) then
      let d := (d.put (ELP_DOM_STATE_STATE m.val) pFailed).cause ELP_EV_CAUSE_WAKE_FAIL 13
      (d.fault (Sys2Proof.Machine.report 6 aSpare 12 m.val 0 noReq 0 13)).domFence m.val
    else d)

/-- DOM_HOLD_WRITE: ELP_DOM_HOLD_LO, or _HI (R499). -/
def execDomHoldWrite (_r : Req) (hi : Bool) (v : Word) (s : State) : Host.Outcome State Fault Refusal :=
  s.run (fun d => d.setWord (if hi then ELP_DOM_HOLD_HI else ELP_DOM_HOLD_LO) v)

end Sys2Proof.Machine
end

