-- ==== Sys2Proof/Machine/Twin.lean ====
section
/-! DEFINITION. The twin: pairing, cells received, mirroring and its epochs, heartbeats, takeover and
the message windows (R526 to R535, R537). -/

namespace Sys2Proof.Machine
open R

/-- The role of the device. -/
def Device.role (d : Device) : Nat := d.get TWN_STATUS_ROLE

/-! ### Roles (R530, R534) -/

/-- Everything staged is discarded. -/
def Device.dropStage (d : Device) : Device := { d with twin := { d.twin with stage := [], commits := [], bad := false } }

/-- A STANDBY device begins to take over (R534). -/
def Device.beginTakeover (d : Device) : Device :=
  if d.role = roleStandby then (d.put TWN_STATUS_ROLE roleTaking).cause TWN_EV_CAUSE_TAKING_OVER 130 else d

/-- EN as written: STANDBY when it rises, DISABLED and TWIN_HB_OUT stopped when it falls (R530, R537). -/
def Device.setPairing (d : Device) (en : Bool) : Device :=
  let was := d.on TWN_CTRL_EN
  let d := d.put TWN_CTRL_EN (b2n en)
  if en && !was then
    ({ d with twin := { d.twin with full := true } }).put TWN_STATUS_ROLE roleStandby
  else if !en && was then
    ({ d.dropStage with twin := { d.dropStage.twin with hbOut := false, sending := false, lines := [] } }).put TWN_STATUS_ROLE 0
  else d

/-- Twin lanes train when LINK_EN rises and stop when it falls (R537). -/
def Device.setLinkEn (d : Device) (en : Bool) : Device :=
  let was := d.on TWN_CTRL_LINK_EN
  let d := d.put TWN_CTRL_LINK_EN (b2n en)
  let lanes := (List.range 8).map (64 + ·)
  if en && !was && !d.power.trip && !d.hwd.ready then lanes.foldl (fun (d : Device) n => d.laneTrain n lTraining false) d
  else if !en && was then lanes.foldl (fun (d : Device) n => d.laneOff n) d
  else d

/-- A write of TWN_CTRL (R537). -/
def Device.writeTwnCtrl (d : Device) (v : Nat) : Device :=
  let d := (d.put TWN_CTRL_LEVEL (v / 2)).put TWN_CTRL_SIDE (v / 8)
  let d := (d.put TWN_CTRL_HB_TIMEOUT_US (v / 256)).put TWN_CTRL_SB_PCP (v / 65536)
  let d := (d.setPairing (bit v 0)).setLinkEn (bit v 5)
  if bit v 4 then d.beginTakeover else d

def execTwinEnable (_r : Req) (v : Word) (s : State) : Host.Outcome State Fault Refusal :=
  s.run (fun d => d.writeTwnCtrl v.toNat)

/-- TAKEOVER: a write of TWN_CTRL with TAKEOVER set and every other field as it is (R534). -/
def execTakeover (_r : Req) (s : State) : Host.Outcome State Fault Refusal := s.run (fun d => d.beginTakeover)

/-- TAKEOVER_EDGE: at the next base tick edge the device becomes ACTIVE (R534). -/
def Device.becomeActive (d : Device) : Device :=
  if d.role ≠ roleTaking then d
  else
    let d := (d.dropStage.put TWN_STATUS_ROLE roleActive).put TWN_ACTIVE_SINCE_LO_TICK d.time.tick
    let d := d.put TWN_ACTIVE_SINCE_HI_TICK (d.time.tick / 2 ^ 32)
    ({ d with twin := { d.twin with full := true } }).cause TWN_EV_CAUSE_ACTIVE 131

def execTakeoverEdge (s : State) : Host.Outcome State Fault Refusal := s.run (fun d => d.becomeActive)

/-- TICK at which the device became ACTIVE. -/
def Device.activeSince (d : Device) : Nat := d.addr48 TWN_ACTIVE_SINCE_LO_TICK TWN_ACTIVE_SINCE_HI_TICK

/-- Whether the last heartbeat calls for stepping down: both ACTIVE and this one later, or equal with SIDE 1;
or a FATAL record or a removal waits for the partner to be ACTIVE (R534, R535, R562). -/
def Device.mustStepDown (d : Device) : Bool :=
  d.role == roleActive && d.get TWN_STATUS_PEER_ROLE == roleActive &&
    (d.twin.fatal || d.hwd.removal == 2 || decide (d.twin.peerSince < d.activeSince) ||
      (d.twin.peerSince == d.activeSince && d.on TWN_CTRL_SIDE))

/-- STEP_DOWN at the next edge: STANDBY, to be resynchronised (R529, R535). -/
def Device.stepDown (d : Device) : Device :=
  if !d.mustStepDown then d
  else
    let d := (d.dropStage.put TWN_STATUS_ROLE roleStandby).put TWN_STATUS_SYNC 0
    ({ d with twin := { d.twin with sending := false, lines := [] } }).cause TWN_EV_CAUSE_STEP_DOWN 131

def execStepDown (s : State) : Host.Outcome State Fault Refusal := s.run (fun d => d.stepDown)

/-! ### Heartbeats (R526, R533) -/

/-- TWIN_HEARTBEAT_TX on a group, every 32 basic frames (R526). -/
def execTwinHeartbeatTx (g : Fin 2) (s : State) : Host.Outcome State Fault Refusal :=
  s.run (fun d =>
    if !d.on TWN_CTRL_EN then d
    else d.sendCell g.val 1 false 0 (leBytes 8 d.time.tick ++ leBytes 1 d.role ++ leBytes 1 d.twin.level ++ leBytes 2 0 ++
      leBytes 8 d.activeSince ++ leBytes 8 d.twin.applied))

/-- TWIN_HB_OUT_TOGGLE, every 1 µs (R533). -/
def execTwinHbOutToggle (s : State) : Host.Outcome State Fault Refusal :=
  s.run (fun d =>
    if (d.role = roleStandby || d.role = roleActive) && !d.power.trip && !d.twin.fatal then
      { d with twin := { d.twin with hbOut := !d.twin.hbOut } }
    else d)

/-- TWIN_HB_IN_EDGE (R533). -/
def execTwinHbInEdge (s : State) : Host.Outcome State Fault Refusal :=
  s.run (fun d => ({ d with twin := { d.twin with pinSilent := false } }).put TWN_STATUS_PIN_OK 1)

/-- One path falls silent for HB_TIMEOUT_US: the cells, or the pin. -/
def Device.silence (d : Device) (pin : Bool) : Device :=
  if pin then ({ d with twin := { d.twin with pinSilent := true } }).put TWN_STATUS_PIN_OK 0
  else ({ d with twin := { d.twin with cellSilent := true } }).put TWN_STATUS_HB_OK 0

/-- SILENT_PATH_TIMEOUT: one path alone raises LINK_DOWN or PIN_LOST and changes no role (R533). -/
def execSilentPathTimeout (pin : Bool) (s : State) : Host.Outcome State Fault Refusal :=
  s.run (fun d =>
    if !d.on TWN_CTRL_EN || (if pin then d.twin.cellSilent else d.twin.pinSilent) then d
    else if pin then (d.silence true).cause TWN_EV_CAUSE_PIN_LOST 129
    else (d.silence false).cause TWN_EV_CAUSE_LINK_DOWN 128)

/-- HEARTBEAT_LOSS: neither cells nor pin edges; a STANDBY device begins to take over (R533, R534). -/
def execHeartbeatLoss (s : State) : Host.Outcome State Fault Refusal :=
  s.run (fun d =>
    if !d.on TWN_CTRL_EN then d
    else (((d.silence true).silence false).cause TWN_EV_CAUSE_HB_LOST 129).beginTakeover)

/-! ### Cells received (R526 to R529) -/

/-- What a HEARTBEAT says of the partner. An ACTIVE device sees in its last COMMIT applied whether the
partner is in step: a gap calls for a full pass (R529). -/
def Device.heartbeat (d : Device) (data : List Byte) : Device :=
  let since := leNat ((data.drop 12).take 8)
  let commit := leNat ((data.drop 20).take 8)
  let d := { d with twin := { d.twin with cellSilent := false, peerSince := since, peerCommit := commit } }
  let d := (d.put TWN_STATUS_PEER_ROLE ((data.drop 8).headD 0).toNat).put TWN_STATUS_HB_OK 1
  if d.role ≠ roleActive then d
  else if commit < d.twin.prevCommit && d.twin.fullAt < d.twin.prevCommit then
    ({ d with twin := { d.twin with full := true } }).put TWN_STATUS_SYNC 0
  else if d.twin.fullAt ≤ commit && commit ≠ 0 && !d.on TWN_STATUS_SYNC then
    (d.put TWN_STATUS_SYNC 1).cause TWN_EV_CAUSE_SYNC_OK 132
  else d

/-- Staging in bytes: MIB, at least 8 (R537). -/
def Device.stageSize (d : Device) : Nat := 2 ^ 20 * max 8 (d.get TWN_STAGE_SIZE_MIB)

def Device.staged (d : Device) (g : Nat) : List (Nat × List Byte) := tabGet (fun _ => []) d.twin.stage g

/-- A MIRROR or SOFTBUF cell of a group is staged; what does not fit spoils the epoch (R529). -/
def Device.stageLine (d : Device) (g addr : Nat) (soft : Bool) (data : List Byte) : Device :=
  if d.stageSize < 72 * ((d.staged 0).length + (d.staged 1).length + 1) then
    { d with twin := { d.twin with bad := true } }
  else { d with twin := { d.twin with
    stage := tabSet (fun _ => []) d.twin.stage g (d.staged g ++ [(addr + b2n soft, data)]) } }

/-- A soft-buffer header line, with GEN the standby's own and HCRC recomputed (R293, R529). -/
def Device.softLine (d : Device) (bs : List Byte) : List Byte :=
  if bits (wordAt bs 0) 15 0 = 0x5342 && wordAt bs 7 = crc32c (bs.take 28 ++ bs.drop 32) then
    let a := bs.take 2 ++ leBytes 1 (d.get FEC_SB_GEN_GEN) ++ (bs.take 28).drop 3
    let v := bs.drop 32
    a ++ leBytes 4 (crc32c (a ++ v)) ++ v
  else bs

/-- One staged line into memory at its own address. -/
def Device.applyLine (d : Device) (p : Nat × List Byte) : Device :=
  if p.1 % 2 = 1 then d.send (p.1 - 1) (d.softLine p.2) else d.send p.1 p.2

/-- Lines after the first n of each group stay for the next epoch. -/
def Device.cutStage (d : Device) (n0 n1 : Nat) : Device :=
  { d with twin := { d.twin with
    stage := tabSet (fun _ => []) (tabSet (fun _ => []) d.twin.stage 0 ((d.staged 0).drop n0)) 1 ((d.staged 1).drop n1)
    commits := [], bad := false } }

/-- An epoch that cannot be applied is discarded (R529). -/
def Device.discardEpoch (d : Device) (n0 n1 : Nat) : Device :=
  let ovf := d.twin.bad
  let d := ((d.cutStage n0 n1).count TWN_CNT_RESYNC_COUNT 1).put TWN_STATUS_SYNC 0
  d.cause (if ovf then TWN_EV_CAUSE_STAGE_OVF else TWN_EV_CAUSE_RESYNC) 132

/-- A COMMIT on a group: the epoch is applied when both groups carry it with matching counts (R529). -/
def Device.commitRx (d : Device) (g : Nat) (data : List Byte) : Device :=
  let tick := leNat (data.take 8)
  let n := (d.staged g).length
  let mirrors := ((d.staged g).filter (fun p => p.1 % 2 == 0)).length
  let ok := mirrors == leNat ((data.drop 8).take 4)
  let other := tabGet (fun _ => none) d.twin.commits (1 - g)
  let mine := tabGet (fun _ => none) d.twin.commits g
  let d := match mine with
    | some m => if g = 0 then d.discardEpoch m.2.1 0 else d.discardEpoch 0 m.2.1
    | none => d
  match other with
  | none => { d with twin := { d.twin with
      commits := tabSet (fun _ => none) d.twin.commits g (some (tick, (d.staged g).length, ok && mine.isNone)) } }
  | some o =>
    let n0 := if g = 0 then n else o.2.1
    let n1 := if g = 0 then o.2.1 else n
    if o.1 = tick && o.2.2 && ok && !d.twin.bad && mine.isNone then
      let d := ((d.staged 0).take n0 ++ (d.staged 1).take n1).foldl (fun (d : Device) p => d.applyLine p) d
      let d := (d.cutStage n0 n1).put TWN_LAST_COMMIT_TICK tick
      let d := { d with twin := { d.twin with applied := tick } }
      if d.on TWN_STATUS_SYNC then d else (d.put TWN_STATUS_SYNC 1).cause TWN_EV_CAUSE_SYNC_OK 132
    else d.discardEpoch n0 n1

/-- Units a die's message queue holds in each direction: 64 KiB (R527). -/
def msgCap : Nat := 1024

/-- A MESSAGE cell's data unit enters its die's queue and raises line 256d + 240 (R527). -/
def Device.msgRx (d : Device) (g : Nat) (last : Bool) (data : List Byte) : Device :=
  let q := tabGet (fun _ => []) d.twin.msgRx g
  if msgCap ≤ q.length then d
  else
    let d := { d with twin := { d.twin with msgRx := tabSet (fun _ => []) d.twin.msgRx g (q ++ [(data, last)]) } }
    (d.dmaPulse (256 * g + 240)).cause TWN_EV_CAUSE_MSG 134

/-- A cell of 72 bytes received on a group, by type (R526). -/
def Device.cellRx (d : Device) (g : Nat) (cell : List Byte) : Device :=
  let h := leNat (cell.take 8)
  let ty := bits h 3 0
  let data := cell.drop 8
  if ty = 0 then d
  else
    let d := d.count TWN_CNT_RX_COUNT 1
    let addr := bits h 47 6 * 64
    if 7 ≤ ty then (d.count TWN_CNT_BAD_COUNT 1).cause TWN_EV_CAUSE_BAD_CELL 133
    else if !d.on TWN_CTRL_EN then d
    else match ty with
      | 1 => d.heartbeat data
      | 2 => if d.role = roleStandby then d.stageLine g addr false data else d
      | 3 => if d.role = roleStandby then d.commitRx g data else d
      | 4 => d.msgRx g (bit h 4) data
      | 5 => d.beginTakeover
      | _ => if d.role = roleStandby then d.stageLine g addr true data else d

/-- TWIN_CELL_RX: the oldest cell received (R526). -/
def execTwinCellRx (s : State) : Host.Outcome State Fault Refusal :=
  s.run (fun d => match d.twin.rx with
    | [] => d
    | c :: t => ({ d with twin := { d.twin with rx := t } }).cellRx c.1 c.2)

/-! ### Mirroring (R528) -/

/-- Every line of every enabled region. -/
def Device.regionLines (d : Device) : List Nat :=
  (List.range 16).flatMap (fun r =>
    if !d.on (TWN_MIRROR_LEN_EN r) then []
    else
      let b := d.addr48 (TWN_MIRROR_LO_ADDR r) (TWN_MIRROR_HI_ADDR r) / 64 * 64
      (List.range (d.get (TWN_MIRROR_LEN_LINES r))).map (fun i => b + 64 * i))

/-- Adds what a list lacks. -/
def unionOf (a b : List Nat) : List Nat := a ++ b.filter (fun x => !a.contains x)

/-- LEVEL as it takes effect: 3 as 2. -/
def Device.levelSet (d : Device) : Nat := min 2 (d.get TWN_CTRL_LEVEL)

/-- MIRROR_EPOCH at an epoch edge of the level in force: the marked set is taken; an epoch still being
sent takes it in, with LAG (R528). A full pass takes every line of every region (R529). -/
def Device.mirrorEpoch (d : Device) : Device :=
  if d.twin.level = 0 && !d.onCarrierTick 80 then d
  else if d.role ≠ roleActive then { d with twin := { d.twin with level := d.levelSet } }
  else
    let set := unionOf (if d.twin.full then d.regionLines else d.marks) (if d.twin.level = 2 then d.twin.soft else [])
    let lag := d.twin.sending && !d.twin.lines.isEmpty
    let d := { d with
      marks := []
      twin := { d.twin with
        lines := if lag then unionOf d.twin.lines set else set
        soft := [], sending := true, epochTick := d.time.tick
        full := false, fullAt := if d.twin.full then d.time.tick else d.twin.fullAt
        level := d.levelSet } }
    if lag then ((d.bump TWN_STATUS_LAG_TICKS 1).tally 15 1).cause TWN_EV_CAUSE_LAG 132 else d.put TWN_STATUS_LAG_TICKS 0

def execMirrorEpoch (s : State) : Host.Outcome State Fault Refusal := s.run (fun d => d.mirrorEpoch)

/-! ### Message windows (R527) -/

/-- A read of a die's window pops n units; INLINE [0] marks a message's end. -/
def Device.twinPop (d : Device) (g n : Nat) : Device × Resp :=
  let q := tabGet (fun _ => []) d.twin.msgRx g
  if q.length < n then (d, targetErr)
  else
    let us := q.take n
    let last := (us.getLast?).elim false (·.2)
    ({ d with twin := { d.twin with msgRx := tabSet (fun _ => []) d.twin.msgRx g (q.drop n) } },
      { okInl (b2n last) with data := us.flatMap (·.1) })

/-- A write of a die's window pushes its units as one message (DESIGN CHOICE, log entry 32). -/
def Device.twinPush (d : Device) (g : Nat) (data : List Byte) : Device × Resp :=
  let us := unitsOf data
  let q := tabGet (fun _ => []) d.twin.msgTx g
  if msgCap < q.length + us.length then (d, targetErr)
  else
    ({ d with twin := { d.twin with
      msgTx := tabSet (fun _ => []) d.twin.msgTx g (q ++ us.zipIdx.map (fun p => (p.1, p.2 + 1 == us.length))) } }, ok)

def execTwnMsgPop (g : Fin 2) (units : Fin 65) (src : BitVec 10) (s : State) : Host.Outcome State Fault Refusal :=
  s.answer src.toNat (fun d => d.twinPop g.val units.val)

def execTwnMsgPush (g : Fin 2) (data : List Byte) (src : BitVec 10) (s : State) : Host.Outcome State Fault Refusal :=
  s.answer src.toNat (fun d => d.twinPush g.val data)

end Sys2Proof.Machine
end

