-- ==== Sys2Proof/Machine/Checks.lean ====
section
/-! DEFINITION. The checks of a pricking stream, in the order of R606: the stream and its sections,
authentication, what a partial pricking may hold, and the structural rules (R57 to R66, R76, R86,
R87, R108, R143, R149, R188, R195, R366, R434, R447, R486, R496, R521). -/

namespace Sys2Proof.Machine
open R

/-- A failed check: the code of R86, DETAIL and SECTION of PKL_ERR. -/
structure PklErr where
  code : Nat
  detail : Nat
  sect : Nat
  deriving DecidableEq, Repr

/-- The first element whose condition holds. -/
def firstBad {α : Type} : List (Bool × α) → Option α
  | [] => none
  | (b, e) :: t => if b then some e else firstBad t

def eFetch : Nat := 1
def eMagic : Nat := 2
def eDevice : Nat := 3
def eHdrCrc : Nat := 4
def eLength : Nat := 5
def eSectCrc : Nat := 6
def eType : Nat := 7
def ePartial : Nat := 8
def eKey : Nat := 9
def eSignature : Nat := 10
def eRollback : Nat := 11
def eBase : Nat := 12
def eRule : Nat := 13
def eBusy : Nat := 14
def eNotStaged : Nat := 15
def eWrongPanel : Nat := 16
def eCarrier : Nat := 17
def eRunning : Nat := 18
def eStopped : Nat := 19
def eResource : Nat := 20
def eEnergy : Nat := 21
def eFault : Nat := 22
def eMigrating : Nat := 23

/-- The longest stream and the longest section payload (R57, R59). -/
def maxStream : Nat := 4194304
def maxPayload : Nat := 1048576

/-! ### The stream (R57 to R60) -/

/-- The number of n bytes at an offset of the stream. -/
def num (bs : List Byte) (o n : Nat) : Nat := leNat ((bs.drop o).take n)

def hKind (bs : List Byte) : Nat := num bs 6 1
def hPanel (bs : List Byte) : Nat := num bs 7 1
def hSecVer (bs : List Byte) : Nat := num bs 0x0B 1
def hId (bs : List Byte) : Nat := num bs 0x14 4
def hBase (bs : List Byte) : Nat := num bs 0x18 4

/-- MAGIC of a pricking and of a Hayward image (R58, R555). -/
def mPricking : Nat := 0x5052434B
def mImage : Nat := 0x48574657

/-- The header checks, for a MAGIC, PKL_LEN n and silicon revision rev (R58, R606). -/
def headerErr (magic n rev : Nat) (bs : List Byte) : Option PklErr :=
  firstBad [
    (num bs 0 4 != magic || num bs 4 2 != 1 || decide (1 < hKind bs) || (hKind bs == 1 && decide (19 < hPanel bs)) ||
      (hKind bs == 0 && hPanel bs != 0xFF) || num bs 0x0E 2 != 0 || num bs 0x1C 32 != 0, ⟨eMagic, 0, 0⟩),
    (num bs 8 2 != 0x6192 || decide (rev < num bs 0x0A 1), ⟨eDevice, 0, 0⟩),
    (num bs 0x3C 4 != crc32c (bs.take 0x3C), ⟨eHdrCrc, 0, 0⟩),
    (num bs 0x10 4 != n || decide (maxStream < num bs 0x10 4), ⟨eLength, 0, 0⟩)]

/-- Whether a TARGET lies in the range of its TYPE; none for a TYPE that R60 does not list. -/
def targetOk (ty t : Nat) : Bool :=
  if ty = 0x10 || ty = 0x30 || ty = 0x70 then decide (t < 20)
  else if ty = 0x20 then t % 512 == 0 && decide (bits t 14 12 < 6)
  else if ty = 0x40 || ty = 0x41 then decide (t < 16)
  else if ty = 0x50 || ty = 0x51 then decide (t < 64)
  else if ty = 0x60 || ty = 0x80 then t == 0
  else if ty = 0x90 then decide (t < 8)
  else ty == 0xFFFF && decide (t < 4)

/-- The section types of a Hayward image (R555), of which only the signature has a TARGET the spec bounds. -/
def imageTargetOk (ty t : Nat) : Bool := ty == 0x100 || ty == 0x110 || (ty == 0xFFFF && decide (t < 4))

/-- Whether a section may follow the sections before it, newest first: order, duplication, and a TYPE and
TARGET that are allowed (R60). -/
def typeBad (okT : Nat → Nat → Bool) (before : List Section) (ty t : Nat) : Bool :=
  !okT ty t || (match before with
    | [] => false
    | s :: _ => decide (ty < s.ty) || s.ty == 0xFFFF) || before.any (fun s => s.ty == ty && s.target == t)

/-- The sections of the bytes after the header, newest first, the error that stops them, and the bytes
that make no section (R59, R606). -/
def cutSections (okT : Nat → Nat → Bool) : Nat → List Section → List Byte → List Section × Option PklErr × Nat
  | 0, acc, bs => (acc, none, bs.length)
  | n + 1, acc, bs =>
    if bs.length < 16 then (acc, none, bs.length)
    else
      let ty := num bs 0 2
      let tg := num bs 2 2
      let len := num bs 4 4
      let pay := (bs.drop 16).take len
      let i := acc.length
      if len % 4 ≠ 0 || maxPayload < len || bs.length < 16 + len then (acc, some ⟨eLength, 0, i⟩, 0)
      else if num bs 12 4 ≠ crc32c (bs.take 12 ++ pay) then (acc, some ⟨eSectCrc, 0, i⟩, 0)
      else if typeBad okT acc ty tg then (acc, some ⟨eType, 0, i⟩, 0)
      else cutSections okT n (⟨ty, tg, pay⟩ :: acc) (bs.drop (16 + len))

/-- The sections of a stream whose header checks, the signature section last, or the check that fails. -/
def parseSections (okT : Nat → Nat → Bool) (bs : List Byte) : List Section × Option PklErr :=
  let r := cutSections okT (bs.length / 16 + 1) [] (bs.drop 64)
  let ss := r.1.reverse
  match r.2.1 with
  | some e => (ss, some e)
  | none =>
    (ss, firstBad [
      (r.2.2 != 0 || num bs 0x0C 2 != ss.length, ⟨eLength, 0, 0⟩),
      ((match r.1 with
        | [] => true
        | s :: t => t.isEmpty || s.ty != 0xFFFF), ⟨eType, 0, 0⟩)])

/-! ### Authentication (R62 to R64) -/

/-- Whether no key slot is programmed (R64). -/
def Device.pklOpen (d : Device) : Bool :=
  (List.range 4).all (fun k => (tabGet (fun _ => none) d.hwd.keys k).isNone)

/-- The authentication of a stream whose signature section is last. -/
def Device.authErr (d : Device) (bs : List Byte) (sig : Section) : Option PklErr :=
  let p := sig.payload
  let qx := p.take 48
  let qy := (p.drop 48).take 48
  let slot := tabGet (fun _ => none) d.hwd.keys sig.target
  let opn := d.pklOpen
  firstBad [
    (p.length != 192, ⟨eSignature, 0, 0⟩),
    (!opn && (d.hwd.revoked.contains sig.target || slot != some (sha384 (qx ++ qy))), ⟨eKey, 0, 0⟩),
    (!ecdsaOk (bs.take (bs.length - 96)) qx qy ((p.drop 96).take 48) (p.drop 144), ⟨eSignature, 0, 0⟩),
    (!opn && decide (hSecVer bs < d.hwd.minSec), ⟨eRollback, 0, 0⟩)]

/-! ### The sections a stream would put in force -/

/-- A section put in place of the one of its TYPE and TARGET. -/
def putSection (l : List Section) (s : Section) : List Section :=
  l.filter (fun o => !(o.ty == s.ty && o.target == s.target)) ++ [s]

/-- The sections in force once a stream is applied, ROUTE sections of a partial one apart (R66, R76); those of its panel
that a partial stream leaves out, CHAIN and CARRIER among them, stay in force (DESIGN CHOICE, log entry 50). -/
def Device.merged (d : Device) (kind : Nat) (ss : List Section) : List Section :=
  if kind = 0 then ss else (ss.filter (fun s => s.ty != 0x20)).foldl putSection d.pkl.active

/-- The sections a stream is checked with: a partial one against the active whole-device pricking, its own sections in place
of that one's (R66). Sections of its panel that it leaves out stay those in force (DESIGN CHOICE, log entry 50). -/
def Device.checkedWith (d : Device) (kind : Nat) (ss : List Section) : List Section :=
  if kind = 0 then ss else (ss.filter (fun s => s.ty != 0x20)).foldl putSection d.pkl.whole

def secOf (m : List Section) (ty t : Nat) : Option Section := m.find? (fun s => s.ty == ty && s.target == t)

/-- Word i of a section's payload; 0 where there is none. -/
def secWord (m : List Section) (ty t i : Nat) : Nat :=
  match secOf m ty t with
  | some s => wordAt s.payload i
  | none => 0

/-- Panels defined. -/
def panelsOf (m : List Section) : List Nat := (List.range 20).filter (fun p => (secOf m 0x10 p).isSome)

/-- The panel a CARRIER section binds its carrier to (log entry 10). -/
def carrierHome (s : Section) : Nat := Config.carrierPanel s.payload % 32

/-- Entries of a CONTAINER section. -/
def entriesOf (s : Section) : List (List Byte) := cutTable (s.payload.drop 16) 16 (bits (wordAt s.payload 0) 5 0)

/-- Member lanes of a LANE_GROUP section, the parity member last (R195). -/
def membersOf (s : Section) : List Nat :=
  (List.range (min 8 (bits (wordAt s.payload 0) 3 0))).map (fun i => (s.payload.getD (4 + i) 0).toNat) ++
    (if bit (wordAt s.payload 0) 4 then [bits (wordAt s.payload 3) 7 0] else [])

/-- The LANE_GROUP section that names a lane. -/
def groupOf (m : List Section) (n : Nat) : Option Section :=
  m.find? (fun s => s.ty == 0x41 && (membersOf s).contains n)

/-- MODE of a lane's quad, and whether the lane is in use. -/
def modeOf (m : List Section) (n : Nat) : Nat := secWord m 0x40 (n / 4) 0 % 4
def laneIn (m : List Section) (n : Nat) : Bool := modeOf m n != 0 && bit (secWord m 0x40 (n / 4) 0) (4 + n % 4)

/-! ### What a partial pricking may hold (R60, R76) -/

/-- Carriers of the containers that a quad's lanes carry, those of its lane groups among them. -/
def quadCarriers (m : List Section) (k : Nat) : List Nat :=
  (m.filter (fun s => s.ty == 0x51 &&
    (s.target / 4 == k || (match groupOf m s.target with
      | some g => (membersOf g).any (fun n => n / 4 == k)
      | none => false)))).flatMap (fun s => (entriesOf s).map cCarrier)

/-- Whether a carrier is panel p's: mapped to it, or given to it by the stream while it is mapped nowhere. -/
def Device.carrierOf (d : Device) (ss : List Section) (p c : Nat) : Bool :=
  if d.on (PKL_CARRIER_MAP_VALID c) then d.get (PKL_CARRIER_MAP_PANEL c) == p
  else match secOf ss 0x50 c with
    | some s => carrierHome s == p
    | none => false

/-- Whether every container of a quad, before and after, belongs to a carrier of panel p. -/
def Device.quadOf (d : Device) (ss m : List Section) (p k : Nat) : Bool :=
  (quadCarriers d.pkl.active k).all (fun c => d.carrierOf ss p c) && (quadCarriers m k).all (fun c => d.carrierOf ss p c)

/-- Whether an endpoint belongs to a panel whose PANEL words are w (R76); a node without one does not count. -/
def Device.endpointIn (d : Device) (w : Nat → Nat) (node : Nat) : Bool :=
  let x := bits node 8 6
  let r := bits node 5 3 % 4
  let q := nodeQuad node
  let p := bits node 2 0
  let bank := fun b => bit (w (3 + b / 32)) (b % 32)
  let clu := fun c => if p = 0 then (match d.lcOf c with
      | some l => bit (w 0) l
      | none => false) else bank (4 * c + (p - 1))
  match x with
  | 1 =>
    if p < 2 then bit (w 1) (8 * q + 2 * r + p)
    else if r = 0 then bit (w 2) (4 + q)
    else w (6 + (2 * q + r - 1)) % 2 ^ 32 == 2 ^ 32 - 1
  | 2 => clu (5 * q + r)
  | 3 =>
    if r = 0 then clu (5 * q + 4)
    else if r = 1 then bit (w 2) q
    else if p < 3 then bit (w 2) (8 + 3 * q + p)
    else if p = 3 then bit (w 2) (20 + q)
    else if p = 4 then bit (w 2) (24 + q)
    else q % 2 == 1 || bit (w 2) (28 + 2 * (p - 5) + q / 2)
  | _ => false

/-- Whether a ROUTE section may stand in panel p's partial pricking. -/
def Device.routeOk (d : Device) (m : List Section) (p : Nat) (s : Section) : Bool :=
  let base := nodeNum (bits s.target 15 15) (bits s.target 14 12) (bits s.target 11 9) 0
  let ends := (List.range 8).filter (fun i => hasEndpoint (base + i))
  !ends.isEmpty && ends.all (fun i => d.endpointIn (secWord m 0x10 p) (base + i)) &&
    (List.range (s.payload.length / 4)).all (fun j =>
      let i := wordAt s.payload j % 128
      decide (i < 48) || (decide (64 ≤ i) && decide (i < 84) && bit (secWord m 0x10 p 0) (i - 64)))

/-- Whether a section may stand in panel p's partial pricking. -/
def Device.partialOk (d : Device) (ss m : List Section) (p : Nat) (s : Section) : Bool :=
  if s.ty = 0x10 || s.ty = 0x30 || s.ty = 0x70 then s.target == p
  else if s.ty = 0x20 then d.routeOk m p s
  else if s.ty = 0x40 then d.quadOf ss m p s.target
  else if s.ty = 0x41 then (membersOf s).all (fun n => d.quadOf ss m p (n / 4))
  else if s.ty = 0x50 then d.carrierOf ss p s.target && carrierHome s == p
  else if s.ty = 0x51 then d.quadOf ss m p (s.target / 4)
  else false

/-- The first section that may not stand in a partial pricking; a missing PANEL section is no section's. -/
def Device.partialErr (d : Device) (ss m : List Section) (p : Nat) : Option PklErr :=
  match ss.findIdx? (fun s => !d.partialOk ss m p s) with
  | some i => some ⟨ePartial, 0, i⟩
  | none => if (secOf ss 0x10 p).isSome then none else some ⟨ePartial, 0, 0⟩

/-! ### Checks of a section's own (detail 8) -/

/-- Two ranges of bytes overlap. -/
def rangesMeet (a n b k : Nat) : Bool := decide (a < b + k) && decide (b < a + n)

/-- Whether something holds between two entries of a list at different places. -/
def anyPair {α : Type} (f : α → α → Bool) : List α → Bool
  | [] => false
  | a :: t => t.any (f a) || anyPair f t

def quadBad (s : Section) : Bool :=
  let w := wordAt s.payload 0
  s.payload.length != 12 || (bit w 3 && w % 4 != 3) || (w % 4 == 0 && bits w 7 4 != 0)

def groupBad (m : List Section) (s : Section) : Bool :=
  let n := bits (wordAt s.payload 0) 3 0
  let ls := membersOf s
  let md := modeOf m (ls.headD 0)
  s.payload.length != 16 || decide (n < 2) || decide (8 < n) || anyPair (· == ·) ls || ls.any (64 ≤ ·) ||
    m.any (fun o => o.ty == 0x41 && o.target != s.target && (membersOf o).any (ls.contains ·)) ||
    ls.any (fun l => l / 32 != ls.headD 0 / 32) || !(md == 1 || md == 2) ||
    ls.any (fun l => modeOf m l != md || !laneIn m l)

/-- One Filet entry against the room of its lane or group (R188). -/
def filetBad (room : Nat) (e : List Byte) : Bool :=
  let k := (cS e + 1499) / 1500
  decide (room < cOfs e + cLen e) || decide (cLen e < (if cLocked e then k else k + 1) * cUnit e) ||
    decide (65536 * 2 ^ cScale e < cS e) || (cScale e != 0 && !cLocked e) || (!cFreq e && decide (1 < cFmt e))

/-- One ETH_25 entry. -/
def ethBad (e : List Byte) : Bool :=
  !cFreq e || cFmt e == 1 || cS e != 0 || cScale e != 0 || cOfs e != 0 || cLen e != 0

def containerBad (m : List Section) (s : Section) : Bool :=
  let n := s.target
  let es := entriesOf s
  let g := groupOf m n
  let ls := match g with
    | some g => membersOf g
    | none => [n]
  let data := match g with
    | some g => bits (wordAt g.payload 0) 3 0
    | none => 1
  let room := 8 * ((if modeOf m n = 2 then 50 else 128) - 2) * data
  let cnt := bits (wordAt s.payload 0) 5 0
  let all := (m.filter (fun o => o.ty == 0x51)).flatMap entriesOf
  decide (cnt = 0) || decide (32 < cnt) || s.payload.length != 16 + 16 * cnt ||
    anyPair (fun a b => cCid a == cCid b) es || es.any (fun e => decide (4 < cFmt e)) ||
    ls.any (fun l => !laneIn m l) || ls.headD n != n ||
    (if modeOf m n = 3 then es.any ethBad
     else es.any (filetBad room) || anyPair (fun a b => rangesMeet (cOfs a) (cLen a) (cOfs b) (cLen b)) es) ||
    es.any (fun e => cDreq e / 256 != n / 32 || 224 ≤ cDreq e % 256 ||
      decide (1 < (all.filter (fun o => cDreq o == cDreq e)).length))

/-- SHED (R486). -/
def shedBad (s : Section) : Bool :=
  let ws := (List.range 8).map (wordAt s.payload)
  let used := ws.takeWhile (fun w => w % 16 != 0)
  s.payload.length != 32 || used.any (fun w => decide (5 < w % 16)) ||
    (ws.drop used.length).any (· != 0) ||
    anyPair (fun a b => a % 16 == b % 16 && (bits a 23 4 == 0 || bits b 23 4 == 0 || (bits a 23 4).land (bits b 23 4) != 0)) used

/-- Whether a panel whose words are w has a unit in a power domain, clusters under the current map. -/
def Device.usesDomain (d : Device) (w : Nat → Nat) (m : Nat) : Bool :=
  if m < 20 then (List.range 20).any (fun l => bit (w 0) l && d.physOf l == some m)
  else if m < 40 then (List.range 4).any (fun i => let b := 4 * (m - 20) + i
    bit (w (3 + b / 32)) (b % 32))
  else if m < 48 then
    bits (w 1) (4 * (m - 40) + 3) (4 * (m - 40)) != 0 || (m % 2 == 0 && bit (w 2) (4 + (m - 40) / 2))
  else if m < 52 then bit (w 2) (m - 48)
  else if m < 56 then
    let q := m - 52
    bits (w 2) (8 + 3 * q + 2) (8 + 3 * q) != 0 || bit (w 2) (20 + q) || bit (w 2) (24 + q) ||
      (q % 2 == 0 && (bit (w 2) (28 + q / 2) || bit (w 2) (30 + q / 2)))
  else false

/-- The bring-up order of a CLOCK_POWER section. -/
def orderOf (s : Section) : List Nat :=
  (List.range (wordAt s.payload 65 % 128)).map (fun i => (s.payload.getD (264 + i) 0).toNat)

/-- CLOCK_POWER (R151, R496). -/
def Device.powerBad (d : Device) (m : List Section) (s : Section) : Bool :=
  let w := wordAt s.payload
  let ord := orderOf s
  s.payload.length != 264 + (w 65 % 128 + 3) / 4 * 4 ||
    (List.range 64).any (fun i =>
      let init := bit (w (1 + i)) 0
      let pol := bits (w (1 + i)) 5 4
      pol == 3 || (decide (56 ≤ i) && pol != 0) ||
        (!init && (panelsOf m).any (fun p => d.usesDomain (secWord m 0x10 p) i)) ||
        (decide (56 ≤ i) && init != ((secWord m 0x40 (2 * (i - 56)) 0 % 4 != 0) || (secWord m 0x40 (2 * (i - 56) + 1) 0 % 4 != 0)))) ||
    anyPair (· == ·) ord || ord.any (fun i => decide (64 ≤ i) || !bit (w (1 + i)) 0)

/-- Whether a configuration section's payload fails its checks. -/
def Device.sectionBad (d : Device) (m : List Section) (s : Section) : Bool :=
  let len := s.payload.length
  if s.ty = 0x10 then len != 60
  else if s.ty = 0x40 then quadBad s
  else if s.ty = 0x41 then groupBad m s
  else if s.ty = 0x51 then containerBad m s
  else if s.ty = 0x60 then d.powerBad m s
  else if s.ty = 0x70 then len != 32 || decide (4 < wordAt s.payload 7 % 8)
  else if s.ty = 0x80 then shedBad s
  else if s.ty = 0x90 then len != 4
  else false

/-! ### The structural rules (R20, R143, R521) -/

/-- Bits that two panels both name in a word, under a mask. -/
def shared (m : List Section) (i mask : Nat) : Bool :=
  anyPair (fun a b => ((secWord m 0x10 a i).land (secWord m 0x10 b i)).land mask != 0) (panelsOf m)

/-- Whether a panel names a bank. -/
def hasBank (m : List Section) (p b : Nat) : Bool := bit (secWord m 0x10 p (3 + b / 32)) (b % 32)

/-- Whether a panel carries a carrier, as CARRIER sections bind them. -/
def boundTo (m : List Section) (p : Nat) : Bool := m.any (fun s => s.ty == 0x50 && carrierHome s == p)

/-- The place of a section in a stream, 0 when it is not there. -/
def placeOf (ss : List Section) (ty t : Nat) : Nat := (ss.findIdx? (fun s => s.ty == ty && s.target == t)).getD 0

/-- The rule checks of a stream's sections ss, m being the sections it would put in force. -/
def Device.ruleErr (d : Device) (ss m : List Section) : Option PklErr :=
  let ps := panelsOf m
  let all := 2 ^ 32 - 1
  match ss.findIdx? (fun s => d.sectionBad m s) with
  | some i => some ⟨eRule, 8, i⟩
  | none =>
    let empty := ps.find? (fun p => secWord m 0x10 p 0 % 2 ^ 20 == 0)
    let mine := ps.filter (fun p => (secOf ss 0x10 p).isSome)
    let gone := mine.find? (fun p => (List.range 80).any (fun b => hasBank m p b && d.retired b))
    let lost := m.find? (fun s => s.ty == 0x50 && !ps.contains (carrierHome s))
    let fal := ps.find? (fun p => (List.range 4).any (fun q => bit (secWord m 0x10 p 0) (5 * q + 4)) &&
      (!bit (secWord m 0x10 p 14) 0 || boundTo m p))
    let bare := mine.find? (fun p => (List.range 20).any (fun l => bit (secWord m 0x10 p 0) l && (d.physOf l).isNone))
    firstBad [
      (empty.isSome, ⟨eRule, 1, placeOf ss 0x10 (empty.getD 0)⟩),
      (shared m 0 (2 ^ 20 - 1) || shared m 1 all || shared m 2 all ||
        (List.range 8).any (fun i => shared m (6 + i) all), ⟨eRule, 2, 0⟩),
      (gone.isSome, ⟨eRule, 4, placeOf ss 0x10 (gone.getD 0)⟩),
      (shared m 3 all || shared m 4 all || shared m 5 (2 ^ 16 - 1) || (List.range 4).any (fun q =>
        (List.range 20).all (fun i => d.retired (20 * q + i) || ps.any (fun p => hasBank m p (20 * q + i)))), ⟨eRule, 4, 0⟩),
      (lost.isSome, ⟨eRule, 5, (lost.map (fun s => placeOf ss 0x50 s.target)).getD 0⟩),
      (fal.isSome, ⟨eRule, 6, placeOf ss 0x10 (fal.getD 0)⟩),
      (bare.isSome, ⟨eRule, 9, placeOf ss 0x10 (bare.getD 0)⟩)]

/-! ### The whole check (R606) -/

/-- The configuration sections of a stream: all but the signature, which is last. -/
def configOf (ss : List Section) : List Section := ss.filter (fun s => s.ty != 0xFFFF)

/-- The check of a fetched stream against PKL_LEN n: the checked stream, or the first check that fails. -/
def Device.checkStream (d : Device) (n : Nat) (bs : List Byte) : Stream × Option PklErr :=
  let p := parseSections targetOk bs
  let ss := configOf p.1
  let st : Stream := ⟨hKind bs, hPanel bs, hId bs, ss⟩
  let m := d.checkedWith st.kind ss
  let none8 : Option PklErr := none
  let e := (headerErr mPricking n (d.get HWD_ID_REV) bs).or (p.2.or ((match p.1.getLast? with
    | some s => d.authErr bs s
    | none => none8).or ((if st.kind = 1 then
        (if d.pkl.active.isEmpty || hBase bs ≠ d.get PKL_ACTIVE_ID_ID then some (PklErr.mk eBase 0 0)
         else d.partialErr ss m st.panel)
      else none8).or (d.ruleErr ss m))))
  (st, e)

end Sys2Proof.Machine
end

