-- ==== Sys2Proof/Machine/Pricking.lean ====
section
/-! DEFINITION. The pricking loader: its commands, applying a checked stream, stopping and starting
panels, and the migration of a carrier (R21, R41, R66 to R88, R149 to R151, R363, R486). -/

namespace Sys2Proof.Machine
open R

/-! ### The end of a command (R86, R88) -/

/-- A command is complete. -/
def Device.pklDone (d : Device) : Device :=
  (({ d with pkl := { d.pkl with cmd := .none, stopped := false, applied := false } }).put PKL_STATUS_BUSY 0).pulse 4

/-- An error is reported, with the requester whose command failed or was refused. -/
def Device.pklErr (d : Device) (e : PklErr) (req : Nat) : Device :=
  ((((d.put PKL_ERR_CODE e.code).put PKL_ERR_DETAIL e.detail).put PKL_ERR_SECTION e.sect).put PKL_ERR_REQ req).put
    PKL_STATUS_ERR 1

/-- A command that has begun fails. -/
def Device.pklFail (d : Device) (e : PklErr) (req : Nat) : Device := (d.pklErr e req).pklDone

/-- A refused command with a plain code. -/
def plain (code : Nat) : PklErr := ⟨code, 0, 0⟩

/-- What the staging buffer holds, shown in PKL_STATUS. -/
def Device.setStaged (d : Device) (s : Option Stream) : Device :=
  let d := { d with pkl := { d.pkl with staged := s, buf := [] } }
  match s with
  | none => ((d.put PKL_STATUS_STAGED 0).put PKL_STATUS_STAGED_KIND 0).put PKL_STATUS_STAGED_PANEL 0
  | some s => ((d.put PKL_STATUS_STAGED 1).put PKL_STATUS_STAGED_KIND s.kind).put PKL_STATUS_STAGED_PANEL
      (if s.kind = 0 then 0x1F else s.panel)

/-! ### Applying a stream (R71, R72, R75) -/

/-- The bring-up order a CLOCK_POWER section gives to the domains it marks INIT 1: those of ORDER, then the
others by number. -/
def bringUp (s : Section) : List Nat :=
  let up := (List.range 64).filter (fun m => bit (wordAt s.payload (1 + m)) 0)
  let ord := (orderOf s).filter (up.contains ·)
  ord ++ up.filter (fun m => !ord.contains m)

/-- The CLOCK_POWER section: settings, domains whose INIT changes to 1 brought up in order, and domains whose
INIT changes to 0 placed in Off (R71, R72, R496). -/
def Device.applyPower (d : Device) (s : Section) : Device :=
  let w := wordAt s.payload
  let d := d.put RLN_CTRL_REFR_FREQ (w 0)
  let up := (bringUp s).filter (fun m => !d.on (ELP_DOM_STATE_INIT m))
  let down := (List.range 64).filter (fun m => !bit (w (1 + m)) 0 && (d.on (ELP_DOM_STATE_INIT m) || d.pkl.active.isEmpty))
  let d := (List.range 64).foldl (fun (d : Device) m =>
    (d.put (ELP_DOM_STATE_INIT m) (w (1 + m))).put (ELP_DOM_STATE_POLICY m) (bits (w (1 + m)) 5 4)) d
  down.foldl (fun (d : Device) m => d.domOff m) (up.foldl (fun (d : Device) m => d.domRun m) d)

/-- The three register words of a quad's LANE_QUAD section; zeros without one (R148, R149). -/
def quadWords (m : List Section) (k : Nat) : List Nat :=
  [secWord m 0x40 k 0 % 65536, secWord m 0x40 k 1, secWord m 0x40 k 2 % 16]

/-- A quad's settings, and its lanes trained or out of use (R151, R167). -/
def Device.applyQuad (d : Device) (m : List Section) (k : Nat) : Device :=
  let ws := quadWords m k
  let d := ((d.setWord (RLN_QUAD_CFG k) (BitVec.ofNat 32 (ws.getD 0 0))).setWord (RLN_QUAD_TXEQ k)
    (BitVec.ofNat 32 (ws.getD 1 0))).setWord (RLN_QUAD_SWING k) (BitVec.ofNat 32 (ws.getD 2 0))
  (List.range 4).foldl (fun (d : Device) i =>
    if laneIn m (4 * k + i) then (d.laneTrain (4 * k + i) lTraining false).filShow (4 * k + i) else d.laneOff (4 * k + i)) d

/-- Whether a quad's registers differ from a section's. -/
def Device.quadDiffers (d : Device) (m : List Section) (k : Nat) : Bool :=
  (quadWords m k) != [(d.word (RLN_QUAD_CFG k)).toNat, (d.word (RLN_QUAD_TXEQ k)).toNat, (d.word (RLN_QUAD_SWING k)).toNat]

/-- The entries of a lane's CONTAINER section. -/
def laneEntries (m : List Section) (n : Nat) : List (List Byte) :=
  match secOf m 0x51 n with
  | some s => entriesOf s
  | none => []

/-- The framer's state of a lane's containers as a section defines them (R193). -/
def Device.applyCtrs (d : Device) (m : List Section) (n : Nat) : Device :=
  (List.range 32).foldl (fun (d : Device) c =>
    let d := (d.setCtr (32 * n + c) ctr0).setWord (FIL_CTR_STATUS n c) 0
    match (laneEntries m n).find? (fun e => cCid e == c) with
    | none => d
    | some e => ((d.put (FIL_CTR_STATUS_PTR n c) (cPtr0 e)).put (FIL_CTR_STATUS_VALID n c) 1).put
        (FIL_CTR_STATUS_DIR n c) (b2n (cDown e))) d

/-- The AGC entries of a lane's uplink containers: the carrier's INIT_GAIN, TRACK (R219). -/
def Device.applyAgc (d : Device) (m : List Section) (n : Nat) : Device :=
  (List.range 32).foldl (fun (d : Device) c =>
    let q := n / 16
    let a := 32 * (n % 16) + c
    let d := ({ d with agc := tabSet (fun _ => agc0) d.agc (512 * q + a) agc0 }).setWord (FFE_AGC_STATE q a) 0
    match (laneEntries m n).find? (fun e => cCid e == c && !cDown e && !cFreq e) with
    | none => d
    | some e =>
      let g := d.get (FFE_AGC_CFG_INIT_GAIN (cCarrier e))
      let d := { d with agc := tabSet (fun _ => agc0) d.agc (512 * q + a) { agc0 with hist := [toSigned 8 g] } }
      (d.put (FFE_AGC_STATE_GAIN q a) g).put (FFE_AGC_STATE_VALID q a) 1) d

/-- The domains of lane quads where no CLOCK_POWER section places them: PD_LQj is in Off when both its quads are MODE 0, and in
Run when one is not (R151). -/
def Device.applyLaneDoms (d : Device) (m : List Section) (ks : List Nat) : Device :=
  ((List.range 8).filter (fun j => ks.any (fun k => k / 2 == j))).foldl (fun (d : Device) j =>
    let used := [2 * j, 2 * j + 1].any (fun k => (quadWords m k).getD 0 0 % 4 != 0)
    if used == (d.get (ELP_DOM_STATE_STATE (56 + j)) == 0) then d
    else
      let d := d.put (ELP_DOM_STATE_INIT (56 + j)) (b2n used)
      if used then d.domRun (56 + j) else d.domOff (56 + j)) d

/-- A framer's groups after a pricking: one that is gone is DISABLED, with nothing kept (R208). -/
def Device.dropGroups (d : Device) : Device :=
  (List.range 16).foldl (fun (d : Device) g =>
    if !(d.grpData g).isEmpty then d
    else ({ d with groups := tabSet (fun _ => laneGroup0) d.groups g laneGroup0 }).setWord (FIL_GRP_STATUS g) 0) d

/-- Lanes of a LANE_GROUP section train again. -/
def Device.applyGroup (d : Device) (m : List Section) (s : Section) : Device :=
  (membersOf s).foldl (fun (d : Device) n => if laneIn m n then (d.laneTrain n lTraining false).filShow n else d) d

/-- A DISPATCH section's thresholds and NEST; zeros without one (R366). -/
def Device.applyDispatch (d : Device) (m : List Section) (p : Nat) : Device :=
  let d := (List.range 7).foldl (fun (d : Device) n => d.setWord (DSP_RIPEN p n) (BitVec.ofNat 32 (secWord m 0x70 p n))) d
  d.put (DSP_NEST_NEST p) (secWord m 0x70 p 7)

/-- Owners of the Heath banks: a bank named in no panel is headroom (R20, R141). -/
def Device.applyBanks (d : Device) (m : List Section) (bs : List Nat) : Device :=
  (bs.foldl (fun (d : Device) b =>
    if d.retired b then d
    else match (panelsOf m).find? (fun p => hasBank m p b) with
      | some p => (d.put (HTH_BANK_STATE_STATE b) 0).put (HTH_BANK_STATE_PANEL b) p
      | none => (d.put (HTH_BANK_STATE_STATE b) 1).put (HTH_BANK_STATE_PANEL b) 0x1F) d).heathStatus

/-- A carrier's map entry as its CARRIER section binds it, also where a migration has moved the carrier since the stream
was staged (DESIGN CHOICE, log entry 50). -/
def Device.applyCarrier (d : Device) (m : List Section) (c : Nat) : Device :=
  match secOf m 0x50 c with
  | some s => (d.put (PKL_CARRIER_MAP_PANEL c) (carrierHome s)).put (PKL_CARRIER_MAP_VALID c) 1
  | none => d.setWord (PKL_CARRIER_MAP c) 0

/-- The shed stages of a whole-device pricking: its SHED section, or GLEAN, MIGRATE, OTHER, XITER, OUTER (R486). -/
def shedOf (m : List Section) : List Nat :=
  match secOf m 0x80 0 with
  | some s => (List.range 8).map (wordAt s.payload)
  | none => [3, 4, 5, 2, 1, 0, 0, 0]

/-- The sections of a list that have a type. -/
def ofType (ss : List Section) (ty : Nat) : List Section := ss.filter (fun s => s.ty == ty)

/-- A whole-device pricking, in the order of R71. At boot its routes go into epoch 0; later they wait for a
flip (R72). -/
def Device.applyWhole (d : Device) (st : Stream) (boot : Bool) : Device :=
  let m := st.sections
  let old := d.pkl.active
  let keep := ofType old 0x20
  let d := match secOf m 0x60 0 with
    | some s => d.applyPower s
    | none => d.applyLaneDoms m (List.range 16)
  let quads := (List.range 16).filter (fun k => d.quadDiffers m k)
  let d := { d with pkl := { d.pkl with
    active := if boot then m else m.filter (fun s => s.ty != 0x20) ++ keep
    whole := m
    routes := if boot then none else some (true, ofType m 0x20), panelId := [] } }
  let d := (quads.foldl (fun (d : Device) k => d.applyQuad m k) d).dropGroups
  let d := ((List.range 64).filter (fun n => secOf m 0x51 n != secOf old 0x51 n)).foldl (fun (d : Device) n => d.applyCtrs m n) d
  let d := (List.range 64).foldl (fun (d : Device) n => d.applyAgc m n) d
  let d := if boot then d.setRt 0 ⟨d.lcNow, d.xrowNow⟩ else { d with lwk := { d.lwk with flipWanted := true } }
  let d := d.put PKL_PANEL_DEF_DEF ((panelsOf m).foldl (fun n p => n + 2 ^ p) 0)
  let d := (List.range 64).foldl (fun (d : Device) c => d.applyCarrier m c) d
  let d := (List.range 20).foldl (fun (d : Device) p => d.applyDispatch m p) d
  let d := d.applyBanks m (List.range 80)
  let d := { d with ledger := { d.ledger with newStages := some (shedOf m) } }
  let d := (List.range 8).foldl (fun (d : Device) e => d.put (DMA_ENG_CTRL_MODE e) (secWord m 0x90 e 0)) d
  let d := d.put PKL_ACTIVE_ID_ID st.id
  let go := (panelsOf m).filter (fun p => bit (secWord m 0x10 p 14) 1)
  { d with
    pkl := { d.pkl with restart := go.map (fun p => (p, boot)) }
    time := { d.time with heldStarts := [] } }

/-- A partial pricking over the panel it names; its ROUTE sections wait for the restart edge (R75, R76). -/
def Device.applyPart (d : Device) (st : Stream) : Device :=
  let m := d.merged 1 st.sections
  let p := st.panel
  let ss := st.sections
  let was := (List.range 80).filter (fun b => d.get (HTH_BANK_STATE_PANEL b) == p)
  let d := { d with pkl := { d.pkl with
    active := m
    routes := if (ofType ss 0x20).isEmpty then d.pkl.routes else some (false, ofType ss 0x20)
    panelId := tabSet (fun _ => 0) d.pkl.panelId p st.id } }
  let d := d.applyLaneDoms m ((ofType ss 0x40).map (·.target))
  let d := (ofType ss 0x40).foldl (fun (d : Device) s => d.applyQuad m s.target) d
  let d := (ofType ss 0x41).foldl (fun (d : Device) s => d.applyGroup m s) d
  let d := (ofType ss 0x51).foldl (fun (d : Device) s => (d.applyCtrs m s.target).applyAgc m s.target) d
  let d := d.put PKL_PANEL_DEF_DEF ((d.get PKL_PANEL_DEF_DEF).lor (2 ^ p))
  let d := (ofType ss 0x50).foldl (fun (d : Device) s => d.applyCarrier m s.target) d
  let d := if (ofType ss 0x70).isEmpty then d else d.applyDispatch m p
  d.applyBanks m ((List.range 80).filter (fun b => was.contains b || hasBank m p b))

/-! ### Panels: carriers, edges, stops, starts (R21, R41, R73 to R78) -/

/-- Whether a panel carries a carrier (R73). -/
def Device.carries (d : Device) (p : Nat) : Bool :=
  !(d.carriersOf p).isEmpty || (d.get PKL_MIG_STATUS_STATE == 3 && d.pkl.migSrc == p)

/-- A migration ends with a code (R83, R85, R88). -/
def Device.migEnd (d : Device) (code : Nat) : Device :=
  ((({ d with pkl := { d.pkl with migFault := false } }).put PKL_MIG_STATUS_STATE 0).put PKL_MIG_STATUS_RESULT code).pulse 5

/-- The end of an item of a stopping panel: its expiry action, or EXPIRED with a DEADLINE record for a
control item (R74). -/
def Device.stopItem (d : Device) (k : Nat) : Device :=
  let i := d.item k
  if i.st == .empty then d
  else if i.cls = 4 then
    let d := ((d.detach k).deadline i.panel (d.ranLc i) (d.handleOf k) noEvent).endItem k 2 0
    d.refill i.st i
  else d.expireItem k

/-- DMA channels of a panel: their descriptors are abandoned and EN cleared (R450). -/
def Device.stopDmas (d : Device) (p : Nat) : Device :=
  (List.range 8).foldl (fun (d : Device) e => (List.range 32).foldl (fun (d : Device) c =>
    if bit (d.panelWord p (6 + e)) c then (d.dmaAbandon e c).put (DMA_CH_CTRL_EN e c) 0 else d) d) d

/-- A panel stops at this edge (R74, R85). -/
def Device.stopPanel (d : Device) (p : Nat) : Device :=
  let st := d.get PKL_MIG_STATUS_STATE
  let d := if (st = 1 || st = 2) && d.pkl.migSrc = p then d.migEnd eStopped else d
  let d := d.put PKL_PANEL_RUN_RUN (putBits (d.get PKL_PANEL_RUN_RUN) p p 0)
  let d := ((d.panelItems p).map (·.1)).foldl (fun (d : Device) k => d.stopItem k) d
  let d := (d.engineExpiries).stopDmas p
  let d := { d with
    pkl := { d.pkl with restart := d.pkl.restart.filter (fun x => x.1 ≠ p) }
    time := { d.time with heldStarts := d.time.heldStarts.filter (· ≠ p) } }
  (d.schedule).pulse 4

/-- Whether the command in progress is the start of a panel: a START, or a REPRICK that has applied. -/
def LoaderCmd.starts (c : LoaderCmd) (applied : Bool) (p : Nat) : Bool :=
  match c with
  | .start q => q == p
  | .reprick false q => applied && q == p
  | _ => false

/-- A panel starts: its bit, the stay in ACQUIRING, the routes that waited for it, and the end of its
command (R41, R75, R76). -/
def Device.startPanel (d : Device) (p : Nat) : Device :=
  let d := d.put PKL_PANEL_RUN_RUN ((d.get PKL_PANEL_RUN_RUN).lor (2 ^ p))
  let d := { d with
    pkl := { d.pkl with restart := d.pkl.restart.filter (fun x => x.1 ≠ p) }
    time := { d.time with
      heldStarts := d.time.heldStarts.filter (· ≠ p)
      stayStarted := d.time.stayStarted || d.get TTB_STATUS_STATE == stAcquiring } }
  let d := if d.pkl.cmd.starts d.pkl.applied p then d.pklDone else d
  d.schedule

/-- A start that is due at this edge, held while the time base does not allow it (R41, R75, R107). -/
def Device.tryStart (d : Device) (p : Nat) : Device :=
  if !d.startDue p then d
  else if !d.mayStart p then
    if d.time.heldStarts.contains p then d
    else ({ d with time := { d.time with heldStarts := d.time.heldStarts ++ [p] } }).pulse 27
  else if d.routesWait p then
    if d.canJoin then ((d.takeRoutes true).flip).startPanel p else d.deferFlip
  else d.startPanel p

/-! ### Commands (R68, R70, R72, R75, R78, R85) -/

/-- Requesters that may write PKL_CTRL: hosts, Hayward, signal cores in machine mode (R70). That the same hold for
PKL_MIG_CTRL, and that another's write is ignored, are DESIGN CHOICES (log entry 50): the spec gives no outcome. -/
def Device.mayLoad (d : Device) (r : Req) : Bool :=
  match r with
  | .core c k => d.get (CX_STATUS_PRIV c.val k.val) == 2
  | .node _ => false
  | _ => true

/-- A reprick takes the place of the starts that wait, of its panel or of all (R72, R75; DEDUCED, log entry 50). -/
def Device.dropStarts (d : Device) (hit : Nat → Bool) : Device :=
  { d with
    pkl := { d.pkl with restart := d.pkl.restart.filter (fun x => !hit x.1) }
    time := { d.time with heldStarts := d.time.heldStarts.filter (fun p => !hit p) } }

/-- Begins a command. -/
def Device.pklBegin (d : Device) (r : Req) (c : LoaderCmd) : Device :=
  (({ d with pkl := { d.pkl with cmd := c, req := reqCode r, stopped := false, applied := false } }).put PKL_STATUS_BUSY 1).put
    PKL_STATUS_REQ (reqCode r)

/-- The fields of PKL_CTRL that a write stores. -/
def Device.pklFields (d : Device) (v : Nat) : Device := (d.put PKL_CTRL_PANEL (bits v 12 8)).put PKL_CTRL_FORCE (bits v 13 13)

/-- Staged bytes from a source that a Lacework read reaches; a Heath range with a retired bank answers
TILE_FAULT. -/
def Device.pklFetch (d : Device) (a n : Nat) : Option (List Byte) :=
  if n = 0 then some []
  else if 0x4000000000 ≤ a && a + n ≤ 0x400A000000 then
    if (tilesOf (a - 0x4000000000) n).any (fun t => d.retired (tileBank t)) then none else some (d.bytes a n)
  else d.fetch a n

/-- STAGE: the fetch; its checks end with STAGE_COMPLETE. -/
def Device.cmdStage (d : Device) (r : Req) (fetchOk : Bool) : Device :=
  let n := d.get PKL_LEN_LEN
  let d := d.pklBegin r .stage
  let a := d.get PKL_SRC_LO_ADDR_LO + 2 ^ 32 * d.get PKL_SRC_HI_ADDR_HI
  match (if fetchOk && n ≤ maxStream then d.pklFetch a n else none) with
  | none => { d with pkl := { d.pkl with buf := [], fetchOk := false } }
  | some bs => { d with pkl := { d.pkl with buf := bs, fetchOk := true } }

/-- The end of staging (R65, R68, R606). -/
def Device.stageEnd (d : Device) : Device :=
  let n := d.get PKL_LEN_LEN
  let req := d.pkl.req
  if d.pkl.cmd ≠ .stage then d
  else if maxStream < n then (d.setStaged none).pklFail (plain eLength) req
  else if !d.pkl.fetchOk then (d.setStaged none).pklFail (plain eFetch) req
  else match d.checkStream d.pkl.buf.length d.pkl.buf with
    | (st, none) => (d.setStaged (some st)).pklDone
    | (_, some e) => (d.setStaged none).pklFail e req

/-- Why a STOP or REPRICK of a panel is refused (R73, R85). -/
def Device.stopBar (d : Device) (p : Nat) : Option PklErr :=
  let st := d.get PKL_MIG_STATUS_STATE
  if (st = 1 || st = 2) && d.pkl.migDest = p then some (plain eMigrating)
  else if !d.on PKL_CTRL_FORCE && d.carries p then some (plain eCarrier)
  else none

/-- PKL_CTRL.PANEL beyond the panels (R87). -/
def badPanel : PklErr := ⟨eRule, 10, 0⟩

/-- REPRICK. -/
def Device.cmdReprick (d : Device) (r : Req) : Device :=
  let p := d.get PKL_CTRL_PANEL
  let req := reqCode r
  match d.pkl.staged with
  | none => d.pklFail (plain eNotStaged) req
  | some st =>
    if st.kind = 0 then
      if d.anyRun then d.pklFail (plain eRunning) req else (d.dropStarts (fun _ => true)).pklBegin r (.reprick true 0)
    else if 20 ≤ p then d.pklFail badPanel req
    else if st.panel ≠ p then d.pklFail (plain eWrongPanel) req
    else match d.stopBar p with
      | some e => d.pklFail e req
      | none =>
        let d := (d.dropStarts (· == p)).pklBegin r (.reprick false p)
        { d with pkl := { d.pkl with stopped := !d.panelRuns p } }

/-- STOP; a panel that does not run is stopped already, and a start that waits for it goes on (DESIGN CHOICE, log entry 50). -/
def Device.cmdStop (d : Device) (r : Req) : Device :=
  let p := d.get PKL_CTRL_PANEL
  if 20 ≤ p then d.pklFail badPanel (reqCode r)
  else match d.stopBar p with
    | some e => d.pklFail e (reqCode r)
    | none => if d.panelRuns p then d.pklBegin r (.stop p) else d.pklDone

/-- START; a panel that runs or is not defined has nothing to start. -/
def Device.cmdStart (d : Device) (r : Req) : Device :=
  let p := d.get PKL_CTRL_PANEL
  if 20 ≤ p then d.pklFail badPanel (reqCode r)
  else if d.panelRuns p || !bit (d.get PKL_PANEL_DEF_DEF) p then d.pklDone
  else
    let d := d.pklBegin r (.start p)
    { d with pkl := { d.pkl with restart := d.pkl.restart.filter (fun x => x.1 ≠ p) ++ [(p, false)] } }

/-- A write of PKL_CTRL with a given CMD (R70). -/
def Device.pklCommand (d : Device) (r : Req) (v cmd : Nat) (fetchOk : Bool) : Device :=
  if !d.mayLoad r then d
  else
    let d := d.pklFields v
    if cmd = 0 || 6 ≤ cmd then d
    else if d.on PKL_STATUS_BUSY then (d.pklErr (plain eBusy) (reqCode r)).pulse 4
    else match cmd with
      | 1 => d.cmdStage r fetchOk
      | 2 => d.cmdReprick r
      | 3 => d.cmdStop r
      | 4 => d.cmdStart r
      | _ => (d.setStaged none).pklDone

/-- Whether this edge is the stop edge of a running panel: PKL_STOP_TICK and R21 (R74). -/
def Device.stopDue (d : Device) (p : Nat) : Bool :=
  d.panelRuns p && isPast 32 (d.get PKL_STOP_TICK_TICK) d.time.tick && d.panelEdge p &&
    (d.pkl.cmd == .stop p || (d.pkl.cmd == .reprick false p && !d.pkl.stopped))

/-- The stop edge of the command in progress. -/
def Device.stopEdge (d : Device) (p : Nat) : Device :=
  if !d.stopDue p then d
  else if d.pkl.cmd = .stop p then
    let d := d.stopPanel p
    ({ d with pkl := { d.pkl with cmd := .none } }).put PKL_STATUS_BUSY 0
  else
    let d := d.stopPanel p
    { d with pkl := { d.pkl with stopped := true } }

/-- After a step, comparisons use the new TICK: items wait for releases that are ahead again, releases and expiries that
it makes due happen, and the swaps, stops and starts whose ticks it skipped take place (R45, R333). -/
def Device.afterStep (d : Device) : Device :=
  let d := d.liveItems.foldl (fun (d : Device) k => (d.unrelease k).release k) d
  let d := d.liveItems.foldl (fun (d : Device) k =>
    if d.duePast (d.item k) && !(d.item k).overrun then d.expireItem k else d) d
  let d := ((d.engineExpiries).tbcAfterStep 0).tbcAfterStep 1
  ((List.range 20).foldl (fun (d : Device) p => (d.stopEdge p).tryStart p) d).schedule

/-- A pending step at its edge (R44, R45). -/
def Device.stepEdge (d : Device) : Device := if d.time.step.isSome then d.applyStep.afterStep else d

/-- The apply completes (R72, R75). -/
def Device.applyEnd (d : Device) : Device :=
  match d.pkl.cmd, d.pkl.staged with
  | .reprick true _, some st => if d.pkl.applied then d else ((d.applyWhole st false).setStaged none).pklDone
  | .reprick false p, some st =>
    if !d.pkl.stopped || d.pkl.applied then d
    else
      let d := (d.applyPart st).setStaged none
      let d := if isPast 32 (d.get PKL_RESTART_TICK_TICK) d.time.tick then d.put PKL_STATUS_RESTART_LATE 1 else d
      { d with pkl := { d.pkl with
        applied := true, restart := d.pkl.restart.filter (fun x => x.1 ≠ p) ++ [(p, false)] } }
  | _, _ => d

/-! ### Migration (R79 to R85) -/

/-- The carrier tick that base tick edge tick + 1 begins, if it begins one. -/
def Device.nextCarrierTick (d : Device) (r : Nat) : Option Nat :=
  if (d.sinceF + 1) % r = 0 then some (((d.sinceF + 1) / r) % 2 ^ 64).toNat else none

/-- Engine kinds a panel holds, as bits: Fourier, matrix, preamble, LDPC decode, LDPC encode, polar, turbo, trellis. -/
def Device.panelKinds (d : Device) (p : Nat) : Nat :=
  let w := d.panelWord p 2
  b2n (d.panelWord p 1 % 2 ^ 32 != 0) + 2 * b2n (bits w 3 0 != 0) + 4 * b2n (bits w 7 4 != 0) + 8 * b2n (bits w 19 8 != 0) +
    16 * b2n (bits w 23 20 != 0) + 32 * b2n (bits w 27 24 != 0) + 64 * b2n (bits w 29 28 != 0) + 128 * b2n (bits w 31 30 != 0)

/-- FREE tiles of a panel's banks. -/
def Device.freeTiles (d : Device) (p : Nat) : Nat :=
  ((List.range 80).filter (fun b => d.get (HTH_BANK_STATE_STATE b) == 0 && d.get (HTH_BANK_STATE_PANEL b) == p)).foldl
    (fun n b => n + 512 - (d.tiles.filter (fun t => tileBank t.1 == b && t.2.st != .free)).length) 0

/-- Whether a destination holds the engine kinds that a carrier's CARRIER section requires, and room for its tiles (R79);
which those are the section's payload says, whose layout the spec does not give (log entry 10); at most the 40,960 tiles of the
device. -/
def Device.migRoom (d : Device) (c p : Nat) : Bool :=
  match d.section? 0x50 c with
  | none => false
  | some s => (Config.carrierKinds s.payload % 256).land (d.panelKinds p) == Config.carrierKinds s.payload % 256 &&
      decide (Config.carrierTiles s.payload % 40961 ≤ d.freeTiles p)

/-- A write of PKL_MIG_CTRL: with GO, a request, refused BUSY, RESOURCE or PANEL_STOPPED (R79, R84). RESOURCE is checked
before PANEL_STOPPED, a DEST that is no defined panel gives RESOURCE, and both are reported in PKL_MIG_STATUS.RESULT with
the event and not in PKL_ERR: the spec leaves these open (DESIGN CHOICE, log entry 50). -/
def Device.migRequest (d : Device) (r : Req) (v : Nat) : Device :=
  if !d.mayLoad r then d
  else
    let d := (d.put PKL_MIG_CTRL_CARRIER (bits v 13 8)).put PKL_MIG_CTRL_DEST (bits v 20 16)
    let c := bits v 13 8
    let p := bits v 20 16
    if !bit v 0 then d
    else if d.get PKL_MIG_STATUS_STATE ≠ 0 then (d.pklErr (plain eBusy) (reqCode r)).pulse 5
    else
      let d := d.put PKL_MIG_STATUS_DEFERRED 0
      if !d.on (PKL_CARRIER_MAP_VALID c) || 20 ≤ p || !bit (d.get PKL_PANEL_DEF_DEF) p || !d.migRoom c p then d.migEnd eResource
      else if !d.panelRuns p then d.migEnd eStopped
      else
        let d := { d with pkl := { d.pkl with
          migCarrier := c, migE := d.get PKL_MIG_TICK_E, migSrc := d.get (PKL_CARRIER_MAP_PANEL c), migDest := p
          migFault := false } }
        d.put PKL_MIG_STATUS_STATE 1

/-- The copy of the context block, of which the carrier's section says place and length (log entry 10). -/
def Device.migCopy (d : Device) : Device :=
  match d.section? 0x50 d.pkl.migCarrier with
  | none => d
  | some s =>
    let n := Config.contextLen s.payload % 262145
    match d.fetch (Config.contextAddr s.payload d.pkl.migSrc) n with
    | none => d
    | some bs => d.send (Config.contextAddr s.payload d.pkl.migDest) bs

/-- Edge E_b − 1: the copy's energy is asked for; refused, the migration moves to the next carrier tick, and
the eighth refusal ends it (R80, R82, R483). An E that is past is met at the first carrier tick it can be. -/
def Device.migStart (d : Device) : Device :=
  match d.nextCarrierTick (d.carrierR d.pkl.migCarrier) with
  | none => d
  | some n =>
    if d.get PKL_MIG_STATUS_STATE ≠ 1 || !isPast 32 d.pkl.migE n then d
    else
      let d := { d with pkl := { d.pkl with migE := n % 2 ^ 32 } }
      match d.askEnergy 4 d.pkl.migDest (1000 * 2 ^ d.get ELP_CTRL_MIG_ECLASS) with
      | (true, d) => (d.put PKL_MIG_STATUS_STATE 2).migCopy
      | (false, d) =>
        let k := d.get PKL_MIG_STATUS_DEFERRED + 1
        let d := d.put PKL_MIG_STATUS_DEFERRED k
        if 8 ≤ k then d.migEnd eEnergy else { d with pkl := { d.pkl with migE := (n + 1) % 2 ^ 32 } }

/-- Items of the source that move with the carrier (R363). -/
def Device.migItems (d : Device) : Device :=
  ((d.items.filter (fun p => (p.2.st == .waiting || p.2.st == .ready) && !d.ordered p.1)).map (·.1)).foldl
    (fun (d : Device) k => d.setItem k (d.movedTo (d.item k))) d

/-- Edge E_b: the map entry changes, or the migration is abandoned after a fence (R80, R83, R363). A stop of the source due
at this edge abandons it instead (R85). -/
def Device.migSwitch (d : Device) : Device :=
  if d.stopDue d.pkl.migSrc then d
  else if d.get PKL_MIG_STATUS_STATE ≠ 2 || !isPast 32 d.pkl.migE (d.carrierTick (d.carrierR d.pkl.migCarrier)) then d
  else if d.pkl.migFault then d.migEnd eFault
  else
    let d := d.migCopy.put (PKL_CARRIER_MAP_PANEL d.pkl.migCarrier) d.pkl.migDest
    ((d.put PKL_MIG_STATUS_STATE 3).migItems).schedule

/-- The source carries the carrier no more (R73, R80). -/
def Device.migDrained (d : Device) : Device :=
  if d.get PKL_MIG_STATUS_STATE = 3 && !(d.panelItems d.pkl.migSrc).any (fun q => q.2.carrier == d.pkl.migCarrier) then
    d.migEnd 0
  else d

/-! ### Meanings -/

/-- STEP_APPLY (R44, R45). -/
def execStepApply (s : State) : Host.Outcome State Fault Refusal := s.run (fun d => d.stepEdge)

/-- FRAME_APPLY: the pending TTB_FRAME at the next base tick edge, after a step of the same edge (R45, R56). -/
def execFrameApply (s : State) : Host.Outcome State Fault Refusal := s.run (fun d => d.stepEdge.applyFrame)

def execStage (r : Req) (v : Word) (fetchOk : Bool) (s : State) : Host.Outcome State Fault Refusal :=
  s.run (fun d => d.pklCommand r v.toNat 1 fetchOk)

/-- STAGE_COMPLETE (R68, R606). -/
def execStageComplete (s : State) : Host.Outcome State Fault Refusal := s.run (fun d => d.stageEnd)

/-- REPRICK (R72, R75). -/
def execReprick (r : Req) (v : Word) (s : State) : Host.Outcome State Fault Refusal :=
  s.run (fun d => d.pklCommand r v.toNat 2 true)

/-- STOP (R78). -/
def execStop (r : Req) (v : Word) (s : State) : Host.Outcome State Fault Refusal :=
  s.run (fun d => d.pklCommand r v.toNat 3 true)

/-- START (R78). -/
def execStart (r : Req) (v : Word) (s : State) : Host.Outcome State Fault Refusal :=
  s.run (fun d => d.pklCommand r v.toNat 4 true)

/-- DISCARD (R78). -/
def execDiscard (r : Req) (v : Word) (s : State) : Host.Outcome State Fault Refusal :=
  s.run (fun d => d.pklCommand r v.toNat 5 true)

/-- PANEL_STOP at a base tick edge (R74). -/
def execPanelStop (p : Fin 20) (s : State) : Host.Outcome State Fault Refusal := s.run (fun d => d.stopEdge p.val)

/-- APPLY_COMPLETE (R72, R75). -/
def execApplyComplete (s : State) : Host.Outcome State Fault Refusal := s.run (fun d => d.applyEnd)

/-- PANEL_RESTART at a base tick edge (R75, R78). -/
def execPanelRestart (p : Fin 20) (s : State) : Host.Outcome State Fault Refusal := s.run (fun d => d.tryStart p.val)

/-- HELD_PANEL_START: a start held in FREERUN or ACQUIRING, once the state allows it (R41). -/
def execHeldPanelStart (p : Fin 20) (s : State) : Host.Outcome State Fault Refusal :=
  s.run (fun d => if d.time.heldStarts.contains p.val && d.mayStart p.val then d.tryStart p.val else d)

/-- MIGRATION_REQUEST: a write of PKL_MIG_CTRL (R79, R84). -/
def execMigrationRequest (r : Req) (v : Word) (s : State) : Host.Outcome State Fault Refusal :=
  s.run (fun d => d.migRequest r v.toNat)

/-- MIGRATION_COPY_START at E_b − 1 (R80, R82). -/
def execMigrationCopyStart (s : State) : Host.Outcome State Fault Refusal := s.run (fun d => d.migStart)

/-- MIGRATION_SWITCH at E_b (R80, R83). -/
def execMigrationSwitch (s : State) : Host.Outcome State Fault Refusal := s.run (fun d => d.migSwitch)

/-- MIGRATION_DRAINED (R80). -/
def execMigrationDrained (s : State) : Host.Outcome State Fault Refusal := s.run (fun d => d.migDrained)

end Sys2Proof.Machine
end

