-- ==== Sys2Proof/Machine/Boot.lean ====
section
/-! DEFINITION. Semaphores, the mailboxes, resets of an endpoint, boot and removal (R542 to R545, R553
to R563, R583). -/

namespace Sys2Proof.Machine
open R

/-! ### Semaphores (R544, R545) -/

/-- The owner code of a node and, for a cluster, the core that issues. -/
def semOwner (src core : Nat) : Nat :=
  if src = hostNode 0 then 1
  else if src = hostNode 1 then 2
  else if src = aonNode 0 || src = aonNode 1 then 3
  else match nodeCluster src with
    | some c => 0x20 + 8 * c + core
    | none => 0

/-- A LEN = 0 read of semaphore n: the device and what it returns (R544). -/
def Device.semRead (d : Device) (n src core : Nat) : Device × Nat :=
  let me := semOwner src core
  let own := d.get (HWD_SEM_OWNER_OWNER n)
  if me = 0 then (d.accessRec (0x4800000000 + HWD_SEM n) src 0, 0)
  else if own = 0 then ((d.put (HWD_SEM_OWNER_OWNER n) me).put (HWD_SEM_SEM n) 1, 1)
  else (d, b2n (own == me))

/-- A LEN = 0 write of semaphore n (R544). -/
def Device.semWrite (d : Device) (n src core v : Nat) : Device :=
  let me := semOwner src core
  if me = 0 then d.accessRec (0x4800000000 + HWD_SEM n) src 0
  else if v = 0 && d.get (HWD_SEM_OWNER_OWNER n) = me then (d.put (HWD_SEM_OWNER_OWNER n) 0).put (HWD_SEM_SEM n) 0
  else d

/-- Semaphores of host h released by force, with EV(148 + h) when there are any (R545). -/
def Device.semForce (d : Device) (h : Nat) : Device :=
  let mine := (List.range 128).filter (fun n => d.get (HWD_SEM_OWNER_OWNER n) == h + 1)
  if mine.isEmpty then d
  else (mine.foldl (fun (d : Device) n => (d.put (HWD_SEM_OWNER_OWNER n) 0).put (HWD_SEM_SEM n) 0) d).cause
    ⟨HWD_EV_CAUSE, 13 + h, 13 + h⟩ (148 + h)

/-- SEM_ACQUIRE (R544). -/
def execSemAcquire (n : Fin 128) (src : BitVec 10) (core : Fin 8) (s : State) : Host.Outcome State Fault Refusal :=
  s.run (fun d => match d.semRead n.val src.toNat core.val with
    | (d, v) => d.emit (.resp src.toNat (okInl v)))

/-- SEM_RELEASE (R544). -/
def execSemRelease (n : Fin 128) (src : BitVec 10) (core : Fin 8) (v : Word) (s : State) :
    Host.Outcome State Fault Refusal :=
  s.run (fun d => (d.semWrite n.val src.toNat core.val v.toNat).emit (.resp src.toNat ok))

/-- SEM_LINK_RELEASE: 10 ms after a host link went down (R545). -/
def execSemLinkRelease (h : Fin 2) (s : State) : Host.Outcome State Fault Refusal :=
  s.run (fun d => if (d.host h.val).linkUp then d else d.semForce h.val)

/-! ### Links and resets of an endpoint (R542) -/

/-- FLR of endpoint h. -/
def Device.flr (d : Device) (h : Nat) : Device :=
  let d := d.setMsix h msix0
  let d := d.setHost h { d.host h with retry := [] }
  let d := { d with
    hwd := { d.hwd with mbx := d.hwd.mbx.map (fun c => if c.host = h then { c with drop := true } else c) }
    time := { d.time with
      latchHi := tabSet (fun _ => 0) d.time.latchHi h 0, latchSec := tabSet (fun _ => 0) d.time.latchSec h 0 } }
  let d := (List.range 24).foldl (fun (d : Device) i => d.setWord (0x100 + 0x100 * h + 4 * i) 0) d
  (d.semForce h).cause ⟨HWD_EV_CAUSE, 9 + h, 9 + h⟩ (144 + h)

def execFlr (h : Fin 2) (s : State) : Host.Outcome State Fault Refusal := s.run (fun d => d.flr h.val)

def execPcieLinkDown (h : Fin 2) (s : State) : Host.Outcome State Fault Refusal := s.run (fun d => d.hostDown h.val)

/-- PCIE_LINK_UP: not under reset, after a trip, or once removal has turned the transmitters off. -/
def Device.hostUp (d : Device) (h : Nat) : Device :=
  if (d.host h).linkUp || !d.hwd.porN || d.power.trip || d.hwd.ready || d.ballsTaken then d
  else (d.setHost h { d.host h with linkUp := true, txOn := true }).cause ⟨HWD_EV_CAUSE, 5 + h, 5 + h⟩ (144 + h)

def execPcieLinkUp (h : Fin 2) (s : State) : Host.Outcome State Fault Refusal := s.run (fun d => d.hostUp h.val)

/-! ### Keys (R63, R64, R88, R579) -/

/-- PKL_KEY_STATUS and PKL_STATUS.OPEN as the fuses stand. -/
def Device.keyShow (d : Device) : Device :=
  let mask := fun (f : Nat → Bool) => (List.range 4).foldl (fun n k => n + b2n (f k) * 2 ^ k) 0
  let d := d.put PKL_KEY_STATUS_PROG (mask (fun k => (tabGet (fun _ => none) d.hwd.keys k).isSome))
  let d := (d.put PKL_KEY_STATUS_REVOKED (mask (d.hwd.revoked.contains ·))).put PKL_KEY_STATUS_MIN_SEC_VER d.hwd.minSec
  d.put PKL_STATUS_OPEN (b2n d.pklOpen)

/-! ### The boot sequence (R463, R554 to R557) -/

def stgFwLoad : Nat := 1
def stgBoard : Nat := 2
def stgAvs : Nat := 3
def stgPricking : Nat := 4
def stgDomains : Nat := 5
def stgRunning : Nat := 6
def stgRemoving : Nat := 7
def stgRemoved : Nat := 8
def stgFailed : Nat := 15

def Device.stg (d : Device) (n : Nat) : Device := d.put HWD_BOOT_STAGE n

/-- A boot that fails, with HWD_BOOT.ERR. -/
def Device.bootFail (d : Device) (err : Nat) : Device := (d.stg stgFailed).put HWD_BOOT_ERR err

/-- The BOARD payload of a Hayward image, or HWD_BOOT.ERR: the image's form (NO_IMAGE), then its
authentication (R555, R556). -/
def Device.imageBoard (d : Device) (bs : List Byte) : Except Nat (List Byte) :=
  let p := parseSections imageTargetOk bs
  let bad := (headerErr mImage bs.length (d.get HWD_ID_REV) bs).isSome || hKind bs != 0 || p.2.isSome
  match p.1.find? (fun s => s.ty == 0x110), p.1.getLast? with
  | some b, some sig =>
    if bad || b.payload.length != 64 then .error 1
    else if (d.authErr bs sig).isSome then .error 2
    else .ok b.payload
  | _, _ => .error 1

/-- U in 64 MiB units, of n channels of C units each (R459). -/
def usable (reserve : Bool) (n c : Nat) : Nat := if reserve && decide (2 ≤ n) then c * (n - 1) / n else c

/-- DRC_MAP.CHAN_EN over a set of channels, and the capacity that follows. -/
def Device.dramBuild (d : Device) (ks : List Nat) : Device :=
  let d := d.put DRC_MAP_CHAN_EN (ks.foldl (fun n k => n + 2 ^ k) 0)
  d.put DRC_CAP_USABLE (usable (d.on DRC_MAP_RESERVE_EN) ks.length (d.get DRC_CAP_FITTED))

/-- Step 3: the board record (R456, R555). -/
def Device.applyBoard (d : Device) (b : List Byte) : Device :=
  let w := wordAt b
  let d := { d with hwd := { d.hwd with board := b } }
  let d := (d.put DRC_MAP_GRAIN (bits (w 0) 11 8)).put DRC_MAP_RESERVE_EN (bits (w 0) 12 12)
  let d := ((d.put DRC_CAP_ORG (bits (w 0) 21 20)).put DRC_CAP_SPEED (bits (w 0) 23 22)).put DRC_CAP_RDIMM (bits (w 0) 24 24)
  let d := d.put DRC_CAP_FITTED (if bits (w 0) 21 20 = 1 then 128 else 256)
  let d := d.dramBuild ((List.range 6).filter (fun k => bit (w 0) k))
  let d := (d.put DRC_QOS_PRIO (w 2)).put NET_CTRL_MODE (bits (w 2) 25 24)
  (List.range 8).foldl (fun (d : Device) r => d.put (ELP_PMB_STATUS_PRESENT r) (bits (w (3 + r)) 7 7)) d

/-- Steps 2 to 4 of a boot with an image: false when it ends in FAILED. -/
def Device.bootImage (d : Device) (f : BootFacts) (bs : List Byte) : Bool × Device :=
  match d.imageBoard bs with
  | .error e => (false, d.bootFail e)
  | .ok b =>
    let r := d.draw 32
    let d := ((r.2.setWord HWD_FW_VER (BitVec.ofNat 32 r.1)).stg stgBoard).applyBoard b
    if !f.rails then (false, d.bootFail 3)
    else (true, ((d.stg stgAvs).put ELP_AVS_VSET f.vset.val).stg stgPricking)

/-- DRAM training: channels that find no working setting are retired, and the map is built over the others (R463). -/
def Device.trainDram (d : Device) (good : List Bool) : Device :=
  let cs := d.dramChans
  let d := cs.foldl (fun (d : Device) k =>
    if good.getD k false then d.put (DRC_CH_STATUS_STATE k) chUp
    else (d.put (DRC_CH_STATUS_STATE k) chRetired).put DRC_MAP_RETIRED ((d.get DRC_MAP_RETIRED).lor (2 ^ k))) d
  d.dramBuild (cs.filter (fun k => good.getD k false))

/-- A cluster recorded as spared is fenced again, and its role goes to the quadrant's fallow cluster, if that
stands, as the swap left it (R519, R521, R557). -/
def Device.spareAgain (d : Device) (c : Nat) : Device :=
  let q := c / 5
  let fal := d.physOf (5 * q + 4)
  let role := d.lcOf c
  let d := { d with flt := { d.flt with fencedCl := tabSet (fun _ => false) d.flt.fencedCl c true } }
  let d := d.put FLT_SPARED_CL ((d.get FLT_SPARED_CL).lor (2 ^ c))
  match role with
  | none => d
  | some lc =>
    if lc = 5 * q + 4 then (d.put (FLT_FALLOW_STATE q) fFailed).mapLc lc 0x1F
    else match fal with
      | none => d.mapLc lc 0x1F
      | some s =>
        if d.cluFenced s then d.mapLc lc 0x1F
        else (((d.mapLc lc s).mapLc (5 * q + 4) 0x1F).put (FLT_FALLOW_STATE q) fAbsent).put (FLT_FALLOW_PHYS q) 0x1F

/-- The flash record replayed, but for its banks, which are retired once their panels are known (R141, R476,
R492, R512, R557). -/
def Device.replay (d : Device) : Device :=
  let r := d.hwd.record
  let d := ((List.range 20).filter (fun c => bit r.clusters c)).foldl (fun (d : Device) c => d.spareAgain c) d
  let d := r.engines.foldl (fun (d : Device) p => { d with flt := { d.flt with
    fencedEng := tabSet (fun _ => false) d.flt.fencedEng p.1 true
    sparedEng := tabSet (fun _ => false) d.flt.sparedEng p.1 true } }) d
  let d := { d with hwd := { d.hwd with repairs := r.repairs } }
  (d.setWord ELP_WEAR_OPS (BitVec.ofNat 32 r.wearOps)).setWord ELP_WEAR_ABOVE (BitVec.ofNat 32 r.wearAbove)

/-- Steps 6 and 7 (R71, R141, R557). -/
def Device.bootApply (d : Device) (f : BootFacts) (st : Stream) : Device :=
  let d := ((d.stg stgDomains).trainDram f.dram).replay
  let d := d.applyWhole st true
  let d := (d.hwd.record.banks.filter (fun b => !d.retired b)).foldl (fun (d : Device) b => d.retireBank b) d
  d.stg stgRunning

/-- Steps 5 to 7 with a pricking: its check, what it sets, and the panels it starts (R68, R71). -/
def Device.bootPricking (d : Device) (f : BootFacts) (bs : List Byte) : Bool × Device :=
  match d.checkStream bs.length bs with
  | (_, some e) => (false, (d.pklErr e 2).bootFail 4)
  | (st, none) => (true, d.bootApply f st)

/-- One set of the flash. -/
def Device.bootSet (d : Device) (f : BootFacts) (n : Nat) (x : Option FlashSet) : Bool × Device :=
  match x with
  | none => (false, d.bootFail 1)
  | some x =>
    match d.bootImage f x.image with
    | (false, d) => (false, d)
    | (true, d) =>
      match d.bootPricking f x.pricking with
      | (false, d) => (false, d)
      | (true, d) => (true, { d with hwd := { d.hwd with gen := x.gen } }.put HWD_BOOT_SET n)

/-- A flash boot: the set with the higher generation, and the other when that one fails a check; a bad rail
ends the boot (R554, R556). -/
def Device.bootFlash (d : Device) (f : BootFacts) : Device :=
  let a := (0, d.hwd.setA)
  let b := (1, d.hwd.setB)
  let bFirst := match d.hwd.setA, d.hwd.setB with
    | some x, some y => decide (x.gen < y.gen)
    | none, some _ => true
    | _, _ => false
  let p := if bFirst then (b, a) else (a, b)
  if !f.flash then d.bootFail 5
  else match d.bootSet f p.1.1 p.1.2 with
    | (true, d) => d
    | (false, e) =>
      if e.get HWD_BOOT_ERR = 3 || p.2.2.isNone then e
      else (d.bootSet f p.2.1 p.2.2).2

/-- POR_RELEASE: POR_N rises, BOOT_MODE is sampled, and the device boots or waits for its host (R553, R556). -/
def Device.porRelease (d : Device) (mode : Nat) (f : BootFacts) : Device :=
  if d.hwd.porN then d
  else
    let d := { d with hwd := { d.hwd with porN := true } }
    let d := ((d.put HWD_BOOT_MODE mode).keyShow.put HWD_DBG_LOCK (b2n (!d.pklOpen))).stg stgFwLoad
    if mode = 3 then d.put HWD_BOOT_HOST_WAIT 1 else d.bootFlash f

def execPorRelease (mode : Fin 4) (f : BootFacts) (s : State) : Host.Outcome State Fault Refusal :=
  s.run (fun d => d.porRelease mode.val f)

/-- POR_ASSERT: power-on reset of PD_AON. The flash, the fuses and the test port keep what they hold (R583,
R592). -/
def Device.porAssert (d : Device) : Device :=
  let n := { device0 with
    hwd := { hayward0 with
      setA := d.hwd.setA, setB := d.hwd.setB, record := d.hwd.record, keys := d.hwd.keys
      revoked := d.hwd.revoked, minSec := d.hwd.minSec }
    tap := d.tap, free := d.free, out := d.out }
  n.keyShow.put HWD_DBG_LOCK (b2n (!d.pklOpen))

def execPorAssert (s : State) : Host.Outcome State Fault Refusal := s.run (fun d => d.porAssert)

/-! ### The flash record (R557) -/

/-- FLASH_RECORD_WRITE: the record takes what the device holds, or FLASH_ERR. -/
def Device.recordWrite (d : Device) (ok : Bool) : Device :=
  if ok then
    { d with hwd := { d.hwd with
      dirty := false
      record := {
        banks := d.heath.retired
        clusters := d.get FLT_SPARED_CL
        engines := d.flt.sparedEng
        repairs := d.hwd.repairs
        wearOps := d.get ELP_WEAR_OPS_SEC
        wearAbove := d.get ELP_WEAR_ABOVE_T10MS } } }
  else d.cause HWD_EV_CAUSE_FLASH_ERR 14

def execFlashRecordWrite (ok : Bool) (s : State) : Host.Outcome State Fault Refusal := s.run (fun d => d.recordWrite ok)

/-! ### What the mailbox commands do (R559) -/

/-- Statuses of R560. -/
def mOk : Nat := 0
def mBadCmd : Nat := 1
def mBadArg : Nat := 2
def mState : Nat := 3
def mAuth : Nat := 4
def mFlash : Nat := 5
def mFuse : Nat := 6
def mRestarted : Nat := 7

/-- The first n bytes of the staging buffer. -/
def Device.stageBytes (d : Device) (n : Nat) : List Byte := (List.range n).map (tabGet (fun _ => 0) d.hwd.stage)

/-- BOOT_HOST (R556). -/
def Device.bootHost (d : Device) (f : BootFacts) (phase len : Nat) : Device × Nat :=
  if 1 < phase || maxStream < len then (d, mBadArg)
  else if d.get HWD_BOOT_MODE ≠ 3 || d.hwd.phase ≠ phase then (d, mState)
  else
    let bs := d.stageBytes len
    let d := d.put HWD_BOOT_ERR 0
    if phase = 0 then
      match (d.stg stgFwLoad).bootImage f bs with
      | (true, d) => ({ d with hwd := { d.hwd with phase := 1 } }, mOk)
      | (false, d) =>
        (d.put HWD_BOOT_HOST_WAIT 1, if d.get HWD_BOOT_ERR = 3 then mOk else if d.get HWD_BOOT_ERR = 2 then mAuth else mBadArg)
    else
      match (d.stg stgPricking).bootPricking f bs with
      | (true, d) => ({ d with hwd := { d.hwd with phase := 2 } }.put HWD_BOOT_HOST_WAIT 0, mOk)
      | (false, d) => (d, if 9 ≤ d.get PKL_ERR_CODE && d.get PKL_ERR_CODE ≤ 11 then mAuth else mBadArg)

/-- KEY_PROGRAM. -/
def Device.keyProgram (d : Device) (slot : Nat) (fuse : Bool) : Device × Nat :=
  if 4 ≤ slot then (d, mBadArg)
  else if (tabGet (fun _ => none) d.hwd.keys slot).isSome then (d, mState)
  else if !fuse then (d, mFuse)
  else ({ d with hwd := { d.hwd with keys := tabSet (fun _ => none) d.hwd.keys slot (some (d.stageBytes 48)) } }.keyShow, mOk)

/-- KEY_REVOKE. -/
def Device.keyRevoke (d : Device) (slot : Nat) (fuse : Bool) : Device × Nat :=
  let good := (List.range 4).filter (fun k =>
    (tabGet (fun _ => none) d.hwd.keys k).isSome && !d.hwd.revoked.contains k && k != slot)
  if 4 ≤ slot then (d, mBadArg)
  else if good.isEmpty then (d, mState)
  else if !fuse then (d, mFuse)
  else if d.hwd.revoked.contains slot then (d, mOk)
  else ({ d with hwd := { d.hwd with revoked := d.hwd.revoked ++ [slot] } }.keyShow, mOk)

/-- SET_MIN_SEC_VER. -/
def Device.setMinSec (d : Device) (v : Nat) (fuse : Bool) : Device × Nat :=
  if 63 < v || v < d.hwd.minSec then (d, mBadArg)
  else if !fuse then (d, mFuse)
  else ({ d with hwd := { d.hwd with minSec := v } }.keyShow, mOk)

/-- The image and the pricking of a set: the pricking lies at the next 4 KiB boundary (R554). -/
def cutSet (bs : List Byte) : List Byte × List Byte :=
  let n := num bs 0x10 4
  let o := (n + 4095) / 4096 * 4096
  (bs.take n, (bs.drop o).take (num (bs.drop o) 0x10 4))

/-- Whether a stream's form and authentication hold. -/
def Device.streamAuth (d : Device) (magic : Nat) (okT : Nat → Nat → Bool) (bs : List Byte) : Bool :=
  let p := parseSections okT bs
  (headerErr magic bs.length (d.get HWD_ID_REV) bs).isNone && p.2.isNone &&
    (match p.1.getLast? with
     | some s => (d.authErr bs s).isNone
     | none => false)

/-- FLASH_SET: DATA0 is the set written. -/
def Device.flashSet (d : Device) (a n : Nat) (ok : Bool) : Device × Nat × List Nat :=
  if n = 0 || d.dramEnd < a + n then (d, mBadArg, [])
  else match d.fetch a n with
    | none => (d, mBadArg, [])
    | some bs =>
      let x := cutSet bs
      if !d.streamAuth mImage imageTargetOk x.1 || !d.streamAuth mPricking targetOk x.2 then (d, mAuth, [])
      else if !ok then (d, mFlash, [])
      else
        let g : Option FlashSet → Nat := fun s => match s with
          | some s => s.gen + 1
          | none => 0
        let toB := decide (g d.hwd.setB < g d.hwd.setA)
        let new : FlashSet := ⟨max (g d.hwd.setA) (g d.hwd.setB), x.1, x.2⟩
        let h := if toB then { d.hwd with setB := some new } else { d.hwd with setA := some new }
        ({ d with hwd := h }, mOk, [b2n toB])

/-- RECORD_READ: the layout of the record's copy is given nowhere but for the CRC-32C that ends it, so its
bytes are free values. -/
def Device.recordRead (d : Device) (a : Nat) (ok : Bool) : Device × Nat :=
  if d.dramEnd < a + 65536 then (d, mBadArg)
  else if !ok then (d, mFlash)
  else
    let bs := (List.range 65532).map (fun i => BitVec.ofNat 8 (Config.free (d.free + i)))
    ({ d with free := d.free + 65532 }.send a (bs ++ leBytes 4 (crc32c bs)), mOk)

/-! ### Removal (R562, R563) -/

/-- PREPARE_REMOVAL's steps 1 and 2: the status when it ends here. -/
def Device.prepare562 (d : Device) (force : Bool) : Device × Option Nat :=
  let r := d.role
  let fit := r == roleStandby || (r == roleActive && d.get TWN_STATUS_PEER_ROLE == roleStandby && d.on TWN_STATUS_SYNC)
  if d.hwd.removal ≠ 0 || !(fit || force) then (d, some mState)
  else
    let d := d.stg stgRemoving
    if r = roleActive then
      ({ d with hwd := { d.hwd with removal := 2, removeAt := d.time.edges } }.askTakeover 2, none)
    else ({ d with hwd := { d.hwd with removal := 3 } }, none)

/-- Step 3 at a base tick edge: every running panel stops at an edge that R21 allows, migrations and rotations are abandoned. -/
def Device.removeStops (d : Device) : Device :=
  let d := if d.get PKL_MIG_STATUS_STATE = 0 then d else d.migEnd eStopped
  let d := { d with flt := { d.flt with rotTo := none } }.put FLT_ROT_STATUS_STATE 0
  (List.range 20).foldl (fun (d : Device) p => if d.panelRuns p && d.panelEdge p then d.stopPanel p else d) d

/-- The command in progress knows its answer. -/
def Device.mbxDone (d : Device) (st : Nat) (data : List Nat) : Device :=
  { d with hwd := { d.hwd with mbx := match d.hwd.mbx with
      | [] => []
      | c :: t => { c with done := some (st, data) } :: t } }

/-- What a removal does at a base tick edge, unless a trip overrides it: the wait for the partner, which ends after eight, and steps 3
and 4. -/
def Device.removeEdge (d : Device) : Device :=
  if d.power.trip then d else match d.hwd.removal with
  | 2 =>
    if d.role ≠ roleActive then { d with hwd := { d.hwd with removal := 3 } }
    else if d.hwd.removeAt + 8 ≤ d.time.edges && d.get TWN_STATUS_PEER_ROLE ≠ roleActive then
      let d := ({ d with hwd := { d.hwd with removal := 0 } }.stg stgRunning).mbxDone mState []
      d.cause HWD_EV_CAUSE_REMOVAL_FAILED 15
    else d
  | 3 =>
    let d := d.removeStops
    if d.anyRun then d
    else
      let d := d.setPairing false
      { d with hwd := { d.hwd with removal := 4 } }
  | _ => d

/-- Steps 5 to 7. -/
def Device.removeEnd (d : Device) (ok : Bool) : Device :=
  let d := d.recordWrite ok
  let d := (List.range 64).foldl (fun (d : Device) m => d.domOff m) d
  let d := d.netOff.setLinkEn false
  { d with hwd := { d.hwd with removal := 7, ready := true } }.stg stgRemoved

/-- PCIe transmitters off, once the response is written. -/
def Device.pcieOff (d : Device) : Device :=
  (List.range 2).foldl (fun (d : Device) h => d.setHost h { d.host h with txOn := false, linkUp := false, retry := [] }) d

/-! ### The mailbox (R558, R560) -/

def cGetInfo : Nat := 0x01
def cBootHost : Nat := 0x02
def cPrepare : Nat := 0x0A
def cCancel : Nat := 0x0B

/-- What a command does when its turn comes: its status and data, or none while it goes on. -/
def Device.mbxEffect (d : Device) (c : MbxCmd) : Device × Option (Nat × List Nat) :=
  let arg := fun i => c.args.getD i 0
  let addr := arg 0 + 2 ^ 32 * (arg 1 % 2 ^ 16)
  let st := fun (p : Device × Nat) => (p.1, some (p.2, ([] : List Nat)))
  match c.code with
  | 0x01 =>
    let r := d.draw 32
    (r.2, some (mOk, [(d.word HWD_FW_VER).toNat, (d.word HWD_BOOT).toNat, r.1]))
  | 0x02 => st (d.bootHost c.boot (arg 0) (arg 1))
  | 0x03 => st (d.keyProgram (arg 0) c.ok)
  | 0x04 => st (d.keyRevoke (arg 0) c.ok)
  | 0x05 => st (d.setMinSec (arg 0) c.ok)
  | 0x06 =>
    let r := d.flashSet addr (arg 2) c.ok
    (r.1, some (r.2.1, r.2.2))
  | 0x07 => st (d.recordRead addr c.ok)
  | 0x08 =>
    let rx := (List.range 4).foldl (fun n p => n + tabGet (fun _ => 0) d.hwd.ssmRx p % 16 * 16 ^ p) 0
    (d, some (mOk, [rx, d.hwd.ssmTx]))
  | 0x09 =>
    ({ d with hwd := { d.hwd with ssmTx := arg 0 % 16, ssmMask := arg 1 % 16 } }, some (mOk, []))
  | 0x0A =>
    let r := d.prepare562 (bit (arg 0) 0)
    (r.1, r.2.map (fun n => (n, [])))
  | 0x0B => (d, some (mState, []))
  | _ => (d, some (mBadCmd, []))

/-- The command at the head, if it has not begun, runs. -/
def Device.mbxRun (d : Device) : Device :=
  match d.hwd.mbx with
  | [] => d
  | c :: _ =>
    if c.done.isSome then d
    else match d.mbxEffect c with
      | (d, some r) => d.mbxDone r.1 r.2
      | (d, none) => d

/-- Whether Hayward takes a command: before the boot has an image it runs none, and after a failed boot, or
while it waits for its host, only GET_INFO and BOOT_HOST (R556). -/
def Device.mbxTakes (d : Device) (code : Nat) : Bool :=
  let s := d.get HWD_BOOT_STAGE
  s != 0 && (!(s == stgFailed || s == stgFwLoad) || code == cGetInfo || code == cBootHost)

/-- CANCEL_REMOVAL before step 5: the removal ends, and PREPARE_REMOVAL's own status is a free value (R563). -/
def Device.cancelNow (d : Device) : Device :=
  let r := d.draw 3
  ({ r.2 with hwd := { r.2.hwd with removal := 0 } }.stg stgRunning).mbxDone r.1 []

/-- A host's write of HWD_MBX_CMD (R558). -/
def Device.mbxWrite (d : Device) (h code seq : Nat) (ok : Bool) (f : BootFacts) : Device :=
  if d.on (HWD_MBX_RSP_BUSY h) then d.put (HWD_MBX_RSP_LOST h) 1
  else
    let d := (d.put (HWD_MBX_CMD_CODE h) code).put (HWD_MBX_CMD_SEQ h) seq
    if !d.mbxTakes code then d
    else
      let d := d.put (HWD_MBX_RSP_BUSY h) 1
      let args := (List.range 8).map (fun n => d.get (HWD_MBX_ARG_ARG h n))
      let going := decide (2 ≤ d.hwd.removal) && decide (d.hwd.removal ≤ 4)
      let c : MbxCmd := ⟨h, code, seq, args, ok, f, false, none⟩
      if code = cCancel && going then
        let d := d.cancelNow
        { d with hwd := { d.hwd with mbx := d.hwd.mbx ++ [{ c with done := some (mOk, []) }] } }
      else
        let first := d.hwd.mbx.isEmpty
        let d := { d with hwd := { d.hwd with mbx := d.hwd.mbx ++ [c] } }
        if first then d.mbxRun else d

/-- The response of the command at the head (R558, R560), and the turn of the next; DATA registers a command
gives no value hold free values. -/
def Device.mbxAnswer (d : Device) (c : MbxCmd) (rest : List MbxCmd) (st : Nat) (data : List Nat) : Device :=
  let d := { d with hwd := { d.hwd with mbx := rest } }
  let d :=
    if c.drop then d
    else
      let h := c.host
      let d := (List.range 8).foldl (fun (d : Device) n =>
        match data[n]? with
        | some v => d.setWord (HWD_MBX_DATA h n) (BitVec.ofNat 32 v)
        | none => match d.draw 32 with
          | (v, d) => d.setWord (HWD_MBX_DATA h n) (BitVec.ofNat 32 v)) d
      let d := ((d.put (HWD_MBX_RSP_STATUS h) st).put (HWD_MBX_RSP_SEQ h) c.seq).put (HWD_MBX_RSP_BUSY h) 0
      (d.put (HWD_MBX_RSP_DONE h) 1).cause ⟨HWD_EV_CAUSE, h, h⟩ h
  d.mbxRun

/-- MAILBOX_RESPONSE: the head's command finishes; a removal does so once Lacework is empty, with its last
steps (R558, R562). -/
def Device.mbxRespond (d : Device) : Device :=
  match d.hwd.mbx with
  | [] => d
  | c :: t =>
    match c.done with
    | some r => d.mbxAnswer c t r.1 r.2
    | none =>
      if c.code = cPrepare && d.hwd.removal = 4 && !d.power.trip && d.lwk.flights.isEmpty && d.lwk.ready.isEmpty && d.lwk.outst.isEmpty then
        match d.drawBool with
        | (ok, d) => (((d.removeEnd ok).mbxAnswer c t mOk []).cause HWD_EV_CAUSE_REMOVAL_READY 15).pcieOff
      else d

def execMailboxResponse (s : State) : Host.Outcome State Fault Refusal := s.run (fun d => d.mbxRespond)

/-- HAYWARD_WATCHDOG (R560). -/
def execHaywardWatchdog (s : State) : Host.Outcome State Fault Refusal :=
  s.run (fun d => d.restartMbx.cause FLT_EV_CAUSE_WATCHDOG 3)

/-- A boot's facts where a command starts none. -/
def noBoot : BootFacts := ⟨true, true, [], 0⟩

def execGetInfo (h : Fin 2) (seq : BitVec 8) (s : State) : Host.Outcome State Fault Refusal :=
  s.run (fun d => d.mbxWrite h.val 0x01 seq.toNat true noBoot)

def execBootHost (h : Fin 2) (seq : BitVec 8) (f : BootFacts) (s : State) : Host.Outcome State Fault Refusal :=
  s.run (fun d => d.mbxWrite h.val 0x02 seq.toNat true f)

def execKeyProgram (h : Fin 2) (seq : BitVec 8) (fuseOk : Bool) (s : State) : Host.Outcome State Fault Refusal :=
  s.run (fun d => d.mbxWrite h.val 0x03 seq.toNat fuseOk noBoot)

def execKeyRevoke (h : Fin 2) (seq : BitVec 8) (fuseOk : Bool) (s : State) : Host.Outcome State Fault Refusal :=
  s.run (fun d => d.mbxWrite h.val 0x04 seq.toNat fuseOk noBoot)

def execSetMinSecVer (h : Fin 2) (seq : BitVec 8) (fuseOk : Bool) (s : State) : Host.Outcome State Fault Refusal :=
  s.run (fun d => d.mbxWrite h.val 0x05 seq.toNat fuseOk noBoot)

def execFlashSet (h : Fin 2) (seq : BitVec 8) (flashOk : Bool) (s : State) : Host.Outcome State Fault Refusal :=
  s.run (fun d => d.mbxWrite h.val 0x06 seq.toNat flashOk noBoot)

def execRecordRead (h : Fin 2) (seq : BitVec 8) (flashOk : Bool) (s : State) : Host.Outcome State Fault Refusal :=
  s.run (fun d => d.mbxWrite h.val 0x07 seq.toNat flashOk noBoot)

def execEsmcGet (h : Fin 2) (seq : BitVec 8) (s : State) : Host.Outcome State Fault Refusal :=
  s.run (fun d => d.mbxWrite h.val 0x08 seq.toNat true noBoot)

def execEsmcSet (h : Fin 2) (seq : BitVec 8) (s : State) : Host.Outcome State Fault Refusal :=
  s.run (fun d => d.mbxWrite h.val 0x09 seq.toNat true noBoot)

def execPrepareRemoval (h : Fin 2) (seq : BitVec 8) (s : State) : Host.Outcome State Fault Refusal :=
  s.run (fun d => d.mbxWrite h.val 0x0A seq.toNat true noBoot)

def execCancelRemoval (h : Fin 2) (seq : BitVec 8) (s : State) : Host.Outcome State Fault Refusal :=
  s.run (fun d => d.mbxWrite h.val 0x0B seq.toNat true noBoot)

end Sys2Proof.Machine
end

