-- ==== Sys2Proof/Machine/Counters.lean ====
section
/-! DEFINITION. Core counters, cluster dumps, the telemetry ring, debug access, and the base tick edge, at
which they gather (R29, R567 to R579). -/

namespace Sys2Proof.Machine
open R

/-! ### Core counters (R567 to R570) -/

/-- CLR of counter n (R569, R570). -/
def Device.hpmClear (d : Device) (c k n : Nat) : Device :=
  let d := d.syncCycles c k
  let x := d.core c k
  d.setCore c k { x with hpm := tabSet (fun _ => 0) x.hpm n 0 }

def execHpmClr (c : Fin 20) (k n : Fin 8) (s : State) : Host.Outcome State Fault Refusal :=
  s.run (fun d => d.hpmClear c.val k.val n.val)

/-! ### Cluster dumps (R571 to R574) -/

def Device.dump (d : Device) (c : Nat) : Dump := tabGet (fun _ => dump0) d.dumps c
def Device.setDump (d : Device) (c : Nat) (x : Dump) : Device :=
  { d with dumps := tabSet (fun _ => dump0) d.dumps c x }

/-- The 512 bytes of a cluster's snapshot (R572). -/
def Device.dumpBytes (d : Device) (c : Nat) : List Byte :=
  let x := d.dump c
  let mask := fun (f : Core → Bool) => (List.range 8).foldl (fun n k => n + b2n (f (d.core c k)) * 2 ^ k) 0
  let head := leBytes 4 (x.seq % 65536 + 2 ^ 16 * c + 2 ^ 21 * x.lc) ++ leBytes 4 (x.drops + 2 ^ 16 * x.skipped) ++
    leBytes 8 d.time.tick ++ leBytes 4 (d.word (CLU_CP_CNT_OPS c)).toNat ++
    leBytes 4 (d.word (CLU_CP_CNT_SQUASH c)).toNat ++ leBytes 4 (d.word (CLU_CNT_CE c)).toNat ++
    leBytes 4 (mask (fun y => y.waiting) + 2 ^ 8 * mask (fun y => y.halted)) ++ leBytes 32 0
  head ++ (List.range 8).flatMap (fun k =>
    let y := d.core c k
    leBytes 8 y.cyc ++ (List.range 8).flatMap (fun n => leBytes 6 (tabGet (fun _ => 0) y.hpm n)))

/-- A snapshot that is lost. -/
def Device.dumpDrop (d : Device) (c : Nat) : Device :=
  let x := d.dump c
  (d.setDump c { x with seq := (x.seq + 1) % 65536, drops := min (x.drops + 1) 65535 }).bump (CLU_DUMP_CNT_DROP_COUNT c) 1

/-- A snapshot that is written. -/
def Device.dumpKept (d : Device) (c : Nat) : Device :=
  let x := d.dump c
  d.setDump c { x with seq := (x.seq + 1) % 65536, drops := 0, skipped := 0 }

/-- Bytes written by a node at a Lacework address of DRAM, cluster memory or Heath payload. -/
def Device.sendFrom (d : Device) (node a : Nat) (bs : List Byte) : Device :=
  if 0x4000000000 ≤ a && a < 0x400A000000 then
    ((d.asks node a bs.length true).payWrite (a - 0x4000000000) node false (2 ^ 64 - 1) (2 ^ 64 - 1) bs []).1
  else (d.asks node a bs.length true).send a bs

/-- A record of the dump ring in Heath: eight to a tile, opened before its first and sealed after its eighth
(R574). A tile that is not FREE loses its eight records and is tried again (DESIGN CHOICE, log entry 33). -/
def Device.dumpHeath (d : Device) (c base size wr : Nat) : Device :=
  let node := clusterNode c 0
  let t := (base - 0x4000000000) / 4096 + wr / 8
  let first := (d.dump c).fill == 0
  let p := if first && decide (t < 40960) then d.opOpen t node (2 ^ 24 * 15 + 2 ^ 28 * 7) false
    else (d, if (d.dump c).tileOk then ok else tileFault cNotFree)
  let d := p.1
  let good := decide (p.2.code = 0)
  let x := d.dump c
  let bs := d.dumpBytes c
  let d := d.setDump c { x with fill := (x.fill + 1) % 8, tileOk := good }
  let d := if good then (d.sendFrom node (tileAddr t + 512 * x.fill) bs).dumpKept c else d.dumpDrop c
  if x.fill = 7 && good then
    (d.sealWith node t (d.payload t) false false 0 4096).put (CLU_DUMP_WR_WR c) ((wr + 8) % size)
  else d

/-- CLUSTER_DUMP of a cluster at a base tick edge. -/
def Device.clusterDump (d : Device) (c : Nat) : Device :=
  if !d.on (CLU_DUMP_CTRL_EN c) || d.time.tick % d.get1 (CLU_DUMP_CTRL_EVERY c) ≠ 0 || d.cluFenced c then d
  else if d.domSt c ≠ pRun && d.domSt c ≠ pDoze then
    let x := d.dump c
    d.setDump c { x with skipped := min (x.skipped + 1) 65535 }
  else
    let d := (List.range 8).foldl (fun (d : Device) k => d.syncCycles c k) d
    let base := d.addr48 (CLU_DUMP_BASE_LO_ADDR c) (CLU_DUMP_BASE_HI_ADDR c)
    let size := max 8 (d.get (CLU_DUMP_SIZE_SIZE c))
    let wr := d.get (CLU_DUMP_WR_WR c)
    let ahead := if d.on (CLU_DUMP_CTRL_HEATH c) then (d.dump c).fill + 1 else 1
    if ringRoom size wr (d.get (CLU_DUMP_RD_RD c) % size) < ahead then d.dumpDrop c
    else if d.on (CLU_DUMP_CTRL_HEATH c) then d.dumpHeath c base size wr
    else
      ((d.sendFrom (clusterNode c 0) (base + 512 * wr) (d.dumpBytes c)).dumpKept c).put (CLU_DUMP_WR_WR c) ((wr + 1) % size)

def execClusterDump (c : Fin 20) (s : State) : Host.Outcome State Fault Refusal := s.run (fun d => d.clusterDump c.val)

/-! ### Telemetry (R576, R577) -/

/-- What the collector takes at a base tick edge; at one with TICK mod 8 = 0 the millisecond ends. -/
def Device.tlmEdge (d : Device) : Device :=
  let m := d.tlm.now
  let m := { m with
    tstate := max m.tstate (d.get ELP_BUDGET_TSTATE)
    level := max m.level (d.get ELP_BUDGET_LEVEL)
    e := m.e + d.get ELP_TICK_E_E
    g := m.g + d.get ELP_TICK_E_G
    refused := m.refused + (List.range 5).foldl (fun n k => n + d.get (ELP_KIND_REFUSED k)) 0
    mandOver := m.mandOver + d.get ELP_BUDGET_MAND_OVER }
  if d.time.tick % 8 = 0 then
    let tj := (List.range 16).foldl (fun (t : Tab Int) n =>
      tabSet tj0 t (n / 4) (max (toSigned 12 (d.get (ELP_TEMP_TEMP n))) (tabGet tj0 t (n / 4)))) m.tj
    { d with tlm := { d.tlm with
      now := tlmMs0
      last := { m with tj := tj, tick := d.time.tick, bal := (d.word ELP_WEAR_BAL).toNat, vset := d.get ELP_AVS_VSET } } }
  else { d with tlm := { d.tlm with now := m } }

/-- The regulators of a rail that the board record names (R555). -/
def Device.railOf (d : Device) (rail : Nat) : List Nat :=
  (List.range 8).filter (fun r => bit (wordAt d.hwd.board (3 + r)) 7 && bits (wordAt d.hwd.board (3 + r)) 10 8 == rail)

/-- Millivolts and current of a rail: where its regulators report different voltages, which is taken is a
free value. -/
def Device.railBytes (d : Device) (rail : Nat) : List Byte × Device :=
  let rs := d.railOf rail
  let amps := rs.foldl (fun n r => n + d.get (ELP_PMB_I_DA r)) 0
  match rs with
  | [] => (leBytes 4 0, d)
  | r :: t =>
    let v := d.get (ELP_PMB_V_MV r)
    if t.all (fun q => d.get (ELP_PMB_V_MV q) == v) then (leBytes 2 v ++ leBytes 2 (min amps 65535), d)
    else match d.draw 16 with
      | (v, d) => (leBytes 2 v ++ leBytes 2 (min amps 65535), d)

/-- The rails 0 to 6 of a record. -/
def Device.rails : Device → List Nat → List Byte × Device
  | d, [] => ([], d)
  | d, r :: t =>
    let p := d.railBytes r
    let q := p.2.rails t
    (p.1 ++ q.1, q.2)

/-- A record's bytes but for the rails (R577). -/
def Device.tlmBytes (d : Device) (part : Bool) (rails : List Byte) : List Byte :=
  let m := d.tlm.last
  let tj := fun q => ofSigned 16 (tabGet tj0 m.tj q)
  leBytes 4 (d.tlm.seq % 65536 + 2 ^ 16) ++
    leBytes 4 (min d.tlm.lost 65535 + 2 ^ 16 * b2n d.flt.promoted + 2 ^ 17 * b2n part) ++ leBytes 8 m.tick ++ rails ++
    leBytes 4 0 ++ (List.range 4).flatMap (fun q => leBytes 2 (tj q)) ++
    leBytes 2 (ofSigned 16 (maxInt ((List.range 4).map (tabGet tj0 m.tj)))) ++
    leBytes 1 m.tstate ++ leBytes 1 m.level ++ leBytes 4 m.bal ++ leBytes 4 m.e ++ leBytes 4 m.g ++ leBytes 4 m.refused ++
    leBytes 1 m.mandOver ++ leBytes 1 m.vset ++ leBytes 2 0 ++
    (List.range 16).flatMap (fun i => leBytes 2 (min (tabGet (fun _ => 0) m.counts i) 65535)) ++ leBytes 144 0

/-- TELEMETRY_RECORD of the millisecond that ended last; part when a regulator gave no reading. -/
def Device.telemetry (d : Device) (part : Bool) : Device :=
  if !d.on HWD_TLM_CTRL_EN then d
  else
    let size := max 2 (d.get HWD_TLM_SIZE_SIZE)
    let wr := d.get HWD_TLM_WR_WR
    if (wr + 1) % size = d.get HWD_TLM_RD_RD % size then
      { d with tlm := { d.tlm with lost := d.tlm.lost + 1 } }.count HWD_TLM_LOST_COUNT 1
    else
      match d.rails (List.range 7) with
      | (rails, d) =>
        let d := d.sendFrom d.aon (d.addr48 HWD_TLM_BASE_LO_ADDR HWD_TLM_BASE_HI_ADDR + 256 * wr) (d.tlmBytes part rails)
        { d with tlm := { d.tlm with seq := (d.tlm.seq + 1) % 65536, lost := 0 } }.put HWD_TLM_WR_WR ((wr + 1) % size)

def execTelemetryRecord (part : Bool) (s : State) : Host.Outcome State Fault Refusal := s.run (fun d => d.telemetry part)

/-! ### Debug access and lock (R578, R579) -/

/-- Whether R388 allows an interrupt before a core's oldest uncommitted bundle, IE apart. -/
def Core.between (x : Core) : Bool := x.branch.isNone && x.loops.isEmpty

/-- Halts a core. -/
def Device.haltCore (d : Device) (c k : Nat) : Device :=
  let d := d.squash c k
  d.setCore c k { d.core c k with halted := true, step := false }

/-- A requested halt takes place at the first point that allows one; no request is heard while LOCK is 1
(R578, R579). -/
def Device.dbgTry (d : Device) (c k : Nat) : Device :=
  let x := d.core c k
  if bit (d.get (CLU_DBG_CTRL_HALT c)) k && !d.on HWD_DBG_LOCK && !x.halted && x.between then d.haltCore c k else d

/-- A halted core resumes, and takes at WAIT what waits for it. -/
def Device.resumeCore (d : Device) (c k : Nat) : Device :=
  let x := d.core c k
  if !x.halted then d
  else
    let d := d.setCore c k { x with halted := false, step := false, pass := true }
    (if x.waiting && x.restore then d.coreTake c k else d).schedule

/-- A write of the HALT field: a bit requests a halt, and its clearing resumes the core, whatever halted it. -/
def Device.dbgHalt (d : Device) (c v : Nat) : Device :=
  (List.range 8).foldl (fun (d : Device) k => if bit v k then d.dbgTry c k else d.resumeCore c k)
    (d.put (CLU_DBG_CTRL_HALT c) v)

/-- A write of the STEP field: a halted core is to commit one bundle. -/
def Device.dbgStep (d : Device) (c v : Nat) : Device :=
  (List.range 8).foldl (fun (d : Device) k =>
    if bit v k && (d.core c k).halted then d.setCore c k { d.core c k with step := true, pass := true } else d) d

/-- Debug writes are discarded and recorded while LOCK is 1. -/
def Device.dbgWrite (d : Device) (r : Req) (off : Nat) (f : Device → Device) : Device :=
  if d.on HWD_DBG_LOCK then d.accessRec (0x4800000000 + off) (d.reqNode r) 0 else f d

/-- LOCK is set, and every halted core resumes (R579). -/
def Device.dbgLock (d : Device) : Device :=
  (List.range 160).foldl (fun (d : Device) i => d.resumeCore (i / 8) (i % 8)) (d.put HWD_DBG_LOCK 1)

def execDebugHalt (r : Req) (c : Fin 20) (v : BitVec 8) (s : State) : Host.Outcome State Fault Refusal :=
  s.run (fun d => d.dbgWrite r (CLU_DBG_CTRL c.val) (fun d => d.dbgHalt c.val v.toNat))

def execDebugStep (r : Req) (c : Fin 20) (v : BitVec 8) (s : State) : Host.Outcome State Fault Refusal :=
  s.run (fun d => d.dbgWrite r (CLU_DBG_CTRL c.val) (fun d => d.dbgStep c.val v.toNat))

def execDebugLock (s : State) : Host.Outcome State Fault Refusal := s.run (fun d => d.dbgLock)

/-! ### The base tick edge (R29) -/

/-- The roles of dumping clusters as an edge finds them, before a swap at that edge (R573). -/
def Device.dumpRoles (d : Device) : Device :=
  (List.range 20).foldl (fun (d : Device) c =>
    if d.on (CLU_DUMP_CTRL_EN c) then d.setDump c { d.dump c with lc := d.lcField c } else d) d

/-- BASE_TICK_EDGE: the tick and the ledger, the port clocks' edges, the lanes' windows, the statistics window, a removal in progress,
the telemetry collector, and the Dispatcher. -/
def Device.tickEdge (d : Device) (domE : List Nat) : Device :=
  let d := (d.tbcTick.edge domE).lanesEdge
  let d := { d with lwk := { d.lwk with statEdges := d.lwk.statEdges + 1 } }
  (d.dumpRoles.removeEdge.tlmEdge).schedule

def execBaseTickEdge (l : LedgerInputs) (s : State) : Host.Outcome State Fault Refusal :=
  s.run (fun d => d.tickEdge l.domE)

end Sys2Proof.Machine
end

