-- ==== Sys2Proof/Machine/Views.lean ====
section
/-! DEFINITION. Registers whose value follows from other state: what a read of them shows. -/

namespace Sys2Proof.Machine
open R

/-- The index of an offset in an array of registers. -/
def idx (base stride n off : Nat) : Option Nat :=
  if base ≤ off && (off - base) % stride == 0 && decide ((off - base) / stride < n) then some ((off - base) / stride) else none

/-! ### Signal cores (R409) -/

/-- The interrupts pending on a core, bit n − 16 for code n: EVENT is a level (R507). -/
def Device.intPend (d : Device) (c k : Nat) : Nat :=
  let p := (d.word (CX_INT_PEND c k)).toNat % 32
  let ev := match d.lcOf c with
    | some l => (d.coreEvent l k).isSome
    | none => false
  putBits p 1 1 (b2n ev)

/-- CX_LOOP n: level 0 is the outermost. -/
def Core.loopWord (x : Core) (n : Nat) : Nat :=
  match x.loops.reverse[n]? with
  | some l => l.count % 65536 + 65536 * ((l.stop + 32 - l.start) / 32 % 1024)
  | none => 0

/-- A CSR of core k of physical cluster c, the counters apart. -/
def Device.csrView (d : Device) (c k num : Nat) : Option Nat :=
  let x := d.core c k
  let w := (d.word (0x2000000 + 0x80000 * c + 0x1000 * k + num)).toNat
  if num = 0x000 then some (putBits w 9 8 x.loops.length)
  else if num = 0x064 then some (d.intPend c k)
  else (idx 0x070 4 3 num).map x.loopWord

/-! ### Engines -/

/-- STATE of an engine's status: fenced, Off, running while commands are queued, else idle. -/
def Device.engState (d : Device) (kind i dom : Nat) (busy : Bool) : Nat :=
  if d.engFenced kind i then 2 else if d.domSt dom = pOff then 3 else if busy then 1 else 0

/-- Commands queued. -/
def Device.qDepth (d : Device) (target i : Nat) : Nat := (d.engine (engKey target i)).queue.length

def Device.feStatus (d : Device) (e : Nat) : Nat :=
  let q := d.qDepth 1 e
  d.engState 2 e (40 + e / 4) (q != 0) + 4 * q

def Device.preStatus (d : Device) (p : Nat) : Nat :=
  let q := d.qDepth 3 p
  let o := (tabGet (fun _ => []) d.occs p).length
  d.engState 4 p (40 + 2 * p) (q != 0 || o != 0) + 4 * b2n (decide (1 ≤ o)) + 8 * b2n (decide (2 ≤ o)) + 16 * q

def Device.mxeStatus (d : Device) (m : Nat) : Nat :=
  let q := d.qDepth 2 m
  d.engState 3 m (48 + m) (q != 0) + 4 * q

def Device.fecGrpStatus (d : Device) (q : Nat) : Nat :=
  let g := tabGet (fun _ => fecGroup0) d.fec q
  g.cmds.length % 64 + 64 * ((List.range 3).foldl (fun n i => n + b2n (d.fecBusy (3 * q + i)) * 2 ^ i) 0) +
    512 * b2n (g.cmds.any (·.wait)) + 65536 * (g.checkQ.length % 32)

def Device.fecEngStatus (d : Device) (e : Nat) : Nat := d.engState 5 e (52 + engGroup e) (d.fecBusy e)

/-- FEC_ENG_EV_CAUSE with GROUP for the first engine of a group (R302). -/
def Device.fecCause (d : Device) (e : Nat) : Nat :=
  putBits (d.word (FEC_ENG_EV_CAUSE e)).toNat 1 1 (b2n (e < 12 && e % 3 == 0 && d.word (FEC_GRP_CAUSE (e / 3)) != 0))

/-! ### The Dispatcher (R368) -/

/-- DSP_PANEL_STATUS p. -/
def Device.panelStatus (d : Device) (p : Nat) : Nat :=
  let ready := (d.panelItems p).filter (fun q => q.2.st == .ready)
  (d.panelItems p).length + 2 ^ 13 * ready.length + 2 ^ 26 * ready.foldl (fun n q => max n q.2.level) 0

/-! ### Lacework (R116, R121, R575) -/

/-- LWK_RT: word w of router i's table of an epoch. -/
def Device.rtWord (d : Device) (i e w : Nat) : Nat :=
  let t := d.rt e
  if w < 20 then (if t.phys w < 20 then clusterNode (t.phys w) 0 else 0)
  else if w < 26 then (List.range 8).foldl (fun n j => n + t.xrowOf i (8 * (w - 20) + j) % 8 * 16 ^ j) 0
  else 0

/-- LWK_STAT: the snapshot of the selected node at an offset from LWK_STAT_BYTES_LO. -/
def Device.statView (d : Device) (o : Nat) : Option Nat :=
  let s := tabGet (fun _ => stat0) d.lwk.snap (d.get LWK_STAT_IDX_NODE)
  let sat := fun n => min n (2 ^ 32 - 1)
  match o with
  | 0x00 => some (s.bytes % 2 ^ 32)
  | 0x04 => some (s.bytes / 2 ^ 32 % 2 ^ 16)
  | 0x08 => some (sat s.pkts)
  | 0x0C => some (sat s.np)
  | 0x10 => some (s.tgtBytes % 2 ^ 32)
  | 0x14 => some (s.tgtBytes / 2 ^ 32 % 2 ^ 16)
  | 0x18 => some (sat s.tgtPkts)
  | _ => (idx 0x38 4 16 o).map (fun n => sat (s.hist.getD n 0))

/-! ### Heath (R146) -/

/-- HTH_BANK_STATE with STATE 3 of a bank whose domain is Off; a retired one reads RETIRED (DEDUCED, log entry 49). -/
def Device.bankView (d : Device) (b : Nat) : Nat :=
  let w := (d.word (HTH_BANK_STATE b)).toNat
  if !d.retired b && d.domSt (20 + b / 4) = pOff then putBits w 1 0 3 else w

/-! ### The fault queue (R510, R513) -/

/-- The eight words of a record. -/
def FaultRec.words (r : FaultRec) : List Nat :=
  [r.cls + 16 * r.action + 64 * b2n r.recurrence + 65536 * r.seq,
   r.kind % 256 + 256 * (r.index % 256) + 65536 * r.core + 2 ^ 19 * b2n r.coreV + 2 ^ 20 * r.lc,
   r.addr % 2 ^ 32, r.addr / 2 ^ 32 % 2 ^ 16 + 2 ^ 16 * (r.req % 1024), r.tick % 2 ^ 32, r.tick / 2 ^ 32,
   r.detail % 2 ^ 32, r.event % 512]

/-- Word n of the record at a place of the queue; 0 where there is none. -/
def Device.faultWord (d : Device) (i n : Nat) : Nat :=
  match d.flt.queue[i]? with
  | some r => r.words.getD n 0
  | none => 0

/-- FLT_STATUS with COUNT and FULL. -/
def Device.faultStatus (d : Device) : Nat :=
  let n := d.flt.queue.length
  putBits (d.word FLT_STATUS).toNat 7 0 (n + 128 * b2n (decide (64 ≤ n)))

/-! ### Lanes of the twin and the network (R172, R546) -/

/-- Whether the link of a twin lane (64 to 71) or a network lane (72 to 79) is enabled. -/
def Device.linkOn (d : Device) (n : Nat) : Bool :=
  if n < 64 then false
  else if n < 72 then d.on TWN_CTRL_LINK_EN
  else match d.lanePort (n - 72) with
    | some p => bit (d.get NET_CTRL_PORT_EN) p
    | none => false

/-- RLN_QUAD_CFG of quads 16 to 19: LANE_EN follows the link enables. -/
def Device.quadCfg (d : Device) (k : Nat) : Nat :=
  putBits (d.word (RLN_QUAD_CFG k)).toNat 7 4 ((List.range 4).foldl (fun n i => n + b2n (d.linkOn (4 * k + i)) * 2 ^ i) 0)

/-! ### Every computed register -/

/-- Cores of a cluster halted by debug. -/
def Device.haltedMask (d : Device) (c : Nat) : Nat :=
  (List.range 8).foldl (fun n k => n + b2n (d.core c k).halted * 2 ^ k) 0

/-- What a read of the register at an offset shows a requester, where it is not the register's own word. -/
def Device.view (d : Device) (r : Req) (off : Nat) : Option Nat :=
  if off < 0x100000 then none
  else if off < 0x200000 then
    if off = EVF_NEXT then some (match d.nextEvent r with
      | some n => n + 2 ^ 31
      | none => 0)
    else none
  else if off < 0x300000 then
    if off = TTB_TICK_HI then some (tabGet (fun _ => 0) d.time.latchHi (reqNum r) % 2 ^ 32)
    else if off = TTB_TOD_SEC_LO then some (tabGet (fun _ => 0) d.time.latchSec (reqNum r) % 2 ^ 32)
    else if off = TTB_TOD_SEC_HI then some (tabGet (fun _ => 0) d.time.latchSec (reqNum r) / 2 ^ 32 % 2 ^ 16)
    else none
  else if off < 0x400000 then
    if off = PKL_PANEL_ID then some (tabGet (fun _ => 0) d.pkl.panelId (d.get PKL_PANEL_SEL_PANEL)) else none
  else if off < 0x500000 then
    if off = ELP_AGE_DATA then some (tabGet (fun _ => 0) d.power.osc (d.get ELP_AGE_SEL_OSC)) else none
  else if off < 0x600000 then
    if off = FLT_STATUS then some d.faultStatus
    else (idx (FLT_HEAD 0) 4 8 off).map (d.faultWord 0) <|>
      (idx (FLT_PEEK 0) 4 8 off).map (d.faultWord (d.get FLT_PEEK_IDX_IDX))
  else if off < 0x800000 then
    if off = LWK_OLD_INFLIGHT then some (min d.oldCount 65535)
    else if off = LWK_EPOCH then some ((d.put LWK_EPOCH_DRAINED (b2n (d.oldCount == 0))).word LWK_EPOCH).toNat
    else if LWK_STAT_BYTES_LO ≤ off && off < LWK_STAT_BYTES_LO + 0x78 then d.statView (off - LWK_STAT_BYTES_LO)
    else if off = DSP_HSUB_LO then some (tabGet (fun _ => 0) d.dsp.hsubLo (reqNum r))
    else if off = DSP_HSUB_HI then some (tabGet (fun _ => 0) d.dsp.hsubHi (reqNum r))
    else (idx (DSP_PANEL_STATUS 0) 0x100 20 off).map d.panelStatus <|>
      (if LWK_RT 0 0 0 ≤ off && off < LWK_RT 96 0 0 then
        some (d.rtWord ((off - LWK_RT 0 0 0) / 0x100) ((off - LWK_RT 0 0 0) / 0x80 % 2) ((off - LWK_RT 0 0 0) % 0x80 / 4))
       else none)
  else if off < 0xA00000 then (idx (RLN_QUAD_CFG 16) 0x10 4 off).map (fun k => d.quadCfg (16 + k))
  else if off < 0x1800000 then none
  else if off < 0x2000000 then (idx (HTH_BANK_STATE 0) 4 80 off).map d.bankView
  else if off < 0x2A00000 then
    let c := (off - 0x2000000) / 0x80000
    let o := (off - 0x2000000) % 0x80000
    if o < 0x8000 then d.csrView c (o / 0x1000) (o % 0x1000)
    else if off = CLU_DBG_STATUS c then some (d.haltedMask c)
    else none
  else if off < 0x3A00000 then (idx (FFE_ENG_STATUS 0) 0x20 32 off).map d.feStatus
  else if off < 0x3C00000 then (idx (MXE_STATUS 0) 0x100 4 off).map d.mxeStatus
  else if off < 0x3E00000 then
    (idx (FEC_GRP_STATUS 0) 0x100 4 off).map d.fecGrpStatus <|> (idx (FEC_ENG_STATUS 0) 0x20 24 off).map d.fecEngStatus <|>
      (idx (FEC_ENG_EV_CAUSE 0) 0x20 24 off).map d.fecCause <|> (idx (FEC_ENC_STATUS 0) 0x100 4 off).map (d.qDepth 5)
  else (idx (PRE_STATUS 0) 0x100 4 off).map d.preStatus

end Sys2Proof.Machine
end

