-- ==== Sys2Proof/Machine/Access.lean ====
section
/-! DEFINITION. Reads and writes of the register map: the access codes, what the pricking owns, and the
registers with a rule of their own (R6, R7, R25, R26, R67, R172, R409, R506, R543, R544, R556, R569). -/

namespace Sys2Proof.Machine
open R

/-! ### The register at an offset -/

/-- The row of the register at a BAR0 offset; none where no table lists one. -/
def regRow (off : Nat) : Option RegRow :=
  match regBlocks.find? (fun b => decide (b.1 ≤ off) && decide (off ≤ b.2.1)) with
  | none => none
  | some b => b.2.2.find? (fun r => r.holds off)

/-- Indexes of an offset in an array of arrays. -/
def idx2 (base s1 n1 s2 n2 off : Nat) : Option (Nat × Nat) :=
  if off < base then none
  else match idx 0 s2 n2 ((off - base) % s1) with
    | some c => if (off - base) / s1 < n1 then some ((off - base) / s1, c) else none
    | none => none

/-- A word as a read returns it: WO fields read 0 (R6). -/
def RegRow.shown (r : RegRow) (w : Nat) : Nat :=
  r.fields.foldl (fun n f => match f.acc with
    | .wo => putBits n f.hi f.lo 0
    | _ => n) w

/-- A word after a read: RC fields cleared (R6). -/
def RegRow.cleared (r : RegRow) (w : Nat) : Nat :=
  r.fields.foldl (fun n f => match f.acc with
    | .rc => putBits n f.hi f.lo 0
    | _ => n) w

/-- A word after a write of v (R6). -/
def RegRow.written (r : RegRow) (w v : Nat) : Nat :=
  r.fields.foldl (fun n f =>
    let x := bits v f.hi f.lo
    match f.acc with
    | .rw => putBits n f.hi f.lo x
    | .rws => putBits n f.hi f.lo x
    | .w1c => putBits n f.hi f.lo ((bits w f.hi f.lo).xor ((bits w f.hi f.lo).land x))
    | _ => n) w

/-- Write-1-to-clear bits that hardware sets in the same cycle as a write end set (R8). -/
def RegRow.same (r : RegRow) (w hw : Nat) : Nat :=
  r.fields.foldl (fun n f => if f.acc = .w1c then putBits n f.hi f.lo ((bits n f.hi f.lo).lor (bits hw f.hi f.lo)) else n) w

/-- Whether a write of v touches what the pricking owns: a register all of whose fields it owns, or an owned
field whose value v would change (R67). -/
def RegRow.hitsOwned (r : RegRow) (w v : Nat) : Bool :=
  r.fields.any (fun f => f.owned) &&
    (r.fields.all (fun f => f.owned) || r.fields.any (fun f => f.owned && bits w f.hi f.lo != bits v f.hi f.lo))

/-- A read of a register that has no rule of its own. -/
def Device.plainRead (d : Device) (off : Nat) (row : RegRow) : Device × Nat :=
  let w := (d.word off).toNat
  (d.setWord off (BitVec.ofNat 32 (row.cleared w)), row.shown w)

/-- A write of a register that has no rule of its own. -/
def Device.plainWrite (d : Device) (off : Nat) (row : RegRow) (v : Nat) : Device :=
  d.setWord off (BitVec.ofNat 32 (row.written (d.word off).toNat v))

/-- A discarded write, recorded with its requester and address (R67). -/
def Device.discard (d : Device) (r : Req) (off : Nat) : Device := d.accessRec (0x4800000000 + off) (d.reqNode r) 0

/-- Nanoseconds into a base tick, measured (log entry 5). -/
def Device.drawInto (d : Device) : Nat × Device :=
  match d.drawTime 18 with
  | (t, d) => (t % (d.time.nextEdge - d.time.tod), d)

/-- The facts of a boot that a register write starts. -/
def Device.drawBoot (d : Device) : BootFacts × Device :=
  let n := d.free
  (⟨Config.freeBool n, Config.freeBool (n + 1), (List.range 6).map (fun k => Config.freeBool (n + 3 + k)),
    ⟨Config.free (n + 2) % 25, Nat.mod_lt _ (by decide)⟩⟩, { d with free := n + 9 })

/-! ### Hayward's windows (R506, R543, R556) -/

/-- The staging buffer's byte that an offset of the window reaches. -/
def Device.stageAt (d : Device) (off : Nat) : Nat := d.get HWD_STAGE_PAGE_PAGE * 0x40000 + (off - 0x40000)

def Device.stageRead (d : Device) (off : Nat) : Nat :=
  leNat ((List.range 4).map (fun i => tabGet (fun _ => 0) d.hwd.stage (d.stageAt off + i)))

def Device.stageWrite (d : Device) (off v : Nat) : Device :=
  let a := d.stageAt off
  { d with hwd := { d.hwd with
    stage := ((leBytes 4 v).zipIdx).foldl (fun t p => tabSet (fun _ => 0) t (a + p.2) p.1) d.hwd.stage } }

/-- Word o of host h's MSI-X table or pending bit array, by offset from 0x1_0000 (the layouts are PCIe's). -/
def Device.msixRead (d : Device) (h o : Nat) : Nat :=
  let m := d.msix h
  if o < 0x1800 then
    match o % 16 / 4 with
    | 0 => tabGet (fun _ => 0) m.addr (o / 16) % 2 ^ 32
    | 1 => tabGet (fun _ => 0) m.addr (o / 16) / 2 ^ 32
    | 2 => tabGet (fun _ => 0) m.data (o / 16)
    | _ => b2n (tabGet (fun _ => true) m.mask (o / 16))
  else (List.range 32).foldl (fun n i => n + b2n (tabGet (fun _ => false) m.pend ((o - 0x2000) * 8 + i)) * 2 ^ i) 0

def Device.msixWrite (d : Device) (h o v : Nat) : Device :=
  let m := d.msix h
  let e := o / 16
  if 0x1800 ≤ o then d
  else match o % 16 / 4 with
    | 0 => d.setMsix h { m with addr := tabSet (fun _ => 0) m.addr e (tabGet (fun _ => 0) m.addr e / 2 ^ 32 * 2 ^ 32 + v) }
    | 1 => d.setMsix h { m with addr := tabSet (fun _ => 0) m.addr e (tabGet (fun _ => 0) m.addr e % 2 ^ 32 + v * 2 ^ 32) }
    | 2 => d.setMsix h { m with data := tabSet (fun _ => 0) m.data e v }
    | _ => if bit v 0 then d.setMsix h { m with mask := tabSet (fun _ => true) m.mask e true } else d.unmask h e

/-- Whether an offset lies in the MSI-X table or the pending bit array. -/
def msixOff (off : Nat) : Bool :=
  (decide (0x10000 ≤ off) && decide (off < 0x11800)) || (decide (0x12000 ≤ off) && decide (off < 0x12030))

/-- The host a requester is. -/
def reqHost : Req → Option Nat
  | .hostA => some 0
  | .hostB => some 1
  | _ => none

/-- The core that issues, for a semaphore. -/
def reqCore : Req → Nat
  | .core _ k => k.val
  | _ => 0

/-! ### Core counters and CSRs (R409, R569) -/

/-- The latch of a requester for a LO register. -/
def latchKey (r : Req) (off : Nat) : Nat := 2 ^ 26 * reqNum r + off

/-- A counter register of core k, brought up to date: a LO read latches the HI half for its requester. -/
def Device.counterRead (d : Device) (r : Req) (c k num : Nat) : Option (Device × Nat) :=
  let off := 0x2000000 + 0x80000 * c + 0x1000 * k + num
  let lo := fun (f : Core → Nat) =>
    let d := d.syncCycles c k
    let v := f (d.core c k)
    ({ d with csrLatch := tabSet (fun _ => 0) d.csrLatch (latchKey r off) (v / 2 ^ 32) }, v % 2 ^ 32)
  let hi := (d, tabGet (fun _ => 0) d.csrLatch (latchKey r (off - 4)))
  if num = 0x200 then some (lo (fun x => x.cyc))
  else if num = 0x204 then some hi
  else match idx 0x208 8 8 num with
    | some n => some (lo (fun x => tabGet (fun _ => 0) x.hpm n))
    | none => match idx 0x20C 8 8 num, idx 0x150 4 8 num with
      | some _, _ => some hi
      | none, some n =>
        let d := d.syncCycles c k
        some (d, (d.word (CX_HPM_CTL c k n)).toNat)
      | none, none => none

/-- Whether four frames of 5 KiB from a save area's base lie in Y memory (R394, R409). -/
def saveOk (base : Nat) : Bool := decide (0x20000 ≤ base) && decide (base + 4 * 5120 ≤ 0x40000)

/-- CX_TROUTE without the fields of codes 0, 6 and 11. -/
def routeMask (v : Nat) : Nat := v.land (2 ^ 32 - 1 - (3 + 3 * 2 ^ 12 + 3 * 2 ^ 22))

/-- A write of a CSR of core k that is let through. -/
def Device.csrPut (d : Device) (c k num v : Nat) (own : Bool) : Device :=
  let off := 0x2000000 + 0x80000 * c + 0x1000 * k + num
  match regRow off with
  | none => d
  | some row =>
    if num = 0x01C then d.plainWrite off row (routeMask v)
    else if num = 0x024 then (if saveOk (v / 1024 * 1024) then d.plainWrite off row v else d)
    else if num = 0x040 then d.doneWrite c k (v % 65536)
    else if num = 0x064 then (if bit v 4 then d.put (CX_INT_PEND_SOFT c k) (b2n (!own)) else d)
    else
      match idx 0x150 4 8 num with
      | some n =>
        let d := (d.syncCycles c k).plainWrite off row v
        if bit v 9 then d.hpmClear c k n else d
      | none => d.plainWrite off row v

/-- A write of a CSR by a requester other than the core: SOFT by any, the rest by Hayward while the core is idle
or halted. -/
def Device.csrOther (d : Device) (r : Req) (c k num v : Nat) : Device :=
  if num = 0x064 then d.csrPut c k num v false
  else if r == .hayward && (d.on (CX_STATUS_IDLE c k) || (d.core c k).halted || (d.core c k).dead) then
    d.csrPut c k num v false
  else d.discard r (0x2000000 + 0x80000 * c + 0x1000 * k + num)

/-- SOFT_INTERRUPT_SET: a write of a core's CX_INT_PEND by a requester; its own write clears SOFT. -/
def execSoftInterruptSet (r : Req) (c : Fin 20) (k : Fin 8) (v : Word) (s : State) : Host.Outcome State Fault Refusal :=
  s.run (fun d => d.csrPut c.val k.val 0x064 v.toNat (r == .core c k))

/-! ### Reads -/

/-- A read of a register of Hayward's block with a rule of its own. -/
def Device.hwdRead (d : Device) (r : Req) (off : Nat) : Option (Device × Nat) :=
  if msixOff off then some (match reqHost r with
    | some h => (d, d.msixRead h (off - 0x10000))
    | none => (d, 0))
  else if 0x40000 ≤ off && off < 0x80000 then some (d, d.stageRead off)
  else (idx 0x1000 4 128 off).map (fun n => d.semRead n (d.reqNode r) (reqCore r))

/-- A read of the register at a BAR0 offset: none is answered DECODE_ERR. That an access to a reserved offset of a listed
block is answered so is a DESIGN CHOICE (log entry 50): the spec calls it reserved and gives no answer. -/
def Device.regRead (d : Device) (r : Req) (off : Nat) : Option (Device × Nat) :=
  if off % 4 ≠ 0 then none
  else if off < 0x100000 && (d.hwdRead r off).isSome then d.hwdRead r off
  else match regRow off with
    | none => none
    | some row =>
      if (0xC80000 ≤ off && off < 0xD00000) || (0xD80000 ≤ off && off < 0xE00000) then none
      else if off = TTB_TICK_LO then some (d.readTickLo r)
      else if off = TTB_TOD_NS then some (match d.drawInto with
        | (t, d) => d.readTodNs r t)
      else if off = DSP_HSUB_GO then
        let hi := tabGet (fun _ => 0) d.dsp.hsubHi (reqNum r)
        let lo := tabGet (fun _ => 0) d.dsp.hsubLo (reqNum r)
        some (match d.draw 16 with
          | (i, d) => d.submit r (bits hi 20 16) (lo + 2 ^ 32 * bits hi 15 0) true true i)
      else match idx (DSP_OLDEST_WAIT 0) 0x100 20 off, (List.range 4).find? (fun p => NET_TXTS_TAG p == off) with
        | some p, _ =>
          if (d.panelItems p).any (fun q => q.2.st == .ready) then some (match d.drawTime 32 with
            | (t, d) => (d, t))
          else some (d, 0)
        | none, some p => some (d.txtsPop p)
        | none, none =>
          match d.view r off with
          | some v => some (d, v)
          | none =>
            if 0x2000000 ≤ off && off < 0x2A00000 && (off - 0x2000000) % 0x80000 < 0x8000 then
              let c := (off - 0x2000000) / 0x80000
              let o := (off - 0x2000000) % 0x80000
              match d.counterRead r c (o / 0x1000) (o % 0x1000) with
              | some p => some p
              | none => some (d.plainRead off row)
            else
              let p := d.plainRead off row
              some (if off = LWK_ECC_CE then ({ p.1 with lwk := { p.1.lwk with ceSince := 0 } }, p.2) else p)

/-! ### Writes -/

/-- A write of RLN_LANE_TEST: on a lane in use only its cleared bits are taken, and a bit it sets is recorded (R170). -/
def Device.laneTest (d : Device) (r : Req) (n v : Nat) : Device :=
  let busy := d.laneBusy n || d.linkOn n
  let set_ := fun f i => if busy && !d.on f then 0 else v / i
  let d' := (d.put (RLN_LANE_TEST_GEN n) (set_ (RLN_LANE_TEST_GEN n) 1)).put (RLN_LANE_TEST_CHECK n) (set_ (RLN_LANE_TEST_CHECK n) 2)
  if busy && ((bit v 0 && !d.on (RLN_LANE_TEST_GEN n)) || (bit v 1 && !d.on (RLN_LANE_TEST_CHECK n))) then
    d'.discard r (RLN_LANE_TEST n)
  else d'

/-- A write of word w of quad k, 16 to 19: discarded while a link of the quad is enabled (R172). -/
def Device.quadWrite (d : Device) (k w v : Nat) : Device :=
  if (List.range 4).any (fun i => d.linkOn (4 * k + i)) then d
  else
    let off := RLN_QUAD_CFG k + 4 * w
    match regRow off with
    | some row => d.plainWrite off row v
    | none => d

/-- A write of a register of Hayward's block with a rule of its own. -/
def Device.hwdWrite (d : Device) (r : Req) (off v : Nat) : Option Device :=
  if msixOff off then some (match reqHost r with
    | some h => d.msixWrite h (off - 0x10000) v
    | none => d)
  else if 0x40000 ≤ off && off < 0x80000 then some (d.stageWrite off v)
  else if off = HWD_DBG then some (if bit v 0 then d.dbgLock else d)
  else match idx 0x1000 4 128 off, idx (HWD_MBX_CMD 0) 0x100 2 off with
    | some n, _ => some (d.semWrite n (d.reqNode r) (reqCore r) v)
    | none, some h =>
      let p := d.drawBool
      let q := p.2.drawBoot
      some (q.2.mbxWrite h (v % 256) (bits v 15 8) p.1 q.1)
    | none, none => none

/-- Writes of the always-on and fabric blocks with a rule of their own. -/
def Device.blockWrite (d : Device) (r : Req) (off v : Nat) : Option Device :=
  if off < 0x100000 then d.hwdWrite r off v
  else if off < 0x200000 then
    if off = EVF_FORCE then some (d.pulse (v % 512)) else (idx (EVF_PEND 0) 4 12 off).map (fun w => d.clearPend w v)
  else if off < 0x300000 then
    if off = TTB_CTRL then some (d.writeTtbCtrl v)
    else if off = TTB_STEP_CTRL then some (d.writeStepCtrl v)
    else if off = TTB_FRAME then some (d.writeFrame v)
    else if off = TTB_FREQ_ADJ then some (d.writeFreqAdj r v)
    else none
  else if off < 0x400000 then
    if off = PKL_CTRL then some (match d.drawBool with
      | (b, d) => d.pklCommand r v (v % 8) b)
    else if off = PKL_MIG_CTRL then some (d.migRequest r v)
    else none
  else if off < 0x500000 then
    if (off = ELP_WEAR_OPS || off = ELP_WEAR_ABOVE) && r != .hayward then some d else none
  else if off < 0x600000 then
    if off = FLT_POP then some (d.popFault (v % 65536))
    else if off = FLT_UNFENCE then some (d.askUnfence (v % 256) (bits v 15 8))
    else none
  else if off < 0x800000 then
    if off = LWK_TRC_CTRL then some (d.writeTrcCtrl v)
    else if off = DSP_DEP_DEC then some (d.depDec v).schedule
    else if off = DSP_CANCEL then some (d.cancelItem v)
    else if off = DSP_HSUB_LO then some { d with dsp := { d.dsp with hsubLo := tabSet (fun _ => 0) d.dsp.hsubLo (reqNum r) v } }
    else if off = DSP_HSUB_HI then
      some { d with dsp := { d.dsp with hsubHi := tabSet (fun _ => 0) d.dsp.hsubHi (reqNum r) (v % 2 ^ 21) } }
    else none
  else if off < 0xA00000 then
    (idx (RLN_LANE_TEST 0) 0x40 80 off).map (fun n => d.laneTest r n v) <|>
      (idx2 (RLN_QUAD_CFG 16) 0x10 4 4 3 off).map (fun p => d.quadWrite (16 + p.1) p.2 v)
  else if off < 0xD00000 then (if off = NET_CTRL then some (d.writeNetCtrl v) else none)
  else if off < 0xE00000 then (if off = TWN_CTRL then some (d.writeTwnCtrl v) else none)
  else if off < 0x1000000 then
    (idx (TBC_CTRL 0) 0x100 2 off).map (fun p => (d.tbcSeen p).writeTbcCtrl p v) <|>
      (idx (TBC_SWAP_REQ 0) 0x100 2 off).map (fun p => match (d.tbcSeen p).drawInto with
        | (t, d) => d.tbcRequest p v t)
  else none

/-- Writes of DMA, DRAM and cluster registers with a rule of their own. -/
def Device.unitWrite (d : Device) (r : Req) (off v : Nat) : Option Device :=
  if off < 0x1400000 then
    let ch := fun (b : Nat) => idx2 b 0x80000 8 0x100 32 off
    (idx (DMA_SWREQ 0) 0x80000 8 off).map (fun e => d.dmaSw e v) <|>
      (ch (DMA_CH_CTRL 0 0)).map (fun p => (d.dmaCtrl p.1 p.2 v).schedule) <|>
      (ch (DMA_CH_SH_DESC_LO 0 0)).map (fun p => d.dmaShadow p.1 p.2 0 v) <|>
      (ch (DMA_CH_SH_DESC_HI 0 0)).map (fun p => d.dmaShadow p.1 p.2 1 v) <|>
      (ch (DMA_CH_SH_CFG 0 0)).map (fun p => d.dmaShadow p.1 p.2 2 v) <|>
      (ch (DMA_CH_SH_COMMIT 0 0)).map (fun p => d.dmaCommit p.1 p.2 v)
  else if off < 0x1800000 then
    if off = DRC_CT_FREE then some (d.ctFreeWrite v)
    else if off = DRC_PPR_CTRL then some (d.pprGo v)
    else none
  else if 0x2000000 ≤ off && off < 0x2A00000 then
    let c := (off - 0x2000000) / 0x80000
    let o := (off - 0x2000000) % 0x80000
    if o < 0x8000 then some (d.csrOther r c (o / 0x1000) (o % 0x1000) v)
    else if off = CLU_DBG_CTRL c then
      some (d.dbgWrite r off (fun d => (d.dbgHalt c (v % 256)).dbgStep c (bits v 15 8)))
    else none
  else none

/-- What follows a plain write: clearing PKL_STATUS.ERR clears PKL_ERR, and a channel's causes its bit of
DMA_ENG_EV_PEND. -/
def Device.afterWrite (d : Device) (off v : Nat) : Device :=
  if off = PKL_STATUS then (if bit v 8 then d.setWord PKL_ERR 0 else d)
  else match idx2 (DMA_CH_EV_CAUSE 0 0) 0x80000 8 0x100 32 off with
    | some p =>
      let m := d.get (DMA_ENG_EV_PEND_CH p.1)
      d.put (DMA_ENG_EV_PEND_CH p.1) (putBits m p.2 p.2 (b2n (d.word off != 0)))
    | none => d

/-- A write of the register at a BAR0 offset: none is answered DECODE_ERR. -/
def Device.regWrite (d : Device) (r : Req) (off v : Nat) : Option Device :=
  if off % 4 ≠ 0 then none
  else if off < 0x100000 && (msixOff off || (0x40000 ≤ off && off < 0x80000)) then d.hwdWrite r off v
  else match regRow off with
    | none => none
    | some row =>
      if (0xC80000 ≤ off && off < 0xD00000) || (0xD80000 ≤ off && off < 0xE00000) then none
      else if row.hitsOwned (d.word off).toNat v then
        let w := row.written (d.word off).toNat v
        some ((d.setWord off (BitVec.ofNat 32 w)).discard r off)
      else match (if off < 0x1000000 then d.blockWrite r off v else d.unitWrite r off v) with
        | some d => some d
        | none =>
          match (if 0xE10000 ≤ off && off < 0xE20000 then idx2 (TBC_TABLE 0 0 0) 0x1000 16 4 1024 off else none) with
          | some p => some ((d.tbcSeen (p.1 / 8)).tbcWrite (p.1 / 8) (p.1 % 8) p.2 [BitVec.ofNat 32 v]).1
          | none =>
            let dbg := 0x2000000 ≤ off && off < 0x2A00000 &&
              (idx (CLU_DBG_BP ((off - 0x2000000) / 0x80000) 0) 4 2 off).isSome
            if dbg then some (d.dbgWrite r off (fun d => d.plainWrite off row v))
            else some ((d.plainWrite off row v).afterWrite off v)

/-! ### Meanings -/

/-- A write that decodes to nothing: a host's is discarded and recorded, another is answered DECODE_ERR (R26). -/
def Device.badAccess (d : Device) (r : Req) (off : Nat) : Device :=
  match reqHost r with
  | some _ => d.accessRec (0x4800000000 + off) (d.reqNode r) 2
  | none => d.emit (.resp (d.reqNode r) decodeErr)

/-- REGISTER_WRITE; same holds the write-1-to-clear bits that hardware sets in the same cycle (R6, R8, R67). -/
def execRegisterWrite (r : Req) (off : BitVec 26) (v same : Word) (s : State) : Host.Outcome State Fault Refusal :=
  s.run (fun d =>
    match d.regWrite r off.toNat v.toNat, regRow off.toNat with
    | none, _ => d.badAccess r off.toNat
    | some d, none => d
    | some d, some row => d.setWord off.toNat (BitVec.ofNat 32 (row.same (d.word off.toNat).toNat same.toNat)))

def execLaneTestWrite (r : Req) (n : Fin 80) (v : Word) (s : State) : Host.Outcome State Fault Refusal :=
  s.run (fun d => d.laneTest r n.val v.toNat)

def execTwinQuadCfgWrite (k : Fin 4) (w : Fin 3) (v : Word) (s : State) : Host.Outcome State Fault Refusal :=
  s.run (fun d => d.quadWrite (16 + k.val) w.val v.toNat)

end Sys2Proof.Machine
end

