-- ==== Sys2Proof/Machine/Serve.lean ====
section
/-! DEFINITION. What a target does with a request that reaches it, and the boundary routers on the way:
memories, Heath, registers and the windows among them (R17, R90 to R95, R98, R109 to R114, R125 to R134,
R341, R436, R444, R460, R468, R473, R527, R544, R548, R575). -/

namespace Sys2Proof.Machine
open R

/-! ### Requests -/

/-- A request as its target sees it. size is how many bytes of a memory a LEN = 0 access moves (DESIGN
CHOICE, log entry 34). -/
structure Ask where
  cmd : Nat
  src : Nat
  who : Req
  addr : Nat
  units : Nat
  size : Nat
  inl : Nat
  data : List Byte
  firstBE : Nat
  lastBE : Nat
  prov : Bool
  verify : Bool
  barrier : Bool
  /-- Class, carrier tick stamp and WAKE of the header (R89, R102). -/
  cls : Nat
  tick : Nat
  wake : Bool
  deriving DecidableEq, Repr

/-- What the memory that is reached meets: a corrected symbol or bit, an uncorrectable error, tiles whose headers fail
their check; an uncorrectable error of an access to Heath is that of every header it reaches. -/
structure MemFact where
  ce : Option Nat
  ue : Bool
  heads : List Nat
  deriving DecidableEq, Repr

def clean : MemFact := ⟨none, false, []⟩

/-- The headers, of those an access reaches, that fail their check. -/
def MemFact.bad (f : MemFact) (ts : List Nat) : List Nat := if f.ue then ts else f.heads

def allBE : Nat := 2 ^ 64 - 1

/-- A read or a write of n bytes by an initiator inside the device, in class 7: Hayward's and the test port's (R102). -/
def askRead (src : Nat) (who : Req) (a n : Nat) (verify : Bool) : Ask :=
  ⟨cRd, src, who, a, if n % 64 = 0 then n / 64 else 0, n, 0, [], allBE, allBE, false, verify, false, 7, 0, false⟩
def askWrite (src : Nat) (who : Req) (a : Nat) (bs : List Byte) (prov barrier : Bool) : Ask :=
  ⟨cWr, src, who, a, if bs.length % 64 = 0 then bs.length / 64 else 0, bs.length, leNat (bs.take 8), bs, allBE, allBE,
    prov, false, barrier, 7, 0, false⟩

/-- The requester that a node is, as far as the node tells it. -/
def Device.nodeReq (d : Device) (n : Nat) : Req :=
  if n = hostNode 0 then .hostA else if n = hostNode 1 then .hostB else if n = d.aon then .hayward
  else .node (BitVec.ofNat 10 n)

/-- The address a request to node n has there: of a logical-view cluster address, that of the physical cluster that the
packet's epoch has sent it to (R16, R105). -/
def viewAt (n a : Nat) : Nat :=
  if 0x5000000000 ≤ a && a < 0x5014000000 then
    match nodeCluster n with
    | some c => cluBase c + a % 2 ^ 24
    | none => a
  else a

/-- A packet's request, at its destination. -/
def Device.askOf (d : Device) (p : Packet) : Ask :=
  ⟨p.cmd.toNat, p.src.toNat, d.nodeReq p.src.toNat, viewAt p.dest.toNat p.addr.toNat, p.len.toNat,
    if p.cmd.toNat = cWr && p.addr.toNat % 8 ≠ 0 then 4 else 8,
    p.inl.toNat, p.data, p.firstBE.toNat, p.lastBE.toNat, p.prov, p.verify, p.barrier, p.cls.toNat, p.tick.toNat, p.wake⟩

/-- Bytes it moves, and the address of the first. -/
def Ask.count (q : Ask) : Nat := if q.units = 0 then q.size else 64 * q.units
def Ask.base (q : Ask) : Nat := if q.units = 0 then q.addr else q.addr / 64 * 64

/-- The bytes a write carries. -/
def Ask.bytes (q : Ask) : List Byte := if q.units = 0 then leBytes q.size q.inl else q.data.take (64 * q.units)

/-! ### Memories (R460, R468, R469, R473) -/

/-- Whether a write leaves out a byte of a unit of w bytes at an address it reaches. -/
def Ask.partly (q : Ask) (w : Nat) : Bool :=
  q.units = 0 && (q.size % w != 0 || q.base % w != 0) ||
    q.units ≠ 0 && (q.firstBE % 2 ^ 64 != allBE || (1 < q.units && q.lastBE % 2 ^ 64 != allBE))

/-- Bursts a partial write reads first. -/
def Ask.rmwLines (q : Ask) (p : Nat) : List Nat :=
  if q.units = 0 then linesOf p q.size
  else (if q.firstBE % 2 ^ 64 != allBE then [p] else []) ++
    (if 1 < q.units && q.lastBE % 2 ^ 64 != allBE then [p + 64 * (q.units - 1)] else [])

/-- An access of kept memory from p. -/
def Device.memServe (d : Device) (q : Ask) (p : Nat) (f : MemFact) : Device × Resp :=
  let n := q.count
  let dram := decide (p < 2 ^ 38)
  let rmw := q.cmd == cWr && q.partly (if dram then 64 else 8)
  let reads := q.cmd != cWr || rmw
  let lost := dram && (if q.cmd = cWr then (q.rmwLines p).any (fun l => d.unreadable l 1) else d.unreadable p n)
  if reads && (f.ue || lost) then
    (if dram then d.dramUe p q.src false
     else d.ueLog ((p - 0x5400000000) % 2 ^ 24 / 8 * 8) (32 + (p - 0x5400000000) / 2 ^ 24) false, targetErr)
  else
    let d := match (if reads then f.ce else none) with
      | some pos =>
        if dram then d.dramCe p pos rmw else d.cluCe ((p - 0x5400000000) / 2 ^ 24) ((p - 0x5400000000) % 2 ^ 24) pos rmw
      | none => d
    if q.cmd = cRd then
      let bs := d.bytes p n
      (d, ⟨0, if q.units = 0 then leNat bs else 0, false, false, bs⟩)
    else if q.cmd = cWr then
      (if q.units = 0 then d.store p q.bytes else (d.storeBE p q.firstBE q.lastBE q.bytes).touched p n, ok)
    else
      let old := d.load p 8
      (d.storeNat p 8 (if q.cmd = cAdd then old + q.inl else q.inl), okInl old)

/-! ### Heath (R125, R127, R131, R133) -/

def Device.payServe (d : Device) (q : Ask) (f : MemFact) : Device × Resp :=
  let o := q.base - 0x4000000000
  let bad := f.bad (tilesOf o q.count)
  if q.cmd = cRd then
    (if q.units = 64 && o % 4096 = 0 then d.readWhole (o / 4096) q.src q.verify (bad.contains (o / 4096))
     else match d.readPart o q.count q.src q.verify bad with
       | (d, r) => (d, { r with inl := if r.code = 0 && q.units = 0 then leNat r.data else r.inl }))
  else if q.cmd = cWr then d.payWrite o q.src q.prov q.firstBE q.lastBE q.bytes bad
  else (d, decodeErr)

def Device.hdrServe (d : Device) (q : Ask) (f : MemFact) : Device × Resp :=
  let o := q.base - 0x4400000000
  let bad := f.bad ((List.range ((o % 32 + q.count + 31) / 32)).map (o / 32 + ·))
  if q.cmd = cRd then
    match d.readHdr o q.count bad with
    | (d, r) => (d, { r with inl := if r.code = 0 && q.units = 0 then leNat r.data else r.inl })
  else if q.cmd = cWr && q.units = 0 then d.headerWrite o q.src q.inl q.barrier (bad.contains (o / 32))
  else (d, decodeErr)

/-! ### Registers and windows -/

/-- Container windows (R444). -/
def Device.ctrServe (d : Device) (q : Ask) (g : Nat) : Device × Resp :=
  if q.cmd = cRd then d.ctrPop g q.units
  else if q.cmd = cWr then d.ctrPush g (bit q.inl 0) (if q.units = 0 then [] else q.bytes)
  else (d, decodeErr)

/-- Queue windows of the network (R548). -/
def Device.netServe (d : Device) (q : Ask) (w : Nat) : Device × Resp :=
  let j := 8 * (w / 16) + w % 8
  if q.units = 0 || 32 ≤ w then (d, decodeErr)
  else if q.cmd = cRd && w % 16 < 8 then
    d.netPop j q.units
  else if q.cmd = cWr && 8 ≤ w % 16 then d.netPush j q.prov q.bytes
  else (d, decodeErr)

/-- Message windows of the twin (R527). -/
def Device.msgServe (d : Device) (q : Ask) (g : Nat) : Device × Resp :=
  if q.units = 0 || 2 ≤ g then (d, decodeErr)
  else if q.cmd = cRd then d.twinPop g q.units
  else if q.cmd = cWr then d.twinPush g q.bytes
  else (d, decodeErr)

/-- The core that issues a semaphore access: a cluster node places it in INLINE (R544). -/
def Ask.issuer (q : Ask) : Nat :=
  match q.who with
  | .core _ k => k.val
  | _ => bits q.inl 34 32

def Device.semServe (d : Device) (q : Ask) (n : Nat) : Device × Resp :=
  if q.units ≠ 0 then (d, decodeErr)
  else if q.cmd = cRd then
    match d.semRead n q.src q.issuer with
    | (d, v) => (d, okInl v)
  else if q.cmd = cWr then (d.semWrite n q.src q.issuer (q.inl % 2 ^ 32), ok)
  else (d, decodeErr)

/-- DSP_SUBMIT takes a LEN = 0 ATOM_SWAP and nothing else (R341, R368). -/
def Device.subServe (d : Device) (q : Ask) (p : Nat) : Device × Resp :=
  if q.cmd = cSwap && q.units = 0 then
    match d.draw 16 with
    | (i, d) => match d.submit q.who p (q.inl % 2 ^ 48) (q.inl / 2 ^ 48 == 0) true i with
      | (d, v) => (d, okInl v)
  else (d, decodeErr)

/-- Words of a register access of data units, in ascending order; the first that decodes to nothing ends it
(DESIGN CHOICE, log entry 34). -/
def Device.regWords (d : Device) (q : Ask) (off : Nat) : List Nat → List Byte → Device × Resp
  | [], acc => (d, { ok with data := acc })
  | i :: t, acc =>
    if q.cmd = cRd then
      match d.regRead q.who (off + 4 * i) with
      | some (d, v) => d.regWords q off t (acc ++ leBytes 4 v)
      | none => (d, decodeErr)
    else if (List.range 4).all (fun b => enabled q.firstBE q.lastBE (64 * q.units) (4 * i + b)) then
      match d.regWrite q.who (off + 4 * i) (wordAt q.data i) with
      | some d => d.regWords q off t acc
      | none => (d, decodeErr)
    else d.regWords q off t acc

/-- A register access at a BAR0 offset (R25, R90). -/
def Device.regServe (d : Device) (q : Ask) (off : Nat) : Device × Resp :=
  if 0xB00000 ≤ off && off < 0xB80000 then d.ctrServe q ((off - 0xB00000) / 0x100)
  else if 0xC80000 ≤ off && off < 0xD00000 then d.netServe q ((off - 0xC80000) / 0x1000)
  else if 0xD80000 ≤ off && off < 0xE00000 then d.msgServe q ((off - 0xD80000) / 0x1000)
  else if 0x1000 ≤ off && off < 0x1200 then d.semServe q ((off - 0x1000) / 4)
  else if 0x781000 ≤ off && off < 0x781000 + 0x100 * 20 && (off - 0x781000) % 0x100 < 8 then
    (if off % 8 = 0 then d.subServe q ((off - 0x781000) / 0x100) else (d, decodeErr))
  else if isAtom q.cmd then (d, decodeErr)
  else if q.units ≠ 0 then d.regWords q off (List.range (16 * q.units)) []
  else if q.cmd = cRd then
    match d.regRead q.who off with
    | some (d, v) => (d, okInl v)
    | none => (d, decodeErr)
  else match d.regWrite q.who off (q.inl % 2 ^ 32) with
    | some d => (d, ok)
    | none => (d, decodeErr)

/-! ### At the target -/

/-- The answer of the target a request has reached. -/
def Device.serve (d : Device) (q : Ask) (f : MemFact) : Device × Resp :=
  let a := q.base
  if !(q.cmd = cRd || q.cmd = cWr || isAtom q.cmd) then (d, decodeErr)
  else if 0x4000000000 ≤ a && a < 0x400A000000 then d.payServe q f
  else if 0x4400000000 ≤ a && a < 0x4400140000 then d.hdrServe q f
  else if 0x4800000000 ≤ a && a < 0x4804000000 then d.regServe q (q.addr - 0x4800000000)
  else match d.place a, d.place (a + (q.count - 1)) with
    | some p, some e =>
      if e ≠ p + (q.count - 1) then (d, decodeErr)
      else if p < 2 ^ 38 && d.chanRetired (d.dramMap p).1 then (d, targetErr)
      else d.memServe q p f
    | _, _ => (d, decodeErr)

/-- Bytes a request carries: 64 per data unit, 8 of a LEN = 0 write. -/
def Ask.load (q : Ask) : Nat := if q.cmd = cWr then (if q.units = 0 then 8 else 64 * q.units) else 0

/-! ### An access made whole by an initiator inside the device -/

/-- The header of a request to node n, as its initiator makes it. -/
def Ask.packet (q : Ask) (n : Nat) (posted : Bool) : Packet where
  dest := BitVec.ofNat 10 n
  src := BitVec.ofNat 10 q.src
  cmd := BitVec.ofNat 6 q.cmd
  len := BitVec.ofNat 8 q.units
  tag := 0
  cls := BitVec.ofNat 3 q.cls
  epoch := false
  tick := BitVec.ofNat 12 q.tick
  addr := BitVec.ofNat 48 q.addr
  posted := posted
  barrier := q.barrier
  wake := q.wake
  prov := q.prov
  verify := q.verify
  resp := 0
  xrow := 0
  la := 0
  firstBE := BitVec.ofNat 64 q.firstBE
  lastBE := BitVec.ofNat 64 q.lastBE
  inl := BitVec.ofNat 64 q.inl
  data := q.data

/-- Whether a node refuses requests with PROV: a PCIe endpoint, or a network port (R98). -/
def refusesProv (n : Nat) : Bool := isPcieNode n || isNetNode n

/-- A request and its answer in one: injected in the current epoch, its header past the probes of its path, served, and
answered the same way back (log entry 35). -/
def Device.access (d : Device) (q : Ask) (posted : Bool) (f : MemFact) : Device × Resp :=
  let e := d.get LWK_EPOCH_CUR
  if d.injectBad (q.packet 0 posted) then (d.lwErr LWK_ERR_INJ_DECODE 268 (q.packet 0 posted), decodeErr)
  else match d.resolve e q.addr with
    | .answer r => (if r.code = 2 then d.lwErr LWK_ERR_INJ_DECODE 268 (q.packet 0 posted) else d, r)
    | .node n =>
      let p := d.launch (q.packet n posted) (e == 1)
      let d := ((d.statInject p).probePath p).statEject n q.load
      let answered := fun (x : Device × Resp) =>
        let d := if posted then x.1 else x.1.statDone p true
        if x.2.code = 0 && !pktAwaits p then (d, x.2)
        else ((d.probePath (d.launch (respPacket p x.2) p.epoch)).statEject q.src
          (if x.2.code = 0 && q.cmd = cRd then 64 * q.units else 0), x.2)
      if q.prov && refusesProv n then answered (d.lwErr LWK_ERR_PROV_REFUSED 270 p, targetErr)
      else match d.portAnswer n with
        | some r => answered (if r.code = 1 then d.pulse 269 else d, r)
        | none => answered (d.serve { q with addr := viewAt n q.addr } f)

/-! ### PACKET_RECEIVE (R91, R92, R96, R98, R101, R103, R111 to R113) -/

/-- A request at a closed port: held when it has WAKE, at most 4 data units and room, else ASLEEP (R111,
R112). -/
def Device.closedPort (d : Device) (p : Packet) (m : Nat) : Device :=
  let mine := (d.lwk.held.filter (fun h => h.2.domain == some m)).length
  if p.wake && p.len.toNat ≤ 4 && mine < 8 then
    ({ d with lwk := { d.lwk with held := d.lwk.held ++ [(p, HoldWhy.wake m)] } }).wakeReq m
  else
    let d := if p.wake then (d.wakeReq m).lwErr LWK_ERR_HOLD_OVF 263 p else d
    (d.pulse 269).reply p asleep

/-- A DRAM channel's endpoint, if a node is one. -/
def nodeChannel (n : Nat) : Option Nat := (List.range 6).find? (fun k => dramNode k == n)

/-- The replica, while it is not promoted: it answers no access and raises no event (R13). -/
def Device.isReplica (d : Device) (n : Nat) : Bool := n == aonNode 1 && !d.flt.promoted

/-- A request that has left the mesh at its destination, poisoned or not. -/
def Device.deliver (d : Device) (p : Packet) (poison : Bool) (g : MemFact) : Device :=
  let n := p.dest.toNat
  let c := p.cmd.toNat
  let q := d.askOf p
  let d := d.statEject n q.load
  if d.isReplica n then d
  else if !hasEndpoint n then d.reply p decodeErr
  else match d.portAnswer n with
    | some r =>
      (match nodeDomain n with
       | some m => if r.code = 1 then d.closedPort p m else d.reply p r
       | none => d.reply p r)
    | none =>
      if poison then d.reply p targetErr
      else if p.prov && refusesProv n then (d.lwErr LWK_ERR_PROV_REFUSED 270 p).reply p targetErr
      else if c = cEvent then d.pulse (p.inl.toNat % 512)
      else if c = cBell then (if isFecNode n || (List.range 4).any (fun m => meNode m == n) then
        { d with bells := d.bells ++ [(n, p.src.toNat, p.inl.toNat)] } else d)
      else match nodeChannel n with
        | some k =>
          if !(c = cRd || c = cWr || isAtom c) then d.reply p decodeErr
          else if d.chanRetired k then d.reply p targetErr
          else { d with dram := { d.dram with
            queue := tabSet (fun _ => []) d.dram.queue k (tabGet (fun _ => []) d.dram.queue k ++ [p]) } }
        | none => match d.serve q g with
          | (d, r) => d.reply p r

/-- Corrected link errors of a packet; EV258 when their count passes 2^16 since its last read (R92, R120). -/
def Device.linkCe (d : Device) (ce : Nat) : Device :=
  let old := d.lwk.ceSince
  let d := { d with lwk := { d.lwk with ceSince := old + ce } }.count LWK_ECC_CE_COUNT ce
  if old ≤ 65536 && 65536 < old + ce then d.pulse 258 else d

/-- Whether packets of a domain's hold buffer are being delivered before flight f may pass its port (R113). -/
def Device.behindHeld (d : Device) (n : Nat) (f : Flight) : Bool :=
  match nodeDomain f.pkt.dest.toNat with
  | none => false
  | some m => (match f.wakeOf with
      | some _ => d.lwk.flights.take n
      | none => d.lwk.flights).any (fun h => h.wakeOf == some m)

/-- A header moves on to the router its output leads to (R101, R103): its new input, its next output, its units
behind it. -/
def Device.hop (d : Device) (n : Nat) (f : Flight) (inp : Nat) : Device :=
  let p := aimed f.pkt (inp / 13)
  let f := { f with pkt := p, trail := ⟨inp, 1, d.lwk.moves⟩ :: f.trail }
  ({ d with lwk := { d.lwk with moves := d.lwk.moves + 1 } }.setFlights (d.lwk.flights.set n
    { f with trail := match f.trail with
      | g :: h :: t => g :: { h with units := h.units - 1 } :: t
      | t => t })).probe inp p

/-- A header leaves the mesh at its destination: a request is delivered; a response is left to RESPONSE_RECEIVE. -/
def Device.eject (d : Device) (n : Nat) (f : Flight) (g : MemFact) : Device :=
  if isResp f.pkt.cmd.toNat then
    (d.setFlights (d.lwk.flights.set n { f with trail := [], left := 0, taken := true })).statEject f.pkt.dest.toNat
      (64 * f.pkt.len.toNat)
  else (d.dropFlight n).deliver f.pkt f.poison g

/-- PACKET_RECEIVE of packet n of those under way: its header takes the output it is aimed at, once the output grants
its virtual channel and a credit is there. A crossing receiver and the destination router check HCRC; a poisoned flit
goes on to its target or its initiator, marked. -/
def Device.receive (d : Device) (n waited : Nat) (crcBad poison : Bool) (ce : Nat) (g : MemFact) : Device :=
  match d.lwk.flights[n]? with
  | none => d
  | some f =>
    match f.at? with
    | none =>
      -- out of a hold buffer: past the port, in the order of arrival there
      if f.wakeOf.isNone || d.behindHeld n f then d else (d.dropFlight n).deliver f.pkt f.poison g
    | some a =>
      let r := a.inp / 13
      let la := f.pkt.la.toNat
      let inp := farInput r la
      if !d.mayGo f waited || (la < 8 && !isResp f.pkt.cmd.toNat && d.behindHeld n f) then d
      else
        let d := (d.linkCe ce).granted r la f.pkt.cls.toNat
        if crcBad && (la < 8 || la = 12) then (d.dropFlight n).lwErr LWK_ERR_HDR_CRC 256 f.pkt
        else
          let d := if poison then d.poisoned f.pkt (if la < 8 then 0 else inp) else d
          let f := { f with poison := f.poison || poison }
          if la < 8 then d.eject n f g else (d.hop n f inp).pumped

def execPacketReceive (n waited : Nat) (crcBad poison : Bool) (ce : Nat) (mce : Option (Fin 160)) (mue : Bool)
    (hchkBad : List (Fin 40960)) (s : State) : Host.Outcome State Fault Refusal :=
  s.run (fun d => d.receive n waited crcBad poison ce ⟨mce.map (·.val), mue, hchkBad.map (·.val)⟩)

/-! ### DRAM_ACCESS (R460) -/

/-- The priority of a class (R460, R478). -/
def Device.qosPrio (d : Device) (cls : Nat) : Nat := bits (d.get DRC_QOS_PRIO) (3 * cls + 2) (3 * cls)

/-- The request a channel serves next: the highest priority, then the oldest. -/
def Device.dramNext (d : Device) (k : Nat) : Option Packet :=
  (tabGet (fun _ => []) d.dram.queue k).foldl (fun (b : Option Packet) p => match b with
    | none => some p
    | some q => if d.qosPrio q.cls.toNat < d.qosPrio p.cls.toNat then some p else some q) none

/-- DRAM_ACCESS of a channel: nothing while it holds requests back; a channel since retired answers
TARGET_ERR. -/
def Device.dramServe (d : Device) (k : Nat) (g : MemFact) : Device :=
  match d.dramNext k with
  | none => d
  | some p =>
    let take := fun (d : Device) => { d with dram := { d.dram with
      queue := tabSet (fun _ => []) d.dram.queue k ((tabGet (fun _ => []) d.dram.queue k).erase p) } }
    if d.chanRetired k then (take d).reply p targetErr
    else if !d.chanLive k then d
    else match (take d).serve (d.askOf p) g with
      | (d, r) => d.reply p r

def execDramAccess (k : Fin 6) (ce : Option (Fin 160)) (ue : Bool) (s : State) : Host.Outcome State Fault Refusal :=
  s.run (fun d => d.dramServe k.val ⟨ce.map (·.val), ue, []⟩)

end Sys2Proof.Machine
end

