-- ==== Sys2Proof/Machine/DmaRun.lean ====
section
/-! DEFINITION. DMA bursts: arbitration, and the data a burst moves from its source to its destination
(R435, R438 to R447, R450, R451). -/

namespace Sys2Proof.Machine
open R

/-! ### The byte stream (R438, R441) -/

/-- Plane and offset within it of stream byte i on the planar side. -/
def planeAt (w : Nat → Nat) (i : Nat) : Nat × Nat :=
  if kShuf w = 1 || kShuf w = 2 then
    let e := i / kEw w
    (e % kPlanes w, e / kPlanes w * kEw w + i % kEw w)
  else if kShuf w = 3 || kShuf w = 4 then
    let g := i / kG w
    if i % kG w = 0 then (0, g) else (1, g * (kG w - 1) + i % kG w - 1)
  else (0, i)

/-- Planes of the planar side; SPLIT and BFP_SPLIT have it at the destination, MERGE and BFP_JOIN at the source. -/
def planeNum (w : Nat → Nat) : Nat :=
  if kShuf w = 1 || kShuf w = 2 then kPlanes w else if kShuf w = 0 then 1 else 2
def srcPlanar (w : Nat → Nat) : Bool := kShuf w == 2 || kShuf w == 4
def dstPlanar (w : Nat → Nat) : Bool := kShuf w == 1 || kShuf w == 3

/-- Stream byte i's plane and offset on a side. -/
def sideAt (w : Nat → Nat) (planar : Bool) (i : Nat) : Nat × Nat := if planar then planeAt w i else (0, i)

/-- Stream bytes of a chunk that lie in plane k of a side, in order. -/
def inPlane (w : Nat → Nat) (planar : Bool) (k pos n : Nat) : List Nat :=
  (List.range n).filter (fun i => (sideAt w planar (pos + i)).1 == k)

/-- Pieces of m bytes from offset o of a plane's tile list: entry, offset in its tile, bytes. The plane takes
every p-th entry from k. -/
def tilePieces (l : List Byte) (p k o m : Nat) : List (Nat × Nat × Nat) :=
  (((List.range (lCount l)).filter (fun j => j % p == k)).foldl (fun (b : Nat × List (Nat × Nat × Nat)) j =>
    let lo := max o b.1
    let hi := min (o + m) (b.1 + lBytes l j)
    (b.1 + lBytes l j, if lo < hi then b.2 ++ [(j, lo - b.1, hi - lo)] else b.2)) (0, [])).2

/-! ### Requests (R439, R440, R444) -/

/-- Whether an address lies in a window of a framer, a network queue or the twin's messages. -/
def isWindow (a : Nat) : Bool :=
  (decide (0x4800B00000 ≤ a) && decide (a < 0x4800B80000)) || (decide (0x4800C80000 ≤ a) && decide (a < 0x4800D00000)) ||
    (decide (0x4800D80000 ≤ a) && decide (a < 0x4800E00000))

/-- Runs of m bytes from an address: whole 4 KiB pages when it rises, one unit at a time when it is fixed, one
access of a window, or accesses of w bytes. -/
def dmaRuns (fixed : Bool) (w a m : Nat) : List (Nat × Nat) :=
  if w < 64 then (List.range (m / w)).map (fun i => (if fixed then a else a + w * i, w))
  else if fixed && isWindow a then [(a, m)]
  else if fixed then (List.range ((m + 63) / 64)).map (fun i => (a, min 64 (m - 64 * i)))
  else (List.range ((a + m - 1) / 4096 + 1 - a / 4096)).map (fun i =>
    let lo := max a (4096 * (a / 4096 + i))
    (lo, min (a + m) (4096 * (a / 4096 + i) + 4096) - lo))

/-- 64-byte units that m bytes from an address touch. -/
def unitCount (a m : Nat) : Nat := (a % 64 + m + 63) / 64

/-- Byte enables from byte lo up to byte hi. -/
def beMask (lo hi : Nat) : Nat := 2 ^ min 64 hi - 2 ^ min lo (min 64 hi)

/-- The read and the write of one run. -/
def runRead (src w a m : Nat) (verify : Bool) : Ask :=
  let who := Req.node (BitVec.ofNat 10 src)
  if w < 64 then ⟨cRd, src, who, a, 0, w, 0, [], allBE, allBE, false, verify, false, 1, 0, false⟩
  else ⟨cRd, src, who, a / 64 * 64, unitCount a m, 0, 0, [], allBE, allBE, false, verify, false, 1, 0, false⟩
def runWrite (src w a : Nat) (bs : List Byte) (prov barrier : Bool) (inl : Nat) : Ask :=
  let who := Req.node (BitVec.ofNat 10 src)
  let m := bs.length
  let n := unitCount a m
  if w < 64 then ⟨cWr, src, who, a, 0, w, leNat bs, [], allBE, allBE, prov, false, barrier, 1, 0, false⟩
  else ⟨cWr, src, who, a / 64 * 64, n, 0, inl,
    List.replicate (a % 64) 0 ++ bs ++ List.replicate (64 * n - a % 64 - m) 0,
    beMask (a % 64) (a % 64 + m), beMask 0 ((a % 64 + m) - 64 * (n - 1)), prov, false, barrier, 1, 0,
    false⟩

/-- A header operation. -/
def headerAsk (src t op inl : Nat) (prov : Bool) : Ask :=
  ⟨cWr, src, .node (BitVec.ofNat 10 src), 0x4400000000 + 32 * t + op, 0, 8, inl, [], allBE, allBE, prov, false, op == 8, 1, 0, false⟩

/-! ### Requests that would not be served (R450) -/

/-- Whether a window holds too little for a pop or too little room for a push. -/
def Device.windowShort (d : Device) (q : Ask) : Bool :=
  let off := q.addr - 0x4800000000
  if 0xB00000 ≤ off && off < 0xB80000 then q.cmd == cRd && decide ((d.ctr ((off - 0xB00000) / 0x100)).queue.length < q.units)
  else if 0xC80000 ≤ off && off < 0xD00000 then
    let w := (off - 0xC80000) / 0x1000
    let j := 8 * (w / 16) + w % 8
    if w % 16 < 8 then q.cmd == cRd && decide ((d.rxq j).length < q.units)
    else q.cmd == cWr && !q.prov && decide (txCap < (d.txq j).length + q.units)
  else if 0xD80000 ≤ off && off < 0xE00000 then
    let g := (off - 0xD80000) / 0x1000
    if q.cmd = cRd then decide ((tabGet (fun _ => []) d.twin.msgRx g).length < q.units)
    else decide (msgCap < (tabGet (fun _ => []) d.twin.msgTx g).length + q.units)
  else false

/-- The answer of a request that is not served where it goes, before anything is moved: ASLEEP, TARGET_ERR. -/
def Device.askStop (d : Device) (q : Ask) : Option Resp :=
  if d.injectBad (q.packet 0 false) then none
  else match d.resolve (d.get LWK_EPOCH_CUR) q.addr with
    | .answer r => if r.code = 3 then some r else none
    | .node n =>
      match d.portAnswer n with
      | some r => some r
      | none =>
        match nodeChannel n with
        | some k => if d.chanRetired k then some targetErr else none
        | none => if isWindow q.addr && d.windowShort q then some targetErr else none

/-! ### Moving a chunk -/

/-- What a chunk in progress has come to: the device, and the error that ends it, code and RESP. -/
structure Move where
  dev : Device
  err : Option (Nat × Nat)

/-- A request of a channel: WAKE, class and TICK as its controls and its descriptor say (R450). -/
def Device.dmaMark (d : Device) (e c : Nat) (q : Ask) : Ask :=
  let due := match (d.dma e c).desc with
    | some bs => if bit (wordAt bs 0) 20 then wordAt bs 7 % 4096 else 0
    | none => 0
  { q with cls := if d.on (DMA_CH_CFG_RT e c) then 0 else 1, tick := due, wake := d.on (DMA_CH_CTRL_WAKE e c) }

/-- One request: TARGET_ERR is retried once (R450); another answer than OKAY ends the descriptor. -/
def Move.ask (m : Move) (e c : Nat) (q : Ask) (code : Nat) (f : MemFact) : Move × Resp :=
  let q := m.dev.dmaMark e c q
  match m.err with
  | some _ => (m, targetErr)
  | none =>
    match m.dev.access q false f with
    | (d, r) =>
      let p := if r.code = 3 then d.access q false f else (d, r)
      (⟨p.1, if p.2.code = 0 then none else some (code, p.2.code)⟩, p.2)

/-- What the channel notes of a read's answer: PROV, and UNVER of a partial Heath read (R443, R445). -/
def Device.dmaSeen (d : Device) (e c : Nat) (q : Ask) (r : Resp) : Device :=
  let d := if r.prov then d.put (DMA_CH_STATUS_PROV e c) 1 else d
  let pay := decide (0x4000000000 ≤ q.addr) && decide (q.addr < 0x400A000000)
  if pay && !r.verify && !(q.units == 64 && q.addr % 4096 == 0) then d.put (DMA_CH_STATUS_UNVER e c) 1 else d

/-- Reads runs: their bytes, each with mark 1 when a pop carried the AIS mark. -/
def Move.readRuns (m : Move) (e c w : Nat) (verify : Bool) (f : MemFact) :
    List (Nat × Nat) → Move × List (Byte × Nat)
  | [] => (m, [])
  | (a, n) :: t =>
    let q := runRead (dmaNode e) w a n verify
    match m.ask e c q 2 f with
    | (m, r) =>
      let m := if m.err.isNone then { m with dev := m.dev.dmaSeen e c q r } else m
      let bs := if w < 64 then leBytes w r.inl else (r.data.drop (a % 64)).take n
      let mark := b2n (isWindow a && r.inl % 2 == 1 && decide (q.addr < 0x4800C00000))
      match m.readRuns e c w verify f t with
      | (m, rest) => (m, bs.map (fun b => (b, mark)) ++ rest)

/-- A source tile read whole: a TILE_FAULT, a picot mismatch or MUTE makes it a zero tile (R443). -/
def Move.readTile (m : Move) (e c j t : Nat) (f : MemFact) : Move × List Byte × Bool :=
  let x := m.dev.dma e c
  match x.src.find? (fun s => s.1 == j) with
  | some s => (m, s.2)
  | none =>
    let q := runRead (dmaNode e) 64 (tileAddr t) 4096 false
    match m.err with
    | some _ => (m, [], true)
    | none =>
      match m.ask e c q 2 f with
      | (m, r) =>
        let fault := r.code == 4
        let bad := r.code == 0 && crc32c r.data != r.inl % 2 ^ 32
        let zero := fault || bad || bit r.inl 39
        let d := if r.code = 0 && r.prov then m.dev.put (DMA_CH_STATUS_PROV e c) 1 else m.dev
        let d := if fault then d.put (DMA_CH_ERR_RESP e c) 4 else d
        let d := if bad then (d.access (d.dmaMark e c (headerAsk (dmaNode e) t 0x18 (bits r.inl 37 34 + 16)
          (d.on (DMA_CH_STATUS_PROV e c)))) true clean).1 else d
        let bs := if zero then zeroTile else r.data
        let d := if r.code = 0 || fault then d.setDma e c { d.dma e c with src := [(j, bs, zero)] ++ x.src.filter (fun s => s.1 + 16 > j) } else d
        (⟨d, if fault then none else m.err⟩, bs, zero)

/-- Reads pieces of source tiles, bytes of a zero tile with mark 2. -/
def Move.readTiles (m : Move) (e c : Nat) (l : List Byte) (f : MemFact) :
    List (Nat × Nat × Nat) → Move × List (Byte × Nat)
  | [] => (m, [])
  | (j, o, n) :: t =>
    match m.readTile e c j (bits (lWord l j 0) 15 0) f with
    | (m, bs, zero) =>
      match m.readTiles e c l f t with
      | (m, rest) => (m, ((bs.drop o).take n).map (fun b => (b, 2 * b2n zero)) ++ rest)

/-- The bytes of plane k of the source for a chunk. -/
def Move.readPlane (m : Move) (e c : Nat) (w : Nat → Nat) (l : List Byte) (k pos n : Nat) (f : MemFact) :
    Move × List (Byte × Nat) :=
  match inPlane w (srcPlanar w) k pos n with
  | [] => (m, [])
  | i :: t =>
    let o := (sideAt w (srcPlanar w) (pos + i)).2
    let cnt := t.length + 1
    if kStile w then m.readTiles e c l f (tilePieces l (if srcPlanar w then planeNum w else 1) k o cnt)
    else
      let fixed := kSmode w == 1
      let a := if fixed then kSrc w else kSrc w + k * bits (w 6) 23 0 + o
      m.readRuns e c (kWid (bits (w 0) 7 5)) (bit (w 0) 18) f (dmaRuns fixed (kWid (bits (w 0) 7 5)) a cnt)

/-- The stream bytes of a chunk, with their marks. -/
def Move.readChunk (m : Move) (e c : Nat) (w : Nat → Nat) (l : List Byte) (pos n : Nat) (f : MemFact) :
    Move × List (Byte × Nat) :=
  if kFill w then
    let pat := leBytes 4 (w 2) ++ leBytes 4 (w 3)
    (m, (List.range n).map (fun i => (pat.getD ((pos + i) % 8) 0, 0)))
  else
    let r := (List.range (if srcPlanar w then planeNum w else 1)).foldl
      (fun (b : Move × List (List (Byte × Nat))) k =>
        match b.1.readPlane e c w l k pos n f with
        | (m, bs) => (m, b.2 ++ [bs])) (m, [])
    (r.1, (List.range n).map (fun i =>
      let p := sideAt w (srcPlanar w) (pos + i)
      let first := match inPlane w (srcPlanar w) p.1 pos n with
        | j :: _ => (sideAt w (srcPlanar w) (pos + j)).2
        | [] => 0
      (r.2.getD p.1 []).getD (p.2 - first) (0, 0)))

/-- Writes runs of a plane; zero marks a framer's burst as a zero tile, last the run that ends the descriptor. -/
def Move.writeRuns (m : Move) (e c w : Nat) (zero last : Bool) :
    List (Nat × Nat) → List Byte → Move
  | [], _ => m
  | (a, n) :: t, bs =>
    let prov := m.dev.on (DMA_CH_STATUS_PROV e c)
    let q := runWrite (dmaNode e) w a (bs.take n) prov (last && t.isEmpty) (b2n zero)
    (m.ask e c q 3 clean).1.writeRuns e c w zero last t (bs.drop n)

/-- Closes a destination tile: zeros to its end, then SEAL with the picot of what it holds (R442). -/
def Move.sealTile (m : Move) (e c j : Nat) (l : List Byte) : Move :=
  let t := bits (lWord l j 0) 15 0
  let n := lBytes l j
  let prov := m.dev.on (DMA_CH_STATUS_PROV e c)
  let m := if n < 4096 then
      (m.ask e c (runWrite (dmaNode e) 64 (tileAddr t + n) (List.replicate (4096 - n) 0) prov false 0) 3 clean).1
    else m
  let x := m.dev.dma e c
  let crc := ((x.opened.find? (fun p => p.1 == j)).elim 0xFFFFFFFF (·.2))
  let crc := ((List.replicate (4096 - n) (0 : Byte)).foldl (crcRefByte 0x82F63B78) crc).xor 0xFFFFFFFF
  let inl := crc + 2 ^ 32 * b2n (x.ais.contains j) + 2 ^ 42 * bits (lWord l j 1) 13 0
  let m := (m.ask e c (headerAsk (dmaNode e) t 8 inl prov) 3 clean).1
  if m.err.isSome then m
  else { m with dev := m.dev.setDma e c { x with opened := x.opened.filter (·.1 ≠ j), ais := x.ais.filter (· ≠ j) } }

/-- Writes pieces of destination tiles: OPEN at a tile's first byte, SEAL after its last (R442). -/
def Move.writeTiles (m : Move) (e c : Nat) (l : List Byte) :
    List (Nat × Nat × Nat) → List (Byte × Nat) → Move
  | [], _ => m
  | (j, o, n) :: t, bs =>
    let tile := bits (lWord l j 0) 15 0
    let m := if o = 0 then
        let m := (m.ask e c (headerAsk (dmaNode e) tile 0 (lWord l j 2 + 2 ^ 32 * lWord l j 3)
          (m.dev.on (DMA_CH_STATUS_PROV e c))) 3 clean).1
        if m.err.isSome then m
        else { m with dev := m.dev.setDma e c { m.dev.dma e c with opened := (m.dev.dma e c).opened ++ [(j, 0xFFFFFFFF)] } }
      else m
    let part := bs.take n
    let m := if part.any (fun b => b.2 != 0) && m.err.isNone then
        { m with dev := m.dev.setDma e c { m.dev.dma e c with ais := (m.dev.dma e c).ais ++ [j] } }
      else m
    let m := (m.ask e c (runWrite (dmaNode e) 64 (tileAddr tile + o) (part.map (·.1)) (m.dev.on (DMA_CH_STATUS_PROV e c)) false 0)
      3 clean).1
    let x := m.dev.dma e c
    let m := if m.err.isSome then m else { m with dev := m.dev.setDma e c { x with opened := x.opened.map (fun p =>
      if p.1 = j then (j, (part.map (·.1)).foldl (crcRefByte 0x82F63B78) p.2) else p) } }
    let m := if o + n = lBytes l j then m.sealTile e c j l else m
    m.writeTiles e c l t (bs.drop n)

/-- Writes the stream bytes of a chunk to plane k of the destination. -/
def Move.writePlane (m : Move) (e c : Nat) (w : Nat → Nat) (l : List Byte) (k pos : Nat) (bs : List (Byte × Nat))
    (last : Bool) : Move :=
  match inPlane w (dstPlanar w) k pos bs.length with
  | [] => m
  | i :: t =>
    let o := (sideAt w (dstPlanar w) (pos + i)).2
    let mine := (i :: t).map (fun j => bs.getD j (0, 0))
    if kDtile w then m.writeTiles e c l (tilePieces l (if dstPlanar w then planeNum w else 1) k o mine.length) mine
    else
      let fixed := bit (w 0) 2
      let a := if fixed then kDst w else kDst w + k * bits (w 6) 23 0 + o
      m.writeRuns e c (kWid (bits (w 0) 10 8)) (mine.any (fun b => b.2 == 2)) (last && k + 1 == planeNum w)
        (dmaRuns fixed (kWid (bits (w 0) 10 8)) a mine.length) (mine.map (·.1))

/-- Whether the destination is a framer's window. -/
def toFramer (w : Nat → Nat) : Bool :=
  !kDtile w && decide (0x4800B00000 ≤ kDst w) && decide (kDst w < 0x4800B80000)

/-- Requests a chunk makes, for what would stop them. -/
def Device.chunkAsks (d : Device) (e c : Nat) (w : Nat → Nat) (pos n : Nat) : List Ask :=
  let x := d.dma e c
  let node := dmaNode e
  let side := fun (planar tile fixed : Bool) (l : List Byte) (base wid : Nat) (mk : Nat → Nat → Ask) (mt : Nat → List Ask) =>
    (List.range (if planar then planeNum w else 1)).flatMap (fun k =>
      match inPlane w planar k pos n with
      | [] => []
      | i :: t =>
        let o := (sideAt w planar (pos + i)).2
        if tile then (tilePieces l (if planar then planeNum w else 1) k o (t.length + 1)).flatMap (fun p =>
          mt (bits (lWord l p.1 0) 15 0))
        else (dmaRuns fixed wid (if fixed then base else base + k * bits (w 6) 23 0 + o) (t.length + 1)).map (fun r => mk r.1 r.2))
  let wr := fun (a m : Nat) => runWrite node (kWid (bits (w 0) 10 8)) a (List.replicate m 0) (d.on (DMA_CH_STATUS_PROV e c)) false 0
  (if kFill w then [] else side (srcPlanar w) (kStile w) (kSmode w == 1) x.slist (kSrc w) (kWid (bits (w 0) 7 5))
    (fun a m => runRead node (kWid (bits (w 0) 7 5)) a m false) (fun t => [runRead node 64 (tileAddr t) 4096 false])) ++
  side (dstPlanar w) (kDtile w) (bit (w 0) 2) x.dlist (kDst w) (kWid (bits (w 0) 10 8)) wr
    (fun t => [headerAsk node t 0 0 false, runWrite node 64 (tileAddr t) (List.replicate 64 0) false false 0])

/-- An ASLEEP answer to a channel: another try, or the end of its descriptor. -/
def Device.dmaAsleep (d : Device) (e c code : Nat) : Device :=
  let x := d.dma e c
  if x.asleep < d.get (DMA_ENG_CTRL_ASLEEP_RETRY e) then d.setDma e c { x with stalled := true, asleep := x.asleep + 1 }
  else d.dmaFail e c code 1

/-- Whether a domain's hold buffer has room for a request of the channel, or holds it already (R111). -/
def Device.holdsDma (d : Device) (m : Nat) (q : Ask) : Bool :=
  q.wake && q.units ≤ 4 && decide ((d.lwk.held.filter (fun h => h.2.domain == some m)).length < 8)

/-- A request waits for its retry, or its retries are used up (R450): ASLEEP counts against ASLEEP_RETRY, one
TARGET_ERR is retried, and a FENCED hold counts against nothing. With WAKE, a small request waits in the hold buffer of a
closed domain, and one refused there raises EV263 and the wake request (R111, R112). -/
def Device.dmaStall (d : Device) (e c : Nat) (q : Ask) (r : Resp) : Device :=
  let q := d.dmaMark e c q
  let x := d.dma e c
  let code := if q.cmd = cRd then 2 else 3
  let dom := match d.resolve (d.get LWK_EPOCH_CUR) q.addr with
    | .node n => nodeDomain n
    | .answer _ => none
  if r.code = 1 then
    match dom with
    | some m =>
      if d.holdsDma m q then
        ({ d with lwk := { d.lwk with held := d.lwk.held ++ [(q.packet 0 false, HoldWhy.dma m (32 * e + c))] } }.wakeReq m).setDma e c
          { x with stalled := true }
      else
        let d := if q.wake then (d.wakeReq m).lwErr LWK_ERR_HOLD_OVF 263 (q.packet 0 false) else d
        (d.pulse 269).dmaAsleep e c code
    | none => (d.pulse 269).dmaAsleep e c code
  else if r.inl = 1 && !x.fenced then d.setDma e c { x with stalled := true, fenced := true }
  else if x.errs = 0 then d.setDma e c { x with stalled := true, errs := 1 }
  else d.dmaFail e c code 3

/-- A chunk of n bytes at position pos of the descriptor in progress. -/
def Device.dmaChunk (d : Device) (e c : Nat) (w : Nat → Nat) (pos n : Nat) (f : MemFact) : Move :=
  let x := d.dma e c
  let r := Move.readChunk ⟨d, none⟩ e c w x.slist pos n f
  let m := r.1
  if m.err.isSome then m
  else if bit (w 0) 19 && m.dev.on (DMA_CH_STATUS_PROV e c) then
    ⟨m.dev.dmaCause e c DMA_CH_EV_CAUSE_PROV_REFUSED, some (5, m.dev.get (DMA_CH_ERR_RESP e c))⟩
  else if !kDtile w && !toFramer w && r.2.any (fun b => b.2 == 2) then ⟨m.dev, some (4, m.dev.get (DMA_CH_ERR_RESP e c))⟩
  else
    (List.range (if dstPlanar w then planeNum w else 1)).foldl
      (fun (m : Move) k => m.writePlane e c w x.dlist k pos r.2 (bit (w 0) 16 && pos + n == kLen w)) m

/-! ### Arbitration (R447) -/

/-- Whether a channel can be granted. -/
def Device.dmaReady (d : Device) (e c : Nat) : Bool :=
  let x := d.dma e c
  x.desc.isSome && d.on (DMA_CH_CTRL_EN e c) && !x.stalled && d.get (DMA_CH_STATUS_STATE e c) != dBarrier &&
    d.get (DMA_CH_STATUS_STATE e c) != dHalted &&
    (x.left != 0 || !d.on (DMA_CH_CFG_REQ_EN e c) || d.get (DMA_CH_STATUS_PENDING e c) != 0)

/-- Channels of an engine that keep it: one in a burst under run-to-completion, and under pre-emption those a
channel must outrank. -/
def Device.dmaPick (d : Device) (e : Nat) : Option Nat :=
  let cs := List.range 32
  let prio := fun c => d.get (DMA_CH_CFG_PRIO e c)
  let held := cs.filter (fun c => (d.dma e c).stalled && (d.dma e c).desc.isSome)
  let ready := cs.filter (fun c => d.dmaReady e c && held.all (fun h => prio h < prio c))
  if d.power.trip || (!d.on (DMA_ENG_CTRL_MODE e) && !held.isEmpty) then none
  else
    let top := ready.foldl (fun n c => max n (prio c)) 0
    let best := ready.filter (fun c => prio c == top)
    let g := d.get (DMA_ENG_STATUS_GRANT e)
    match best.find? (fun c => (d.dma e c).left != 0) with
    | some c => some c
    | none => (best.find? (fun c => g < c)) <|> best.head?

/-- One grant of channel c: the burst, or under pre-emption as many of its data units as are given, none
meaning all. A burst with a window at an end is not split (log entry 36). -/
def Device.dmaGrant (d : Device) (e c units : Nat) (f : MemFact) : Device :=
  match (d.dma e c).desc with
  | none => d
  | some bs =>
    let w := wordAt bs
    let x := d.dma e c
    let remain := d.get (DMA_CH_REMAIN_BYTES e c)
    let left := if x.left = 0 then bits (w 1) 29 24 + 1 else x.left
    let whole := !d.on (DMA_ENG_CTRL_MODE e) || units = 0 || (kSmode w == 1 && isWindow (kSrc w)) ||
      (bit (w 0) 2 && isWindow (kDst w))
    let us := if whole then left else min units left
    let n := min remain (64 * us)
    let pos := kLen w - remain
    let d := d.put (DMA_ENG_STATUS_GRANT e) c
    match (d.chunkAsks e c w pos n).findSome? (fun q => (d.askStop q).map (fun r => (q, r))) with
    | some (q, r) => (d.setDma e c { x with stalled := false }).dmaStall e c q r
    | none =>
      let m := (d.setDma e c { x with stalled := false, asleep := 0, errs := 0, fenced := false }).dmaChunk e c w pos n f
      match m.err with
      | some (code, resp) => m.dev.dmaFail e c code resp
      | none =>
        let d := m.dev.put (DMA_CH_REMAIN_BYTES e c) (remain - n)
        let fin := n = remain
        let d := d.setDma e c { d.dma e c with left := if fin then 0 else left - us }
        let d := if fin || us = left then
            let d := d.count (DMA_CH_CNT_BURST_COUNT e c) 1
            if d.on (DMA_CH_CFG_REQ_EN e c) then d.put (DMA_CH_STATUS_PENDING e c) (d.get (DMA_CH_STATUS_PENDING e c) - 1) else d
          else d
        if !fin then d.dmaShow e c
        else if bit (w 0) 16 then d.put (DMA_CH_STATUS_STATE e c) dBarrier
        else d.dmaDone e c

/-! ### Expiry (R450) -/

/-- The source of a request line discards the data of n requests: bursts of an uplink container or of a receive queue, data
units of a twin message queue. -/
def Device.dropSource (d : Device) (line n : Nat) : Device :=
  let die := line / 256
  let i := line % 256
  if i < 224 then
    (List.range 72).foldl (fun (d : Device) l => (d.ctrEntries l).foldl (fun (d : Device) k =>
      if cDreq k = line && !cDown k then
        let g := 32 * l + cCid k
        d.setCtr g { d.ctr g with queue := (d.ctr g).queue.drop (16 * n) }
      else d) d) d
  else if i < 232 then d.setRxq (8 * die + (i - 224)) ((d.rxq (8 * die + (i - 224))).drop (16 * n))
  else if i = 240 then
    let q := tabSet (fun _ => []) d.twin.msgRx die ((tabGet (fun _ => []) d.twin.msgRx die).drop n)
    { d with twin := { d.twin with msgRx := q } }
  else d

/-- Expiry: PENDING to 0 and the data of those requests discarded, then a hand-over. -/
def Device.dmaExpire (d : Device) (e c : Nat) : Device :=
  let nx := d.dmaNext e c
  let d := d.dmaClose e c
  let d := if d.on (DMA_CH_CFG_REQ_EN e c) then
      d.dropSource (d.get (DMA_CH_CFG_REQSEL e c)) (d.get (DMA_CH_STATUS_PENDING e c)) else d
  ((d.put (DMA_CH_STATUS_PENDING e c) 0).dmaCause e c DMA_CH_EV_CAUSE_EXPIRED).handOver e c nx

/-! ### Meanings -/

/-- DESCRIPTOR_EXPIRY at the edge that begins DUE; its hand-over is that of the edge (R449, R450). -/
def execDescriptorExpiry (e : Fin 8) (c : Fin 32) (s : State) : Host.Outcome State Fault Refusal :=
  s.run (fun d => if d.dmaLate e.val c.val then ((d.edgeNote e.val c.val).dmaExpire e.val c.val).schedule else d)

/-- BURST: the engine grants a ready channel (R447). -/
def execBurst (e : Fin 8) (units : Fin 65) (ce : Option (Fin 160)) (ue : Bool) (s : State) :
    Host.Outcome State Fault Refusal :=
  s.run (fun d =>
    if d.on (DMA_ENG_STATUS_FENCED e.val) then d
    else
      let d := d.dmaAgain e.val
      match d.dmaPick e.val with
      | none => d.schedule
      | some c => (d.dmaGrant e.val c units.val ⟨ce.map (·.val), ue, []⟩).schedule)

/-- DMA_RETRY of a channel whose request waits: after 1 µs, or once a FENCED hold ends (R17, R450). -/
def execDmaRetry (e : Fin 8) (c : Fin 32) (ce : Option (Fin 160)) (ue : Bool) (s : State) :
    Host.Outcome State Fault Refusal :=
  s.run (fun d =>
    if (d.dma e.val c.val).stalled && !d.lwk.held.any (fun h => h.2.channel == some (32 * e.val + c.val)) then (d.dmaGrant e.val c.val 0 ⟨ce.map (·.val), ue, []⟩).schedule else d)

/-- HOLD_LIMIT_EXPIRY of the oldest packet held for a domain: released with ASLEEP (R113). -/
def execHoldLimitExpiry (m : Fin 64) (s : State) : Host.Outcome State Fault Refusal :=
  s.run (fun d =>
    match d.lwk.held.find? (fun p => p.2.domain == some m.val) with
    | none => d
    | some p =>
      let d := { d with lwk := { d.lwk with held := d.lwk.held.erase p } }.lwErr LWK_ERR_HOLD_EXPIRED 264 p.1
      match p.2.channel with
      | some ch => d.dmaAsleep (ch / 32) (ch % 32) (if p.1.cmd.toNat = cRd then 2 else 3)
      | none => d.reply p.1 asleep)

end Sys2Proof.Machine
end

