-- ==== Sys2Proof/Machine/Hosts.lean ====
section
/-! DEFINITION. Host accesses: TLPs, the Lacework requests an endpoint makes of them, and how it handles each
response (R25, R26, R144, R540 to R543). -/

namespace Sys2Proof.Machine
open R

def hostReq (h : Nat) : Req := if h = 0 then .hostA else .hostB

/-- The Lacework address of a BAR's offset; none is answered DECODE_ERR (R25, R144, R540). -/
def barAddr (bar off : Nat) : Option Nat :=
  match bar with
  | 0 => if off < 0x4000000 then some (0x4800000000 + off) else none
  | 1 =>
    if off < 0xA000000 then some (0x4000000000 + off)
    else if 0xC000000 ≤ off && off < 0xC140000 then some (0x4400000000 + (off - 0xC000000))
    else none
  | _ => some off

/-- The first bytes of the requests a TLP is split into, and their lengths: 32-bit registers, else 4 KiB pages
(R25, R541). -/
def hostRuns (a m : Nat) : List (Nat × Nat) :=
  if 0x4800000000 ≤ a then
    (List.range ((a + m - 1) / 4 + 1 - a / 4)).map (fun i =>
      let lo := max a (4 * (a / 4 + i))
      (lo, min (a + m) (4 * (a / 4 + i) + 4) - lo))
  else dmaRuns false 64 a m

/-- The request of one run. A write of a header operation is a LEN = 0 write with BARRIER (DEDUCED, log entry
37). -/
def Device.hostAsk (d : Device) (h : Nat) (write : Bool) (a m : Nat) (bs : List Byte) : Ask :=
  let src := hostNode h
  let small := decide (0x4800000000 ≤ a)
  let hdr := decide (0x4400000000 ≤ a) && !small
  let pay := decide (0x4000000000 ≤ a) && decide (a < 0x400A000000)
  let q :=
    if write then
      (if small || (hdr && m = 8 && a % 8 = 0) then ⟨cWr, src, hostReq h, a, 0, m, leNat bs, [], allBE, allBE, false, false, hdr, 2, 0, false⟩
       else runWrite src 64 a bs false hdr 0)
    else if small then ⟨cRd, src, hostReq h, a / 4 * 4, 0, 4, 0, [], allBE, allBE, false, false, false, 2, 0, false⟩
    else runRead src 64 a m (pay && d.on HTH_CTRL_HOST_VERIFY)
  { q with who := hostReq h, cls := 2 }

/-- A non-OKAY response other than DECODE_ERR: captured, raised, and a TARGET_ERR recorded (R541). -/
def Device.hostErr (d : Device) (h : Nat) (write : Bool) (a : Nat) (r : Resp) : Device :=
  let d := ((d.put (HWD_HOST_ERR_RESP h) r.code).put (HWD_HOST_ERR_CAUSE h) (if r.code = 4 then r.inl else 0)).put
    (HWD_HOST_ERR_WRITE h) (b2n write)
  let d := ((d.bump (HWD_HOST_ERR_COUNT h) 1).put (HWD_HOST_ERR_ADDR_LO_ADDR h) a).put (HWD_HOST_ERR_ADDR_HI_ADDR h) (a / 2 ^ 32)
  let d := d.cause ⟨HWD_EV_CAUSE, 11 + h, 11 + h⟩ (146 + h)
  if r.code = 3 then d.note (Sys2Proof.Machine.report 3 aLog 11 h a (hostNode h) 3 (146 + h)) else d

/-- One request of a host, and the bytes it answers: none when the read is aborted. -/
def Device.hostRun (d : Device) (h : Nat) (write : Bool) (a m : Nat) (bs : List Byte) : Device × Option (List Byte) :=
  let q := d.hostAsk h write a m bs
  let zeros := List.replicate m (0 : Byte)
  if write && 0x4800000000 ≤ a && m ≠ 4 then (d.accessRec a (hostNode h) 2, some [])
  else match d.access q write clean with
    | (d, r) =>
      let got := if 0x4800000000 ≤ a then ((leBytes 4 r.inl).drop (a % 4)).take m
        else if q.units = 0 then (leBytes 8 r.inl).take m else (r.data.drop (a % 64)).take m
      if r.code = 0 then (d, some got)
      else if r.code = 2 then (d.accessRec a (hostNode h) 2, some zeros)
      else
        let d := d.hostErr h write a (if r.code = 1 then targetErr else r)
        (d, if d.on HWD_HOST_CTRL_ERR_MODE then some (List.replicate m 0xFF) else none)

/-- Every request of a TLP, in ascending order. -/
def Device.hostRuns (d : Device) (h : Nat) (write : Bool) : List (Nat × Nat) → List Byte → Device × Option (List Byte)
  | [], _ => (d, some [])
  | (a, m) :: t, bs =>
    match d.hostRun h write a m (bs.take m) with
    | (d, x) =>
      match d.hostRuns h write t (bs.drop m) with
      | (d, y) => (d, match x, y with
        | some x, some y => some (x ++ y)
        | _, _ => none)

/-- Whether a request of a TLP would be answered ASLEEP. -/
def Device.hostAsleep (d : Device) (h : Nat) (write : Bool) (a m : Nat) (bs : List Byte) : Bool :=
  (Sys2Proof.Machine.hostRuns a m).any (fun r => match d.askStop (d.hostAsk h write r.1 r.2 bs) with
    | some x => x.code == 1
    | none => false)

/-- Whether a request of a TLP would be answered FENCED (R17). -/
def Device.hostFenced (d : Device) (h : Nat) (write : Bool) (a m : Nat) (bs : List Byte) : Bool :=
  (Sys2Proof.Machine.hostRuns a m).any (fun r => d.askStop (d.hostAsk h write r.1 r.2 bs) == some fencedErr)

/-- A TLP's requests, tried for the n-th time: put off while one is answered ASLEEP and retries are left, and once when
one is answered FENCED. -/
def Device.hostTry (d : Device) (h : Nat) (q : HostReq) : Device :=
  if !q.fenced && d.hostFenced h q.write q.addr q.len q.data then
    let x := d.host h
    d.setHost h { x with retry := x.retry ++ [{ q with fenced := true }] }
  else if d.hostAsleep h q.write q.addr q.len q.data && q.tries < d.get HWD_HOST_CTRL_ASLEEP_RETRY then
    let x := d.host h
    (d.setHost h { x with retry := x.retry ++ [{ q with tries := q.tries + 1 }] }).pulse 269
  else match d.hostRuns h q.write (Sys2Proof.Machine.hostRuns q.addr q.len) q.data with
    | (d, r) =>
      if q.write then d
      else match r with
        | some bs => d.emit (.tlp h false bs)
        | none => d.emit (.tlp h true [])

/-- A memory TLP of a BAR. -/
def Device.hostMem (d : Device) (h bar off len : Nat) (write : Bool) (bs : List Byte) : Device :=
  if len = 0 then (if write then d else d.emit (.tlp h false []))
  else match barAddr bar off, barAddr bar (off + (len - 1)) with
    | some a, some e =>
      if e = a + (len - 1) then d.hostTry h ⟨write, a, len, bs, 0, false⟩
      else
        let d := d.accessRec a (hostNode h) 2
        if write then d else d.emit (.tlp h false (List.replicate len 0))
    | _, _ =>
      let base := if bar = 0 then 0x4800000000 else 0x4000000000
      let d := d.accessRec (base + off) (hostNode h) 2
      if write then d else d.emit (.tlp h false (List.replicate len 0))

/-- A write of the MSI-X control: pending vectors that are no longer masked are sent (PCIe, R506). -/
def Device.msixCtl (d : Device) (h : Nat) (enable fmask : Bool) : Device :=
  let d := d.setMsix h { d.msix h with enable := enable, fmask := fmask }
  if !enable || fmask then d
  else (List.range 384).foldl (fun (d : Device) v =>
    let m := d.msix h
    if tabGet (fun _ => false) m.pend v && !m.masked v then
      (d.setMsix h { m with pend := tabSet (fun _ => false) m.pend v false }).sendVec h v
    else d) d

/-! ### Meanings -/

/-- HOST_TLP: nothing while the host's link is down. -/
def execHostTlp (h : Fin 2) (t : Tlp) (s : State) : Host.Outcome State Fault Refusal :=
  s.run (fun d =>
    if !(d.host h.val).linkUp then d
    else match t with
      | .memRd bar off len => d.hostMem h.val bar.val off.toNat len.val false []
      | .memWr bar off bs => d.hostMem h.val bar.val off.toNat bs.length true bs
      | .msix e f => d.msixCtl h.val e f)

/-- HOST_ASLEEP_RETRY: the oldest TLP put off is tried again, after 1 µs or when its FENCED hold ends. -/
def execHostAsleepRetry (h : Fin 2) (s : State) : Host.Outcome State Fault Refusal :=
  s.run (fun d =>
    let x := d.host h.val
    match x.retry with
    | [] => d
    | q :: t => (d.setHost h.val { x with retry := t }).hostTry h.val q)

end Sys2Proof.Machine
end

