-- ==== Sys2Proof/Machine/Cores.lean ====
section
/-! DEFINITION. Signal cores: registers, traps, interrupts and pre-emption, far accesses, and the commit of a
bundle (R370 to R395, R403, R410, R428 to R432, R578, R608). What each instruction does in its slot is
CoreOps.lean's and VecOps.lean's. -/

namespace Sys2Proof.Machine
open R

/-! ### Registers (R382, R410) -/

def CoreRegs.dreg (r : CoreRegs) (i : Nat) : Word := tabGet (fun _ => 0) r.d i
def CoreRegs.areg (r : CoreRegs) (i : Nat) : Word := tabGet (fun _ => 0) r.a i
def CoreRegs.nreg (r : CoreRegs) (i : Nat) : Word := tabGet (fun _ => 0) r.n i
def CoreRegs.breg (r : CoreRegs) (i : Nat) : Word := tabGet (fun _ => 0) r.b i
def CoreRegs.lreg (r : CoreRegs) (i : Nat) : Word := tabGet (fun _ => 0) r.l i
/-- P0 reads 1. -/
def CoreRegs.preg (r : CoreRegs) (i : Nat) : Bool := i == 0 || tabGet (fun _ => false) r.p i
def CoreRegs.acc (r : CoreRegs) (i : Nat) : BitVec 40 × BitVec 40 := tabGet (fun _ => (0, 0)) r.ac i
def CoreRegs.vreg (r : CoreRegs) (i : Nat) : BitVec 1024 := tabGet (fun _ => 0) r.v i
/-- VP0 reads as all ones. -/
def CoreRegs.vpreg (r : CoreRegs) (i : Nat) : BitVec 128 := if i = 0 then BitVec.allOnes 128 else tabGet (fun _ => 0) r.vp i

/-- A register write; P0 and VP0 ignore it. -/
def CoreRegs.write (r : CoreRegs) : CWrite → CoreRegs
  | .d i x => { r with d := tabSet (fun _ => 0) r.d i x }
  | .a i x => { r with a := tabSet (fun _ => 0) r.a i x }
  | .n i x => { r with n := tabSet (fun _ => 0) r.n i x }
  | .b i x => { r with b := tabSet (fun _ => 0) r.b i x }
  | .l i x => { r with l := tabSet (fun _ => 0) r.l i x }
  | .p i x => if i = 0 then r else { r with p := tabSet (fun _ => false) r.p i x }
  | .ac i re im => { r with ac := tabSet (fun _ => (0, 0)) r.ac i (re, im) }
  | .v i x m => { r with v := tabSet (fun _ => 0) r.v i ((r.vreg i &&& ~~~m) ||| (x &&& m)) }
  | .vp i x m => if i = 0 then r else { r with vp := tabSet (fun _ => 0) r.vp i ((r.vpreg i &&& ~~~m) ||| (x &&& m)) }

/-- Register writes in order. -/
def CoreRegs.writes (r : CoreRegs) (ws : List CWrite) : CoreRegs := ws.foldl (fun r w => r.write w) r

/-- Which register a write names. -/
def CWrite.key : CWrite → Nat × Nat
  | .d i _ => (0, i)
  | .a i _ => (1, i)
  | .n i _ => (2, i)
  | .b i _ => (3, i)
  | .l i _ => (4, i)
  | .p i _ => (5, i)
  | .ac i _ _ => (6, i)
  | .v i _ _ => (7, i)
  | .vp i _ _ => (8, i)

/-- Registers with every write in flight made (R381, R387). -/
def Core.landed (x : Core) : Core := { x with regs := x.regs.writes (x.flight.map (·.2)), flight := [] }

/-- One bundle on: writes that become readable are made (R380). -/
def Core.aged (x : Core) : Core :=
  let due := x.flight.filter (fun f => decide (f.1 ≤ 1))
  { x with regs := x.regs.writes (due.map (·.2))
           flight := (x.flight.filter (fun f => decide (1 < f.1))).map (fun f => (f.1 - 1, f.2)) }

/-! ### Core addresses (R370) -/

/-- Where a core address leads: X, Y, shared, a far window, or nowhere. -/
inductive CSpace where
  | x | y | shared | far | none
  deriving DecidableEq, Repr

def cspace (a : Nat) : CSpace :=
  if a < 0x20000 then .x
  else if a < 0x40000 then .y
  else if 0x100000 ≤ a && a < 0x200000 then .shared
  else if 0x80000000 ≤ a then .far
  else .none

/-- Whether a slot, 0 for SX and 1 for SY, may use a space. -/
def CSpace.okFor (s : CSpace) (slot : Nat) : Bool :=
  match s with
  | .x => slot == 0
  | .y => slot == 1
  | .shared => true
  | .far => true
  | .none => false

/-- The cluster offset of a core address in X, Y or shared memory. -/
def coreOffset (k a : Nat) : Nat := if 0x100000 ≤ a then a - 0x100000 else 0x820000 + 0x80000 * k + a

/-- The storage of a core address in X, Y or shared memory. -/
def corePlace (c k a : Nat) : Nat := cluBase c + coreOffset k a

/-- The Lacework address of a far core address (R371). -/
def Device.farAddr (d : Device) (c k a : Nat) : Nat :=
  let w := (a - 0x80000000) / 0x20000000 % 4
  d.get (CX_FWIN_BASE c k w) * 2 ^ 29 + a % 0x20000000

/-- A machine check's DETAIL of a space. -/
def CSpace.detail : CSpace → Nat
  | .x => 2
  | .y => 3
  | _ => 4

/-! ### Modes, traps and interrupts (R385 to R390) -/

def Device.priv (d : Device) (c k : Nat) : Nat := d.get (CX_STATUS_PRIV c k)

/-- The requester a core is. -/
def coreReq (c k : Nat) : Req := .core (Fin.ofNat 20 c) (Fin.ofNat 8 k)

def xIllegal : Nat := 1
def xIllegalCp : Nat := 2
def xPriv : Nat := 3
def xAddrFetch : Nat := 4
def xAddr : Nat := 5
def xBus : Nat := 6
def xTile : Nat := 7
def xVector : Nat := 8
def xSyscall : Nat := 9
def xBreak : Nat := 10
def xMchk : Nat := 11

/-- Whether a trap is routed to supervisor mode (R386). -/
def Device.routed (d : Device) (c k code : Nat) : Bool :=
  let r := d.get ⟨CX_TROUTE c k, 2 * code + 1, 2 * code⟩
  decide (code < 16) && code != 6 && code != 11 &&
    ((d.priv c k == 0 && (r == 1 || r == 2)) || (d.priv c k == 1 && r == 2))

/-- What entering a handler does to the core: the bundle being issued is squashed, every earlier write is made,
the delay slots left and the repeat levels are saved, and nothing chains across it (R381, R387, R424). -/
def Device.leaveBundle (d : Device) (c k : Nat) : Device :=
  let d := d.squash c k
  let x := (d.core c k).landed
  let d := match x.branch with
    | some (n, t, _) => ((d.put (CX_DSTATE_N c k) n).put (CX_DSTATE_TGT c k) t).put (CX_STATUS_DS c k) 1
    | none => (d.put (CX_DSTATE_N c k) 0).put (CX_STATUS_DS c k) 0
  d.setCore c k { x with branch := none, units := [], since := 0, cpWait := false, waiting := false, pass := false }

/-- Takes a trap or an interrupt: CAUSE, PC and address are written in the set of the mode entered (R386,
R387). -/
def Device.takeTrap (d : Device) (c k code : Nat) (int : Bool) (detail : Nat) (addr : Option Nat) : Device :=
  let d := d.hpm c k (if int then 11 else 10) 1
  let sup := !int && d.routed c k code
  let from_ := d.priv c k
  let d := d.leaveBundle c k
  let x := d.core c k
  if sup then
    let d := (d.setWord (CX_SV_CAUSE c k) (BitVec.ofNat 32 (code + 2 ^ 8 * detail))).put (CX_SV_PC_PC c k) x.pc
    let d := match addr with
      | some a => (d.put (CX_SV_EADDR_LO_ADDR c k) a).put (CX_SV_EADDR_HI_ADDR c k) (a / 2 ^ 32)
      | none => d
    let d := (d.put (CX_STATUS_SPRIV c k) from_).put (CX_STATUS_PRIV c k) 1
    d.setCore c k { x with pc := d.get (CX_SVBASE_BASE c k) / 2048 * 2048 + 64 * code, sLoops := x.loops, loops := [] }
  else
    let d := (((d.put (CX_CAUSE_CODE c k) code).put (CX_CAUSE_DETAIL c k) detail).put (CX_CAUSE_INT c k) (b2n int)).put
      (CX_EPC_PC c k) x.pc
    let d := match addr with
      | some a => (d.put (CX_EADDR_LO_ADDR c k) a).put (CX_EADDR_HI_ADDR c k) (a / 2 ^ 32)
      | none => d
    let d := ((d.put (CX_STATUS_EPRIV c k) from_).put (CX_STATUS_EIE c k) (d.get (CX_STATUS_IE c k))).put (CX_STATUS_IE c k) 0
    let d := d.put (CX_STATUS_PRIV c k) 2
    d.setCore c k { x with pc := d.get (CX_MVBASE_BASE c k) / 2048 * 2048 + 64 * code, mLoops := x.loops, loops := [] }

/-- A machine check: trap MCHK and its record, whose action fences the core; one while MCHK is 1 halts the core,
and its record spares the cluster (R390, R408, R511). -/
def Device.machineCheck (d : Device) (c k detail : Nat) (addr : Option Nat) : Device :=
  let nested := d.on (CX_STATUS_MCHK c k)
  let rec_ : FaultRec := { Sys2Proof.Machine.report 5 (if nested then aSpare else aFence) 1 c (addr.getD 0) noReq detail (352 + c) with
    core := k, coreV := true, lc := d.lcField c }
  if nested then
    let d := d.squash c k
    let d := d.setCore c k { d.core c k with dead := true }
    (d.cause (CLU_EV_CAUSE_MCHK_NESTED c) (352 + c)).fault rec_
  else
    let d := (d.takeTrap c k xMchk false detail addr).put (CX_STATUS_MCHK c k) 1
    (d.cause (CLU_EV_CAUSE_MCHK c) (352 + c)).fault rec_

/-- Whether R388 allows an interrupt or pre-emption before the oldest uncommitted bundle. -/
def Device.mayBreak (d : Device) (c k : Nat) : Bool :=
  let x := d.core c k
  x.between && !(d.priv c k == 2 && !d.on (CX_STATUS_IE c k)) && !x.halted && !x.dead && d.domSt c == pRun

/-- An interrupt of code 16 + n; taking it clears its pending bit, but for the level of EVENT and for SOFT, which
the core clears (R386, R507, R608). -/
def Device.takeInt (d : Device) (c k n : Nat) : Device :=
  let pend := d.get (CX_INT_PEND_PEND c k)
  let d := if n = 0 || n = 2 || n = 3 then d.put (CX_INT_PEND_PEND c k) (putBits pend n n 0) else d
  let d := if n = 3 then d.setCore c k { d.core c k with failed := false } else d
  d.takeTrap c k (16 + n) true 0 none

/-- INTERRUPT_ENTRY of code 16 + n: pending and enabled; DISPATCH is taken at WAIT (R388, R393). -/
def execInterruptEntry (c : Fin 20) (k : Fin 8) (n : Fin 5) (s : State) : Host.Outcome State Fault Refusal :=
  s.run (fun d =>
    let c := c.val
    let k := k.val
    let x := d.core c k
    let live := !x.halted && !x.dead && d.domSt c == pRun && !d.coreFenced c k
    let may := if n.val = 0 then x.waiting && x.between else d.mayBreak c k
    if live && may && bit (d.intPend c k) n.val && bit (d.get (CX_INT_EN_EN c k)) n.val then d.takeInt c k n.val else d)

/-! ### Pre-emption (R349, R394) -/

/-- CSRs a frame saves: those of the item (DESIGN CHOICE, log entry 38). -/
def frameCsrs : List Nat :=
  [0x000, 0x004, 0x008, 0x00C, 0x010, 0x014, 0x018, 0x01C, 0x030, 0x034, 0x038, 0x03C, 0x044, 0x050, 0x054, 0x058, 0x05C,
   0x060, 0x100, 0x104, 0x108, 0x10C, 0x110, 0x280, 0x284, 0x288, 0x28C, 0x2F0]

/-- The frame of what a core runs. -/
def Device.frameOf (d : Device) (c k key : Nat) : Frame :=
  let x := d.core c k
  let base := 0x2000000 + 0x80000 * c + 0x1000 * k
  { item := key, regs := x.regs, csrs := frameCsrs.map (fun n => (base + n, d.word (base + n))), pc := x.pc, loops := x.loops
    mLoops := x.mLoops, sLoops := x.sLoops, vlive := d.on (CX_STATUS_VLIVE c k)
    async := bit (d.get (CX_INT_PEND_PEND c k)) 3, failed := x.failed }

/-- Bytes of a frame's place in the save area: what they hold is private to the hardware. -/
def Device.saveArea (d : Device) (c k n : Nat) : Device :=
  let a := d.get (CX_SAVE_BASE_ADDR c k) * 1024 + 5120 * n
  let bs := (List.range 5120).map (fun i => BitVec.ofNat 8 (Config.free (d.free + i)))
  ({ d with free := d.free + 5120 }).store (corePlace c k a) bs

/-- The largest hold-off of a die, and cause HOLDOFF above the limit; the time is measured (log entry 5). -/
def Device.heldOff (d : Device) (die : Nat) : Device :=
  match d.drawTime 32 with
  | (ns, d) =>
    let d := d.put (DSP_CNT_HOLDOFF_MAX_NS die) (max ns (d.get (DSP_CNT_HOLDOFF_MAX_NS die)))
    if 1000 * d.get1 DSP_CTRL_HOLDOFF_WARN_US < ns then d.dspCause DSP_EV_CAUSE_HOLDOFF die 380 else d

/-- A core takes the pre-emption ordered of it: squash, frame, and the dispatch vector for the new item, or
the frame of an ordered item that was itself pre-empted here. -/
def Device.preempt (d : Device) (c k : Nat) : Device :=
  match (d.core c k).item, (d.core c k).order with
  | some key, some next =>
    let d := d.hpm c k 12 1
    let d := d.leaveBundle c k
    let x := d.core c k
    let f := d.frameOf c k key
    let d := d.saveArea c k x.frames.length
    let d := d.put (CX_INT_PEND_PEND c k) (d.get (CX_INT_PEND_PEND c k) % 8)
    let d := d.setCore c k { x with frames := f :: x.frames, item := none, order := none, loops := [], mLoops := [], sLoops := []
                                    failed := false }
    let i := d.item key
    let d := (d.setItem key { i with st := .preempted, preempts := i.preempts + 1 }).heldOff (d.panelDie i.panel)
    match x.frames.find? (fun g => g.item == next) with
    | some g => d.restoreFrame c k g
    | none => (d.dispatch c k next).takeInt c k 0
  | _, _ => d

def execPreemptionEntry (c : Fin 20) (k : Fin 8) (s : State) : Host.Outcome State Fault Refusal :=
  s.run (fun d => if d.mayBreak c.val k.val && !d.coreFenced c.val k.val then (d.preempt c.val k.val).schedule else d)

/-! ### CSRs (R385, R409, R433, R569) -/

/-- Whether a CSR access takes trap PRIV. -/
def Device.csrBar (d : Device) (c k num : Nat) (write : Bool) : Bool :=
  let p := d.priv c k
  let value := decide (0x200 ≤ num) && decide (num < 0x248)
  (num < 0x100 && p < 2) || (num < 0x200 && p < 1) ||
    (value && !write && p == 0 && !bit (d.word (CX_CNTEN c k)).toNat ((num - 0x200) / 8))

/-- The core's own read of a CSR; a number that is not listed is reserved and reads 0 (R7). -/
def Device.csrRead (d : Device) (c k num : Nat) : Device × Nat :=
  match d.counterRead (coreReq c k) c k num with
  | some p => p
  | none =>
    match d.csrView c k num with
    | some v => (d, v)
    | none =>
      let off := 0x2000000 + 0x80000 * c + 0x1000 * k + num
      match (if num < 0x1000 && num % 4 = 0 then regRow off else none) with
      | some row => d.plainRead off row
      | none => (d, 0)

/-! ### Far accesses (R371 to R373, R391, R392, R608) -/

/-- The request of a far access. -/
def farAsk (c k : Nat) (q : FarReq) : Ask :=
  ⟨if q.store then cWr else cRd, clusterNode c 0, coreReq c k, q.addr, 0, q.len, leNat q.data, q.data, allBE, allBE,
    q.prov, q.verify, q.barrier, q.cls, q.tick, false⟩

/-- Class and TICK of a core's far access: those of its item, 7 and 0 of machine mode with none (R371), 1 and 0 of another
mode with none, of which the spec says nothing (DESIGN CHOICE, log entry 49). -/
def Device.farMark (d : Device) (c k : Nat) : Nat × Nat :=
  match (d.core c k).item with
  | some i => (itemClass (d.item i), (d.item i).release % 4096)
  | none => (if d.get (CX_STATUS_PRIV c k) = 2 then 7 else 1, 0)

/-- What comes of an answer that is not OKAY: another try, or none (R17, R373). -/
def Device.farAgain (d : Device) (c : Nat) (q : FarReq) (r : Resp) : Option FarReq :=
  if r.code = 1 then (if q.asleep < d.get (CLU_CTRL_ASLEEP_RETRY c) then some { q with asleep := q.asleep + 1 } else none)
  else if r.code = 3 && r.inl = 1 && q.fenced.isNone then some { q with fenced := some (d.get LWK_EPOCH_FLIPS) }
  else if r.code = 3 && q.errs = 0 then some { q with errs := 1 }
  else none

/-- Interrupt BUS_ASYNC of a store that has failed: it belongs to the item that made it (R373, R608). -/
def Device.busAsync (d : Device) (c k : Nat) (q : FarReq) : Device :=
  let x := d.core c k
  let base := 0x2000000 + 0x80000 * c + 0x1000 * k
  if x.item.map d.handleOf = q.item then
    let d := (d.put (CX_EADDR_LO_ADDR c k) q.addr).put (CX_EADDR_HI_ADDR c k) (q.addr / 2 ^ 32)
    let pend := d.get (CX_INT_PEND_PEND c k)
    (d.put (CX_INT_PEND_PEND c k) (putBits pend 3 3 1)).setCore c k { x with failed := x.item.isSome }
  else
    d.setCore c k { x with frames := x.frames.map (fun f =>
      if some (d.handleOf f.item) = q.item then
        { f with async := true, failed := true, csrs := f.csrs.map (fun p =>
            if p.1 = base + 0x010 then (p.1, BitVec.ofNat 32 q.addr)
            else if p.1 = base + 0x014 then (p.1, BitVec.ofNat 32 (q.addr / 2 ^ 32 % 2 ^ 16)) else p) }
      else f) }

/-- One try of a far store. -/
def Device.farStore (d : Device) (c k : Nat) (q : FarReq) : Device :=
  match d.access (farAsk c k q) true clean with
  | (d, r) =>
    if r.code = 0 then d
    else match d.farAgain c q r with
      | some q =>
        let x := d.core c k
        (d.setCore c k { x with stores := x.stores ++ [q] }).hpm c k 15 1
      | none => d.busAsync c k q

/-- A request that has not been tried yet. -/
def FarReq.fresh (q : FarReq) : Bool := q.asleep == 0 && q.errs == 0 && q.fenced.isNone

/-- A far store leaves the core: it waits behind a BARRIER, or is one and waits for those before it (R97). -/
def Device.farSend (d : Device) (c k : Nat) (q : FarReq) : Device :=
  let x := d.core c k
  let d := d.hpm c k 14 1
  if x.stores.any (·.barrier) || (q.barrier && !x.stores.isEmpty) then d.setCore c k { d.core c k with stores := x.stores ++ [q] }
  else d.farStore c k q

/-- Stores that waited behind a BARRIER go on. -/
def Device.farDrain (d : Device) (c k : Nat) : Nat → Device
  | 0 => d
  | n + 1 =>
    let x := d.core c k
    match x.stores with
    | [] => d
    | q :: t =>
      if q.fresh then ((d.setCore c k { x with stores := t }).farStore c k q).farDrain c k n
      else match t with
        | r :: _ =>
          if r.fresh && !r.barrier && !q.barrier then
            ((d.setCore c k { x with stores := x.stores.erase r }).farStore c k r).farDrain c k n
          else d
        | [] => d

/-- The retry of store n. -/
def Device.storeRetry (d : Device) (c k n : Nat) : Device :=
  let x := d.core c k
  match x.stores[n]? with
  | none => d
  | some q => if q.fresh then d else (d.setCore c k { x with stores := x.stores.eraseIdx n }).farStore c k q

/-- One try of a far load of the bundle: its data, another try later, or trap BUS or TILE (R373, R391). -/
def Device.farLoad (d : Device) (c k : Nat) (q : FarReq) : Device :=
  match d.access (farAsk c k q) false clean with
  | (d, r) =>
    let x := d.core c k
    if r.code = 0 then
      let unver := decide (0x4000000000 ≤ q.addr) && decide (q.addr < 0x400A000000) && !r.verify
      d.setCore c k { x with load := none, got := x.got ++ [⟨q.slot, leBytes q.len r.inl, r.prov, unver⟩] }
    else match d.farAgain c q r with
      | some q => (d.setCore c k { x with load := some q }).hpm c k 15 1
      | none =>
        let d := d.setCore c k { x with load := none }
        if r.code = 4 then d.takeTrap c k xTile false (r.inl % 16) (some q.addr)
        else d.takeTrap c k xBus false r.code (some q.addr)

/-! ### Control flow (R382, R384, R387) -/

/-- After the bundle at address e, with no branch due: a body that ends here is run again or left. -/
def Core.loopEnd (x : Core) (e : Nat) : List Loop → Core
  | [] => { x with pc := e + 32, loops := [] }
  | l :: t =>
    if l.stop ≠ e then { x with pc := e + 32, loops := l :: t }
    else if 1 < l.count then { x with pc := l.start, loops := { l with count := l.count - 1 } :: t }
    else x.loopEnd e t

/-- Levels left by a branch to t: each whose body holds no t, and every level inside it. -/
def keepLoops (t : Nat) (ls : List Loop) : List Loop :=
  match ls with
  | [] => []
  | l :: r =>
    let rest := keepLoops t r
    if rest.length = r.length && decide (l.start ≤ t) && decide (t ≤ l.stop) then l :: rest else rest

/-- The branch of a bundle: its target, and whether it is taken. -/
def branchOf (es : List CEff) : Option (Nat × Bool) :=
  es.findSome? (fun e => match e with
    | .branch t taken => some (t, taken)
    | _ => none)

/-- The repeat of a bundle, and whether its body is skipped. -/
def loopOf (es : List CEff) : Option (Loop × Bool) :=
  es.findSome? (fun e => match e with
    | .loop l skip => some (l, skip)
    | _ => none)

/-- Where a core goes after the bundle at its PC commits. -/
def Core.advance (x : Core) (es : List CEff) : Core :=
  match x.branch with
  | some (n, t, taken) =>
    if 1 < n then { x with branch := some (n - 1, t, taken), pc := x.pc + 32 }
    else if taken then { x with branch := none, pc := t, loops := keepLoops t x.loops }
    else { x with branch := none }.loopEnd x.pc x.loops
  | none =>
    match branchOf es, loopOf es with
    | some (t, taken), _ => { x with branch := some (3, if taken then t else x.pc + 128, taken), pc := x.pc + 32 }
    | none, some (l, skip) =>
      if skip then x.loopEnd l.stop x.loops else { x with pc := l.start, loops := l :: x.loops }
    | none, none => x.loopEnd x.pc x.loops

/-- ERET (R385, R387): mode, IE, PC and repeat levels of the last trap to the mode it leaves; delay slots that
were left are run first. -/
def Device.eret (d : Device) (c k : Nat) : Device :=
  let sup := d.priv c k == 1
  let p := d.get (CX_STATUS_EPRIV c k)
  let pc := if sup then d.get (CX_SV_PC_PC c k) else d.get (CX_EPC_PC c k)
  let d := if sup then d.put (CX_STATUS_PRIV c k) (d.get (CX_STATUS_SPRIV c k))
    else
      let d := d.put (CX_STATUS_IE c k) (d.get (CX_STATUS_EIE c k))
      if p < 3 then d.put (CX_STATUS_PRIV c k) p
      else match d.draw 2 with
        | (v, d) => d.put (CX_STATUS_PRIV c k) (v % 3)
  let d := d.put (CX_STATUS_MCHK c k) 0
  let x := d.core c k
  let n := d.get (CX_DSTATE_N c k)
  let t := d.get (CX_DSTATE_TGT c k)
  d.setCore c k { x with
    pc := pc, loops := if sup then x.sLoops else x.mLoops
    branch := if n = 0 then none else some (n, t, t != pc + 32 * n)
    resumed := true, since := 0, units := [] }

/-! ### Bundles (R376 to R379, R428) -/

/-- The trap of a stage, of the lowest slot that has one. -/
def trapAt (es : List CEff) (n : Nat) : Option (Nat × Nat × Nat) :=
  es.findSome? (fun e => match e with
    | .trap s code detail addr => if s = n then some (code, detail, addr) else none
    | _ => none)

/-- The registers a bundle writes, its loads' destinations among them. -/
def effKeys : CEff → List (Nat × Nat)
  | .wr _ w => [w.key]
  | .load _ _ size _ dst _ _ => if size = 8 then [(0, dst), (0, dst + 1)] else [(0, dst)]
  | .vmem _ st _ _ dst _ => if st then [] else [(7, dst)]
  | .csrRead _ dst => [(0, dst)]
  | _ => []

/-- Whether two slots write one register (R378, R421). -/
def dupKeys : List (Nat × Nat) → Bool
  | [] => false
  | a :: t => t.contains a || dupKeys t

/-- The trap of a bundle: those of decode, two writes of one register among them, before those of addresses. -/
def trapOf (es : List CEff) : Option (Nat × Nat × Nat) :=
  trapAt es 0 <|> (if dupKeys (es.flatMap effKeys) then some (xIllegal, 0, 0) else none) <|> trapAt es 1

/-- What holds a bundle back before it can commit: a full coprocessor slot, CPWAIT, FENCE, the store buffer
(R373, R398, R403). -/
def Device.bundleStall (d : Device) (c k : Nat) : Bool :=
  let x := d.core c k
  let far := (x.staged.filter (fun e => match e with
    | .store _ a _ _ => cspace a == .far
    | _ => false)).length
  (far != 0 && decide (16 < x.stores.length + far)) || x.staged.any (fun e => match e with
    | .cp _ => x.cp.isSome
    | .cpwait => x.cp.isSome || x.cpRun.isSome
    | .fence => !x.stores.isEmpty
    | _ => false)

/-- The first element of a vector access that faults: its number, KIND of R429 or R430, and address. -/
def vmemFault (slot w : Nat) (els : List (Nat × Nat × List Byte)) (ue : Option Nat) : Option (Nat × Nat × Nat) :=
  els.findSome? (fun p =>
    let e := p.1
    let a := p.2.1
    let s := cspace a
    if s == .none || s == .far then some (e, 1, a)
    else if a % w ≠ 0 then some (e, 2, a)
    else if !s.okFor slot then some (e, 3, a)
    else if ue == some e then some (e, 4, a)
    else none)

/-- Element e of width w of a register, with value v: the bits and their mask. -/
def elBits (w e v : Nat) : BitVec 1024 := BitVec.ofNat 1024 (v % 2 ^ w * 2 ^ (w * e))
def elMask (w e : Nat) : BitVec 1024 := BitVec.ofNat 1024 ((2 ^ w - 1) * 2 ^ (w * e))

/-- The register write of a vector load's elements. -/
def Device.vloadWrite (d : Device) (c k w dst : Nat) (els : List (Nat × Nat × List Byte)) : CWrite :=
  let p := els.foldl (fun (b : BitVec 1024 × BitVec 1024) q =>
    (b.1 ||| elBits (8 * w) q.1 (d.load (corePlace c k q.2.1) w), b.2 ||| elMask (8 * w) q.1)) (0, 0)
  .v dst p.1 p.2

/-- A vector store's elements, in ascending order. -/
def Device.vstore (d : Device) (c k : Nat) (els : List (Nat × Nat × List Byte)) : Device :=
  els.foldl (fun (d : Device) q => d.store (corePlace c k q.2.1) q.2.2) d

/-- Trap VECTOR or MCHK at an element: those below it have completed (R429, R430). -/
def Device.vfault (d : Device) (c k : Nat) (st : Bool) (w dst : Nat) (els : List (Nat × Nat × List Byte)) (e kind a : Nat) :
    Device :=
  let done := els.filter (fun p => decide (p.1 < e))
  let x := d.core c k
  let d := if st then d.vstore c k done
    else if done.isEmpty then d
    else d.setCore c k { x with flight := x.flight ++ [(1, d.vloadWrite c k w dst done)] }
  let d := ((d.put (CX_VFAULT_AT c k) e).put (CX_VFAULT_KIND c k) kind).put (CX_VFAULT_VALID c k) 1
  let d := ((d.put (CX_VRESUME_FROM c k) e).put (CX_VRESUME_PC c k) x.pc).put (CX_VRESUME_ARMED c k) 1
  let d := d.setCore c k { d.core c k with resumed := false }
  if kind = 4 then d.machineCheck c k (cspace a).detail (some a) else d.takeTrap c k xVector false kind (some a)

/-- The first memory fault of a bundle's loads and vector accesses, taken; none when there is none. -/
def Device.memFaults (d : Device) (c k : Nat) : List CEff → Option Device
  | [] => none
  | .load _ a _ _ _ _ true :: _ => if cspace a == .far then none else some (d.machineCheck c k (cspace a).detail (some a))
  | .vmem slot st w els dst ue :: t =>
    match vmemFault slot w els ue with
    | some (e, kind, a) => some (d.vfault c k st w dst els e kind a)
    | none => d.memFaults c k t
  | _ :: t => d.memFaults c k t

/-- The bundle's far loads whose data has not come: tried in turn until one waits or traps. -/
def Device.farLoads (d : Device) (c k : Nat) : List CEff → Device
  | [] => d
  | .load slot a size _ _ verify _ :: t =>
    let x := d.core c k
    if !x.whole || x.load.isSome then d
    else if cspace a != .far || x.got.any (fun g => g.slot == slot) then d.farLoads c k t
    else
      let q : FarReq := ⟨false, slot, d.farAddr c k a, size, [], false, verify, false, (d.farMark c k).1, (d.farMark c k).2,
        x.item.map d.handleOf, 0, 0, none⟩
      let d := d.hpm c k 13 1
      if x.stores.any (·.barrier) then d.setCore c k { d.core c k with load := some q }
      else (d.farLoad c k q).farLoads c k t
  | _ :: t => d.farLoads c k t

/-- A loaded value: sign-extended or not. -/
def extend (size : Nat) (signed : Bool) (v : Nat) : Word :=
  if signed then BitVec.ofInt 32 (toSigned (8 * size) v) else BitVec.ofNat 32 v

/-- The register writes of an effect, with how many bundles later each is readable. -/
def Device.effWrites (d : Device) (c k : Nat) : CEff → List (Nat × CWrite)
  | .wr n w => [(n, w)]
  | .load slot a size signed dst _ _ =>
    let s := cspace a
    let n := if s == .x || s == .y then 3 else 1
    let v := if s == .far then leNat (((d.core c k).got.find? (fun g => g.slot == slot)).elim [] (·.data))
      else d.load (corePlace c k a) size
    if size = 8 then [(n, .d dst (BitVec.ofNat 32 v)), (n, .d (dst + 1) (BitVec.ofNat 32 (v / 2 ^ 32)))]
    else [(n, .d dst (extend size signed v))]
  | .vmem _ st w els dst _ =>
    if st || els.isEmpty then []
    else [(if els.any (fun p => cspace p.2.1 != .shared) then 4 else 1, d.vloadWrite c k w dst els)]
  | _ => []

/-- The stores of a bundle, SX before SY. -/
def Device.effStore (d : Device) (c k : Nat) : CEff → Device
  | .store slot a bs barrier =>
    if cspace a == .far then
      let x := d.core c k
      d.farSend c k ⟨true, slot, d.farAddr c k a, bs.length, bs, barrier, false, d.on (CX_STATUS_PROV c k), (d.farMark c k).1,
        (d.farMark c k).2, x.item.map d.handleOf, 0, 0, none⟩
    else d.store (corePlace c k a) bs
  | .vmem _ true _ els _ _ => d.vstore c k els
  | _ => d

/-- The corrected errors a bundle's reads found, before its stores (R428, R469, R471). -/
def Device.effCe (d : Device) (c k : Nat) : CEff → Device
  | .ce a pos rmw => (d.cluCe c (coreOffset k a) pos rmw).hpm c k 20 1
  | _ => d

/-- Reads of CSRs by a bundle: each value, then the register write. -/
def Device.csrReads (d : Device) (c k : Nat) : List CEff → Device × List (Nat × CWrite)
  | [] => (d, [])
  | .csrRead num dst :: t =>
    match d.csrRead c k num with
    | (d, v) => match d.csrReads c k t with
      | (d, ws) => (d, (1, .d dst (BitVec.ofNat 32 v)) :: ws)
  | _ :: t => d.csrReads c k t

/-- What else an effect does, once the registers are written and the PC has moved. -/
def Device.effLast (d : Device) (c k : Nat) : CEff → Device
  | .csrWrite num v => if num % 4 = 0 && num < 0x1000 then d.csrPut c k num v.toNat true else d
  | .eret => d.eret c k
  | .clrProv => d.put (CX_STATUS_PROV c k) 0
  | .claim gl e => (d.put (CX_VGRANT_GL c k) gl).put (CX_VSHAPE_ELEM c k) e
  | .vector n => (((d.put (CX_STATUS_VLIVE c k) 1)).hpm c k 17 1).hpm c k 18 n
  | .cp o =>
    let seq := (List.range 8).foldl (fun n j => max n (d.core c j).cpSeq) 0 + 1
    let x := d.core c k
    let slots := d.get (CLU_CP_STATUS_SLOT c)
    let d := (d.put (CLU_CP_STATUS_SLOT c) (putBits slots k k 1)).hpm c k 16 1
    (d.setCore c k { d.core c k with cp := some { o with prov := d.on (CX_STATUS_PROV c k) }, cpSeq := seq, cpWait := x.cpWait || o.w }).cpNext c
  | .wait ue =>
    let x := d.core c k
    let d := d.setCore c k { x with waiting := true }
    if !x.restore then d
    else
      let frames := x.frames.length
      let d := d.coreTake c k
      if ue && (d.core c k).frames.length < frames then d.machineCheck c k 5 none else d
  | _ => d

/-- Marks of the data a bundle's far loads returned (R391, R392). -/
def Device.loadMarks (d : Device) (c k : Nat) : Device :=
  (d.core c k).got.foldl (fun (d : Device) g =>
    let d := if g.prov then d.put (CX_STATUS_PROV c k) 1 else d
    if g.unver then (d.put (CX_STATUS_UNVER c k) 1).hpm c k 19 1 else d) d

/-- Results of vector units, one bundle on, with those of this bundle (R423, R424). -/
def Core.unitsOn (x : Core) (es : List CEff) : List UnitRes :=
  let old := (x.units.map (fun u => { u with age := u.age + 1 })).filter (fun u => decide (u.age ≤ 6))
  old ++ es.filterMap (fun e => match e with
    | .unit u => some { u with age := 1 }
    | _ => none)

/-- A core one bundle on: the bundle's register writes, where it goes, and what its units leave (R380). -/
def Core.retire (x : Core) (ws : List (Nat × CWrite)) (es : List CEff) : Core :=
  let x := x.aged
  let x : Core := { x with
    regs := x.regs.writes ((ws.filter (fun w => decide (w.1 ≤ 1))).map (·.2))
    flight := x.flight ++ (ws.filter (fun w => decide (1 < w.1))).map (fun w => (w.1 - 1, w.2)) }
  let x : Core := { x.advance es with units := x.unitsOn es, since := x.since + 1 }
  { x with opened := false, whole := false, slots := [], staged := [], got := [], pass := false, resumed := false }

/-- The commit of a bundle up to its register writes: stores, marks of loaded data, reads of CSRs, and the core one
bundle on. -/
def Device.commitRegs (d : Device) (c k : Nat) : Device :=
  let es := (d.core c k).staged
  let ws : List (Nat × CWrite) := es.flatMap (d.effWrites c k)
  let d := d.hpm c k 2 1
  let d := es.foldl (fun (d : Device) e => d.effCe c k e) d
  let d := (es.foldl (fun (d : Device) e => d.effStore c k e) d).loadMarks c k
  match d.csrReads c k es with
  | (d, rs) =>
    let x := d.core c k
    let d := d.setCore c k (x.retire (ws ++ rs) es)
    if x.resumed then d.put (CX_VRESUME_ARMED c k) 0 else d

/-- What follows a commit: a step of the debugger ends, or a halt that is asked for takes place. -/
def Device.commitEnd (d : Device) (c k : Nat) : Device :=
  let x := d.core c k
  if x.halted then (if x.step && x.between then d.setCore c k { x with step := false } else d) else d.dbgTry c k

/-- The commit of a bundle all of whose loads have their data (R379, R428). -/
def Device.commit (d : Device) (c k : Nat) : Device :=
  (((d.core c k).staged).foldl (fun (d : Device) e => d.effLast c k e) (d.commitRegs c k)).commitEnd c k

/-- A whole bundle: its traps, what holds it back, its loads, its commit. -/
def Device.bundleGo (d : Device) (c k : Nat) : Device :=
  let x := d.core c k
  if !x.whole || x.load.isSome then d
  else match trapOf x.staged with
    | some (code, detail, addr) => d.takeTrap c k code false detail (if code = xAddr then some addr else none)
    | none =>
      if d.bundleStall c k then d
      else match d.memFaults c k x.staged with
        | some d => d
        | none =>
          let d := d.farLoads c k x.staged
          if (d.core c k).whole && (d.core c k).load.isNone then d.commit c k else d

/-- After an answer has come: stores go on, a held end of the item, and the stalled bundle. -/
def Device.coreOn (d : Device) (c k : Nat) : Device :=
  let d := d.farDrain c k 17
  let x := d.core c k
  let d := match x.done with
    | some st => if d.storesOut c k then d else d.finish c k st
    | none => d
  let x := d.core c k
  match x.load with
  | some q => if q.fresh && !x.stores.any (·.barrier) then (d.farLoad c k q).bundleGo c k else d
  | none => d.bundleGo c k

/-- FAR_RETRY of store n, or of the load for n = 16 (R373). -/
def execFarRetry (c : Fin 20) (k : Fin 8) (n : Fin 17) (s : State) : Host.Outcome State Fault Refusal :=
  s.run (fun d =>
    let c := c.val
    let k := k.val
    if n.val < 16 then (d.storeRetry c k n.val).coreOn c k
    else match (d.core c k).load with
      | some q => if q.fresh then d else (d.farLoad c k q).coreOn c k
      | none => d)

/-! ### Issue (R375, R376, R578) -/

/-- Whether a core issues bundles. -/
def Device.issues (d : Device) (c k : Nat) : Bool :=
  let x := d.core c k
  !x.opened && !x.whole && !x.waiting && (!x.halted || x.step) && !x.dead && !x.cpWait && x.load.isNone &&
    d.domSt c == pRun && !d.coreFenced c k && !d.power.trip

/-- Whether a breakpoint halts a core before the bundle at its PC. -/
def Device.breakHit (d : Device) (c k : Nat) : Bool :=
  let x := d.core c k
  !x.pass && !x.halted && !d.on HWD_DBG_LOCK && (List.range 2).any (fun n =>
    d.on (CLU_DBG_BP_EN c n) && d.get (CLU_DBG_BP_PC c n) == x.pc && bit (d.get (CLU_DBG_BP_CORES c n)) k)

/-- The first slot of a bundle: the breakpoint, the fetch, or the bundle opens. -/
def Device.bundleOpen (d : Device) (c k : Nat) (fetchUe : Bool) : Device :=
  let x := d.core c k
  if !d.issues c k then d
  else if d.breakHit c k then d.haltCore c k
  else if 0x17FE0 < x.pc || x.pc % 32 ≠ 0 then d.takeTrap c k xAddrFetch false 0 (some x.pc)
  else if fetchUe then d.machineCheck c k 1 (some x.pc)
  else d.setCore c k { x with opened := true, slots := [], staged := [], got := [] }

/-- An instruction in its slot: decoded from the registers as the bundle finds them; the last one lets the bundle
go. use is how many free values it may draw. -/
def Device.issue (d : Device) (i : SlotOp) (slots : List Nat) (use : Nat) (eff : Device → Core → List CEff) : Device :=
  let c := i.c.val
  let k := i.k.val
  let d := if i.first then d.bundleOpen c k i.fetchUe else d
  let x := d.core c k
  if !x.opened || x.whole || x.slots.any (fun s => decide (i.slot.val ≤ s)) then d
  else
    let es := if slots.contains i.slot.val then eff d x else [.trap 0 xIllegal 0 0]
    let d := { d with free := d.free + use }.setCore c k { x with
      slots := x.slots ++ [i.slot.val], staged := x.staged ++ es, whole := i.last }
    if i.last then d.bundleGo c k else d

end Sys2Proof.Machine
end

