-- ==== Sys2Proof/Machine/CoreOps.lean ====
section
/-! DEFINITION. Scalar instructions of a signal core (R383, R384, R407): what each does in its slot. Core.issue
stages it; the bundle's commit makes it (Cores.lean). -/

namespace Sys2Proof.Machine
open R

/-! ### Fields and operands -/

def opDst (i : SlotOp) : Nat := i.dst.toNat
def opS1 (i : SlotOp) : Nat := i.src1.toNat
def opS2 (i : SlotOp) : Nat := i.src2.toNat
def opMod (i : SlotOp) : Nat := i.mod.toNat

/-- The trap of an instruction R378 refuses. -/
def refused : List CEff := [.trap 0 xIllegal 0 0]

/-- The 23-bit signed immediate. -/
def imm23 (i : SlotOp) : Word := i.mod.signExtend 32

/-! ### Addresses (R383) -/

/-- The low m bits of a number in reverse. -/
def revBits : Nat → Nat → Nat
  | 0, _ => 0
  | m + 1, n => n % 2 * 2 ^ m + revBits m (n / 2)

/-- An address register's mode under CX_AMODE; A8 to A15 are linear. -/
def Device.amode (d : Device) (c k an : Nat) : Nat :=
  if an < 8 then bits (d.get (CX_AMODE_MODE c k)) (2 * an + 1) (2 * an) else 0

/-- An updated address register: linear, circular or bit-reversed. -/
def amodeNext (mode : Nat) (a b l : Word) (inc : Int) : Word :=
  let o := (a - b).toNat
  let len := l.toNat
  let linear : Word := a + BitVec.ofInt 32 inc
  if len = 0 then linear
  else if mode = 1 then (if o < len then b + BitVec.ofInt 32 (((o : Int) + inc) % (len : Int)) else linear)
  else if mode = 2 then
    let m := Nat.log2 len
    let low := revBits m ((revBits m (o % 2 ^ m) + revBits m (ofSigned m inc)) % 2 ^ m)
    b + BitVec.ofNat 32 (o / 2 ^ m * 2 ^ m + low)
  else linear

/-- The write that updates address register an by inc. -/
def Device.aUpdate (d : Device) (c k : Nat) (r : CoreRegs) (an : Nat) (inc : Int) : CEff :=
  .wr 1 (.a an (amodeNext (d.amode c k an) (r.areg an) (r.breg an) (r.lreg an) inc))

/-- The effective address and the base register's update of a load or store. -/
def Device.aMode (d : Device) (i : SlotOp) (r : CoreRegs) : Nat × List CEff :=
  let m := opMod i
  let an := opS1 i
  let off := toSigned 11 m
  let upd := d.aUpdate i.c.val i.k.val r an
  match bits m 14 13 with
  | 0 => ((r.areg an).toNat, [])
  | 1 => ((r.areg an).toNat, [upd off])
  | 2 => ((r.areg an).toNat, [upd (r.nreg (m % 8)).toInt])
  | _ => ((r.areg an + BitVec.ofInt 32 off).toNat, [])

/-- Trap ADDR of an address a slot may not reach, or that is misaligned. -/
def addrTrap (slot a size : Nat) : List CEff :=
  if a % size ≠ 0 || !(cspace a).okFor slot then [.trap 1 xAddr 0 a] else []

/-- A corrected error of the word an access reads in a memory of the cluster. -/
def ceOf (i : SlotOp) (a : Nat) (rmw : Bool) : List CEff :=
  match i.ce with
  | some p => if cspace a == .far then [] else [.ce a p.val rmw]
  | none => []

/-- A load of size bytes. -/
def loadEff (i : SlotOp) (size : Nat) (signed : Bool) (d : Device) (x : Core) : List CEff :=
  let m := opMod i
  let dst := opDst i
  if bit m 11 || 16 ≤ opS1 i || (size = 8 && dst = 31) then refused
  else match d.aMode i x.regs with
    | (a, upd) => addrTrap i.slot.val a size ++ .load i.slot.val a size signed dst (bit m 12) i.ue.isSome :: upd ++ ceOf i a false

/-- A store of size bytes. -/
def storeEff (i : SlotOp) (size : Nat) (d : Device) (x : Core) : List CEff :=
  let m := opMod i
  let s := opS2 i
  if bit m 12 || 16 ≤ opS1 i || (size = 8 && s = 31) then refused
  else match d.aMode i x.regs with
    | (a, upd) =>
      let v := (x.regs.dreg s).toNat + (if size = 8 then 2 ^ 32 * (x.regs.dreg (s + 1)).toNat else 0)
      addrTrap i.slot.val a size ++ .store i.slot.val a (leBytes size v) (bit m 11) :: upd ++
        (if size = 8 then [] else ceOf i a true)

def execLdB (i : SlotOp) (s : State) : Host.Outcome State Fault Refusal := s.run (fun d => d.issue i [0, 1] 0 (loadEff i 1 true))
def execLdBu (i : SlotOp) (s : State) : Host.Outcome State Fault Refusal := s.run (fun d => d.issue i [0, 1] 0 (loadEff i 1 false))
def execLdH (i : SlotOp) (s : State) : Host.Outcome State Fault Refusal := s.run (fun d => d.issue i [0, 1] 0 (loadEff i 2 true))
def execLdHu (i : SlotOp) (s : State) : Host.Outcome State Fault Refusal := s.run (fun d => d.issue i [0, 1] 0 (loadEff i 2 false))
def execLdW (i : SlotOp) (s : State) : Host.Outcome State Fault Refusal := s.run (fun d => d.issue i [0, 1] 0 (loadEff i 4 false))
def execLdD (i : SlotOp) (s : State) : Host.Outcome State Fault Refusal := s.run (fun d => d.issue i [0, 1] 0 (loadEff i 8 false))
def execStB (i : SlotOp) (s : State) : Host.Outcome State Fault Refusal := s.run (fun d => d.issue i [0, 1] 0 (storeEff i 1))
def execStH (i : SlotOp) (s : State) : Host.Outcome State Fault Refusal := s.run (fun d => d.issue i [0, 1] 0 (storeEff i 2))
def execStW (i : SlotOp) (s : State) : Host.Outcome State Fault Refusal := s.run (fun d => d.issue i [0, 1] 0 (storeEff i 4))
def execStD (i : SlotOp) (s : State) : Host.Outcome State Fault Refusal := s.run (fun d => d.issue i [0, 1] 0 (storeEff i 8))

/-! ### Multiply-accumulate -/

/-- Halves of a cs16 register: real part below, imaginary part above. -/
def reOf (v : Word) : Int := toSigned 16 v.toNat
def imOf (v : Word) : Int := toSigned 16 (v.toNat / 2 ^ 16)

/-- An accumulator with every write in flight: an accumulation reads the newest value (DEDUCED from R389). -/
def Core.accNow (x : Core) (n : Nat) : BitVec 40 × BitVec 40 := x.landed.regs.acc n

/-- A 40-bit part: the sum, or a free value where it does not fit, the n-th of the instruction. -/
def accPart (d : Device) (n : Nat) (v : Int) : BitVec 40 :=
  if -(2 ^ 39) ≤ v && v < 2 ^ 39 then BitVec.ofInt 40 v else BitVec.ofNat 40 (Config.free (d.free + n))

/-- A product, written to or added to AC(DST [2:0]). -/
def macEff (i : SlotOp) (add : Bool) (re im : Int) (d : Device) (x : Core) : List CEff :=
  let n := opDst i % 8
  let a := if add then x.accNow n else (0, 0)
  [.wr 2 (.ac n (accPart d 0 (a.1.toInt + re)) (accPart d 1 (a.2.toInt + im)))]

/-- A complex 16+16 multiply by SRC2 or its conjugate. -/
def cmacEff (i : SlotOp) (add conj : Bool) (d : Device) (x : Core) : List CEff :=
  let a := x.regs.dreg (opS1 i)
  let b := x.regs.dreg (opS2 i)
  let bi := if conj then -(imOf b) else imOf b
  macEff i add (reOf a * reOf b - imOf a * bi) (reOf a * bi + imOf a * reOf b) d x

/-- A dual real 16×16 multiply: lower halves into the real part, upper halves into the imaginary part. -/
def mac2Eff (i : SlotOp) (add : Bool) (d : Device) (x : Core) : List CEff :=
  let a := x.regs.dreg (opS1 i)
  let b := x.regs.dreg (opS2 i)
  macEff i add (reOf a * reOf b) (imOf a * imOf b) d x

def execCmac (i : SlotOp) (s : State) : Host.Outcome State Fault Refusal := s.run (fun d => d.issue i [2, 3] 2 (cmacEff i true false))
def execCmacj (i : SlotOp) (s : State) : Host.Outcome State Fault Refusal := s.run (fun d => d.issue i [2, 3] 2 (cmacEff i true true))
def execCmul (i : SlotOp) (s : State) : Host.Outcome State Fault Refusal := s.run (fun d => d.issue i [2, 3] 2 (cmacEff i false false))
def execCmulj (i : SlotOp) (s : State) : Host.Outcome State Fault Refusal := s.run (fun d => d.issue i [2, 3] 2 (cmacEff i false true))
def execMac2 (i : SlotOp) (s : State) : Host.Outcome State Fault Refusal := s.run (fun d => d.issue i [2, 3] 2 (mac2Eff i true))
def execMpy2 (i : SlotOp) (s : State) : Host.Outcome State Fault Refusal := s.run (fun d => d.issue i [2, 3] 2 (mac2Eff i false))

/-- MPY32: how the 64-bit product lies in the accumulator's two 40-bit parts is not stated: both are free. -/
def execMpy32 (i : SlotOp) (s : State) : Host.Outcome State Fault Refusal :=
  s.run (fun d => d.issue i [2, 3] 2 (fun d _ =>
    [.wr 2 (.ac (opDst i % 8) (BitVec.ofNat 40 (Config.free d.free)) (BitVec.ofNat 40 (Config.free (d.free + 1))))]))

/-- v / 2^s rounded to nearest; the direction of a tie is free, the n-th free value of the instruction. -/
def roundShift (d : Device) (n : Nat) (v : Int) (s : Nat) : Int :=
  if s = 0 then v
  else
    let q := v / 2 ^ s
    let r := v % 2 ^ s
    if r < 2 ^ (s - 1) then q
    else if r = 2 ^ (s - 1) && !Config.freeBool (d.free + n) then q
    else q + 1

/-- ACCMV: the accumulator shifted by MOD [5:0], rounded, saturated to 16+16. -/
def execAccmv (i : SlotOp) (s : State) : Host.Outcome State Fault Refusal :=
  s.run (fun d => d.issue i [2, 3] 2 (fun d x =>
    let a := x.regs.acc (opS1 i % 8)
    let sh := opMod i % 64
    let re := ofSigned 16 (satSigned 16 (roundShift d 0 a.1.toInt sh))
    let im := ofSigned 16 (satSigned 16 (roundShift d 1 a.2.toInt sh))
    [.wr 2 (.d (opDst i) (BitVec.ofNat 32 (re + 2 ^ 16 * im)))]))

def execAccclr (i : SlotOp) (s : State) : Host.Outcome State Fault Refusal :=
  s.run (fun d => d.issue i [2, 3] 0 (fun _ _ => [.wr 2 (.ac (opDst i % 8) 0 0)]))

/-! ### ALU -/

/-- A free word: the result of operands for which the spec states none. -/
def freeWord (d : Device) : Word := BitVec.ofNat 32 (Config.free d.free)

/-- D(DST) = f of SRC1 and SRC2, or of SRC1 and the immediate. -/
def Device.alu (d : Device) (i : SlotOp) (imm : Bool) (f : Device → Word → Word → Word) : Device :=
  d.issue i [4] 4 (fun d x =>
    let b := if imm then imm23 i else x.regs.dreg (opS2 i)
    [.wr 1 (.d (opDst i) (f d (x.regs.dreg (opS1 i)) b))])

/-- An operation of one operand: what its immediate form computes is not stated, and its result is free. -/
def Device.alu1 (d : Device) (i : SlotOp) (imm : Bool) (f : Device → Word → Word) : Device :=
  d.alu i imm (fun d a _ => if imm then freeWord d else f d a)

/-- A 32-bit signed result, saturated. -/
def sat32 (v : Int) : Word := BitVec.ofInt 32 (satSigned 32 v)

/-- A shift: by 32 or more, no result is stated. -/
def shiftBy (f : Word → Nat → Word) (d : Device) (a b : Word) : Word :=
  if b.toNat < 32 then f a b.toNat else freeWord d

/-- Leading zeros of a word. -/
def clz32 (v : Word) : Nat := if v = 0 then 32 else 31 - Nat.log2 v.toNat

/-- One of the four halfwords of two words. -/
def halfOf (a b : Word) (n : Nat) : Nat :=
  match n % 4 with
  | 0 => a.toNat % 2 ^ 16
  | 1 => a.toNat / 2 ^ 16
  | 2 => b.toNat % 2 ^ 16
  | _ => b.toNat / 2 ^ 16

def execAdd (i : SlotOp) (imm : Bool) (s : State) : Host.Outcome State Fault Refusal := s.run (fun d => d.alu i imm (fun _ a b => a + b))
def execAdds (i : SlotOp) (imm : Bool) (s : State) : Host.Outcome State Fault Refusal :=
  s.run (fun d => d.alu i imm (fun _ a b => sat32 (a.toInt + b.toInt)))
def execSub (i : SlotOp) (imm : Bool) (s : State) : Host.Outcome State Fault Refusal := s.run (fun d => d.alu i imm (fun _ a b => a - b))
def execSubs (i : SlotOp) (imm : Bool) (s : State) : Host.Outcome State Fault Refusal :=
  s.run (fun d => d.alu i imm (fun _ a b => sat32 (a.toInt - b.toInt)))
def execAnd (i : SlotOp) (imm : Bool) (s : State) : Host.Outcome State Fault Refusal := s.run (fun d => d.alu i imm (fun _ a b => a &&& b))
def execOr (i : SlotOp) (imm : Bool) (s : State) : Host.Outcome State Fault Refusal := s.run (fun d => d.alu i imm (fun _ a b => a ||| b))
def execXor (i : SlotOp) (imm : Bool) (s : State) : Host.Outcome State Fault Refusal := s.run (fun d => d.alu i imm (fun _ a b => a ^^^ b))
def execShl (i : SlotOp) (imm : Bool) (s : State) : Host.Outcome State Fault Refusal :=
  s.run (fun d => d.alu i imm (shiftBy (fun a n => a <<< n)))
def execShr (i : SlotOp) (imm : Bool) (s : State) : Host.Outcome State Fault Refusal :=
  s.run (fun d => d.alu i imm (shiftBy (fun a n => a >>> n)))
def execSar (i : SlotOp) (imm : Bool) (s : State) : Host.Outcome State Fault Refusal :=
  s.run (fun d => d.alu i imm (shiftBy (fun a n => a.sshiftRight n)))

/-- MIN and MAX compare as signed numbers (DEDUCED: the U forms of R407 say when they do not). -/
def execMin (i : SlotOp) (imm : Bool) (s : State) : Host.Outcome State Fault Refusal :=
  s.run (fun d => d.alu i imm (fun _ a b => if a.toInt ≤ b.toInt then a else b))
def execMax (i : SlotOp) (imm : Bool) (s : State) : Host.Outcome State Fault Refusal :=
  s.run (fun d => d.alu i imm (fun _ a b => if a.toInt ≤ b.toInt then b else a))

/-- ABS: of the most negative number no result is stated. -/
def execAbs (i : SlotOp) (imm : Bool) (s : State) : Host.Outcome State Fault Refusal :=
  s.run (fun d => d.alu1 i imm (fun d a => if a.toInt = -(2 ^ 31) then freeWord d else BitVec.ofInt 32 a.toInt.natAbs))
def execClz (i : SlotOp) (imm : Bool) (s : State) : Host.Outcome State Fault Refusal :=
  s.run (fun d => d.alu1 i imm (fun _ a => BitVec.ofNat 32 (clz32 a)))
def execBrev (i : SlotOp) (imm : Bool) (s : State) : Host.Outcome State Fault Refusal :=
  s.run (fun d => d.alu1 i imm (fun _ a => BitVec.ofNat 32 (revBits 32 a.toNat)))

/-- PACKH: which halfwords of the operands it packs, and in which order, is free. -/
def execPackh (i : SlotOp) (imm : Bool) (s : State) : Host.Outcome State Fault Refusal :=
  s.run (fun d => d.alu i imm (fun d a b =>
    BitVec.ofNat 32 (halfOf a b (Config.free d.free) + 2 ^ 16 * halfOf a b (Config.free (d.free + 1)))))

/-- A compare into P(DST [2:0]). -/
def Device.cmp (d : Device) (i : SlotOp) (f : Word → Word → Bool) : Device :=
  d.issue i [4] 0 (fun _ x => [.wr 1 (.p (opDst i % 8) (f (x.regs.dreg (opS1 i)) (x.regs.dreg (opS2 i))))])

def execCmpeq (i : SlotOp) (s : State) : Host.Outcome State Fault Refusal := s.run (fun d => d.cmp i (fun a b => a == b))
def execCmplt (i : SlotOp) (s : State) : Host.Outcome State Fault Refusal := s.run (fun d => d.cmp i (fun a b => decide (a.toInt < b.toInt)))
def execCmpltu (i : SlotOp) (s : State) : Host.Outcome State Fault Refusal := s.run (fun d => d.cmp i (fun a b => decide (a.toNat < b.toNat)))

/-- SEL: SRC1 where P(MOD [2:0]) is 1, else SRC2. -/
def execSel (i : SlotOp) (s : State) : Host.Outcome State Fault Refusal :=
  s.run (fun d => d.issue i [4] 0 (fun _ x =>
    [.wr 1 (.d (opDst i) (if x.regs.preg (opMod i % 8) then x.regs.dreg (opS1 i) else x.regs.dreg (opS2 i)))]))

def execMovi (i : SlotOp) (s : State) : Host.Outcome State Fault Refusal :=
  s.run (fun d => d.issue i [4] 0 (fun _ _ => [.wr 1 (.d (opDst i) (imm23 i))]))

/-- MOVHI: bits [31:16] from MOD [15:0]; the lower half stays. -/
def execMovhi (i : SlotOp) (s : State) : Host.Outcome State Fault Refusal :=
  s.run (fun d => d.issue i [4] 0 (fun _ x =>
    [.wr 1 (.d (opDst i) (BitVec.ofNat 32 (putBits (x.regs.dreg (opDst i)).toNat 31 16 (opMod i))))]))

/-! ### Address registers -/

/-- ADDA writes A(DST): what it adds is not stated, and its result is free. -/
def execAdda (i : SlotOp) (s : State) : Host.Outcome State Fault Refusal :=
  s.run (fun d => d.issue i [4] 1 (fun d _ => if 16 ≤ opDst i then refused else [.wr 1 (.a (opDst i) (freeWord d))]))
def execMova (i : SlotOp) (s : State) : Host.Outcome State Fault Refusal :=
  s.run (fun d => d.issue i [4] 0 (fun _ x =>
    if 16 ≤ opDst i then refused else [.wr 1 (.a (opDst i) (x.regs.dreg (opS1 i)))]))
def execMovd (i : SlotOp) (s : State) : Host.Outcome State Fault Refusal :=
  s.run (fun d => d.issue i [4] 0 (fun _ x =>
    if 16 ≤ opS1 i then refused else [.wr 1 (.d (opDst i) (x.regs.areg (opS1 i)))]))

/-- A D register into one of eight registers. -/
def Device.movTo (d : Device) (i : SlotOp) (w : Nat → Word → CWrite) : Device :=
  d.issue i [4] 0 (fun _ x => if 8 ≤ opDst i then refused else [.wr 1 (w (opDst i) (x.regs.dreg (opS1 i)))])

def execMovb (i : SlotOp) (s : State) : Host.Outcome State Fault Refusal := s.run (fun d => d.movTo i .b)
def execMovl (i : SlotOp) (s : State) : Host.Outcome State Fault Refusal := s.run (fun d => d.movTo i .l)
def execMovn (i : SlotOp) (s : State) : Host.Outcome State Fault Refusal := s.run (fun d => d.movTo i .n)

/-! ### Branches and repeats (R378, R382, R384) -/

/-- A branch: refused in a delay slot and in the last three bundles of a repeat body. -/
def branchEff (x : Core) (t : Nat) (taken : Bool) (more : List CEff) : List CEff :=
  if x.branch.isSome then refused
  else match x.loops with
    | l :: _ => if l.stop < x.pc + 96 then refused else .branch t taken :: more
    | [] => .branch t taken :: more

/-- The link: the bundle after the delay slots. -/
def linkEff (x : Core) : CEff := .wr 1 (.a 15 (BitVec.ofNat 32 (x.pc + 128)))

def execBr (i : SlotOp) (s : State) : Host.Outcome State Fault Refusal :=
  s.run (fun d => d.issue i [5] 0 (fun _ x => branchEff x (opMod i % 2 ^ 17) true []))

/-- BRP: P(MOD [2:0]); the target's own low bits are those of an aligned address. -/
def execBrp (i : SlotOp) (s : State) : Host.Outcome State Fault Refusal :=
  s.run (fun d => d.issue i [5] 0 (fun _ x => branchEff x (bits (opMod i) 16 3 * 8) (x.regs.preg (opMod i % 8)) []))
def execCall (i : SlotOp) (s : State) : Host.Outcome State Fault Refusal :=
  s.run (fun d => d.issue i [5] 0 (fun _ x => branchEff x (opMod i % 2 ^ 17) true [linkEff x]))
def execCallr (i : SlotOp) (s : State) : Host.Outcome State Fault Refusal :=
  s.run (fun d => d.issue i [5] 0 (fun _ x =>
    if 16 ≤ opS1 i then refused else branchEff x (x.regs.areg (opS1 i)).toNat true [linkEff x]))
def execRet (i : SlotOp) (s : State) : Host.Outcome State Fault Refusal :=
  s.run (fun d => d.issue i [5] 0 (fun _ x => branchEff x (x.regs.areg 15).toNat true []))

/-- A repeat of count iterations. -/
def repEff (i : SlotOp) (x : Core) (count : Nat) : List CEff :=
  let n := opMod i % 128 + 128 * (opS2 i % 8)
  let l : Loop := ⟨x.pc + 32, x.pc + 32 * n, count⟩
  let past := match x.loops with
    | [] => false
    | m :: _ => decide (m.stop < l.stop)
  if x.branch.isSome || 8 ≤ opS2 i || n = 0 || 3 ≤ x.loops.length || past then refused else [.loop l (count == 0)]

def execRep (i : SlotOp) (s : State) : Host.Outcome State Fault Refusal :=
  s.run (fun d => d.issue i [5] 0 (fun _ x => repEff i x (bits (opMod i) 22 7)))
def execRepd (i : SlotOp) (s : State) : Host.Outcome State Fault Refusal :=
  s.run (fun d => d.issue i [5] 0 (fun _ x => repEff i x ((x.regs.dreg (opS1 i)).toNat % 2 ^ 16)))

/-! ### System (R373, R375, R385, R386, R392, R393) -/

def execSyscall (i : SlotOp) (s : State) : Host.Outcome State Fault Refusal :=
  s.run (fun d => d.issue i [5] 0 (fun _ _ => [.trap 1 xSyscall 0 0]))
def execBreakTrap (i : SlotOp) (s : State) : Host.Outcome State Fault Refusal :=
  s.run (fun d => d.issue i [5] 0 (fun _ _ => [.trap 1 xBreak 0 0]))

/-- An instruction for modes from p up: trap PRIV below. -/
def Device.privOp (d : Device) (i : SlotOp) (p : Nat) (e : CEff) : Device :=
  d.issue i [5] 0 (fun d _ => if d.priv i.c.val i.k.val < p then [.trap 0 xPriv 0 0] else [e])

def execEret (i : SlotOp) (s : State) : Host.Outcome State Fault Refusal := s.run (fun d => d.privOp i 1 .eret)
def execWait (i : SlotOp) (s : State) : Host.Outcome State Fault Refusal := s.run (fun d => d.privOp i 2 (.wait i.ue.isSome))
def execClrprov (i : SlotOp) (s : State) : Host.Outcome State Fault Refusal := s.run (fun d => d.privOp i 1 .clrProv)

/-- CSRR: D(DST) = the CSR of number MOD [11:0]. -/
def execCsrr (i : SlotOp) (s : State) : Host.Outcome State Fault Refusal :=
  s.run (fun d => d.issue i [5] 0 (fun d _ =>
    let num := opMod i % 2 ^ 12
    if d.csrBar i.c.val i.k.val num false then [.trap 0 xPriv 0 0] else [.csrRead num (opDst i)]))

/-- CSRW: the CSR of number MOD [11:0] = D(SRC1). -/
def execCsrw (i : SlotOp) (s : State) : Host.Outcome State Fault Refusal :=
  s.run (fun d => d.issue i [5] 0 (fun d x =>
    let num := opMod i % 2 ^ 12
    if d.csrBar i.c.val i.k.val num true then [.trap 0 xPriv 0 0] else [.csrWrite num (x.regs.dreg (opS1 i))]))

def execFence (i : SlotOp) (s : State) : Host.Outcome State Fault Refusal :=
  s.run (fun d => d.issue i [5] 0 (fun _ _ => [.fence]))

/-- ISYNC: instructions come as commands, so a fetch sees every completed write (log entry 40). -/
def execIsync (i : SlotOp) (s : State) : Host.Outcome State Fault Refusal := s.run (fun d => d.issue i [5] 0 (fun _ _ => []))
def execNopH (i : SlotOp) (s : State) : Host.Outcome State Fault Refusal := s.run (fun d => d.issue i [5] 0 (fun _ _ => []))

end Sys2Proof.Machine
end

