-- ==== Sys2Proof/Machine/Coproc.lean ====
section
/-! DEFINITION. The bit-and-sort coprocessor (R396 to R406): its instructions, and the completion of its
operations. -/

namespace Sys2Proof.Machine
open R

/-! ### Instructions (R396 to R398) -/

/-- Whether coprocessor n is enabled for the core's mode. -/
def Device.cpOn (d : Device) (c k n : Nat) : Bool := bit (d.word (CX_CPEN c k)).toNat (4 * n + d.priv c k)

/-- An operation of the coprocessor: the enable bit is checked first, then the parameter block's address. -/
def Device.cpOp (d : Device) (i : SlotOp) (func : Nat) (ap : Fin 16) (w irq : Bool) : Device :=
  d.issue i [5] 0 (fun d x =>
    let a := (x.regs.areg ap.val).toNat
    let s := cspace a
    if !d.cpOn i.c.val i.k.val 0 then [.trap 0 xIllegalCp 0 0]
    else if a % 32 ≠ 0 || s == .far || s == .none then [.trap 0 xAddr 0 a]
    else [.cp ⟨func, a, w, irq, false⟩])

def execCrcGen (i : SlotOp) (ap : Fin 16) (w irq : Bool) (s : State) : Host.Outcome State Fault Refusal :=
  s.run (fun d => d.cpOp i 0x00 ap w irq)
def execCrcChk (i : SlotOp) (ap : Fin 16) (w irq : Bool) (s : State) : Host.Outcome State Fault Refusal :=
  s.run (fun d => d.cpOp i 0x01 ap w irq)
def execGold (i : SlotOp) (ap : Fin 16) (w irq : Bool) (s : State) : Host.Outcome State Fault Refusal :=
  s.run (fun d => d.cpOp i 0x08 ap w irq)
def execScramble (i : SlotOp) (ap : Fin 16) (w irq : Bool) (s : State) : Host.Outcome State Fault Refusal :=
  s.run (fun d => d.cpOp i 0x09 ap w irq)
def execIntlv (i : SlotOp) (ap : Fin 16) (w irq : Bool) (s : State) : Host.Outcome State Fault Refusal :=
  s.run (fun d => d.cpOp i 0x10 ap w irq)
def execDeintlv (i : SlotOp) (ap : Fin 16) (w irq : Bool) (s : State) : Host.Outcome State Fault Refusal :=
  s.run (fun d => d.cpOp i 0x11 ap w irq)
def execSort (i : SlotOp) (ap : Fin 16) (w irq : Bool) (s : State) : Host.Outcome State Fault Refusal :=
  s.run (fun d => d.cpOp i 0x18 ap w irq)
def execTopk (i : SlotOp) (ap : Fin 16) (w irq : Bool) (s : State) : Host.Outcome State Fault Refusal :=
  s.run (fun d => d.cpOp i 0x19 ap w irq)

/-- CPWAIT is of class 0xC too, and is checked for its enable bit. -/
def execCpwait (i : SlotOp) (s : State) : Host.Outcome State Fault Refusal :=
  s.run (fun d => d.issue i [5] 0 (fun d _ => if d.cpOn i.c.val i.k.val 0 then [.cpwait] else [.trap 0 xIllegalCp 0 0]))

/-! ### Bit streams -/

/-- The first n bits of bytes, the first in bit 7 of byte 0 (R283). -/
def bitsOf (n : Nat) (bs : List Byte) : List Bool := (bs.flatMap byteBits).take n

/-- A byte from eight bits, the first in bit 7. -/
def byteOf (bs : List Bool) : Byte := BitVec.ofNat 8 (bs.foldl (fun n b => 2 * n + b2n b) 0)

/-- n bytes from bits; bits past the end of the stream are pad. -/
def packBits (pad : Nat → Bool) : Nat → List Bool → List Byte
  | 0, _ => []
  | n + 1, bs =>
    let h := bs.take 8
    byteOf (h ++ (List.range (8 - h.length)).map pad) :: packBits pad n (bs.drop 8)

/-- The stream whose bit i is bit f i of another. -/
def pick (n : Nat) (f : Nat → Nat) (bs : List Bool) : List Bool := (List.range n).map (fun i => bs.getD (f i) false)

/-! ### CRC (R401) -/

/-- The L parity bits of n bits in the order they are written. -/
def crcParity (code init n : Nat) (bs : List Byte) : List Bool :=
  match crcCode code with
  | none => []
  | some (w, poly) =>
    if code = 7 then (leBytes 4 (crc32c (bs.take (n / 8)))).flatMap byteBits
    else msbBits w (crcBits w poly (init % 2 ^ w) (bitsOf n bs))

/-! ### Interleavers (R401) -/

/-- The smallest T with T (T + 1) / 2 at least e. -/
def triSize (e : Nat) : Nat → Nat → Nat
  | 0, t => t
  | f + 1, t => if e ≤ t * (t + 1) / 2 then t else triSize e f (t + 1)

/-- The reading order of the triangle of TS 38.212 clause 5.4.1.3. -/
def triOrder (e : Nat) : List Nat :=
  let t := triSize e e 0
  (List.range t).flatMap (fun j => ((List.range (t - j)).map (fun i => i * t - i * (i - 1) / 2 + j)).filter (fun k => decide (k < e)))

/-- Which input bit each output bit is, for a mode; none where a parameter is out of range. -/
def intlvOrder (mode n arg0 arg1 : Nat) : Option (List Nat) :=
  match mode with
  | 0 => if [1, 2, 4, 6, 8, 10].contains arg0 && n % arg0 = 0
    then some ((List.range n).map (fun i => i % arg0 * (n / arg0) + i / arg0)) else none
  | 1 => if n = arg0 * arg1 then some ((List.range n).map (fun i => i % arg0 * arg1 + i / arg0)) else none
  | 2 => if n ≤ 8192 then some (triOrder n) else none
  | _ => none

/-- The interleaved stream. -/
def intlvBits (order : List Nat) (bs : List Bool) : List Bool := order.map (fun i => bs.getD i false)

/-- Its inverse: bit i stands where the order names i. -/
def deintlvBits (order : List Nat) (bs : List Bool) : List Bool :=
  (List.range order.length).map (fun i => bs.getD (order.idxOf i) false)

/-! ### Sorting (R401) -/

/-- Entry i of a list: 8 bytes. -/
def entryAt (bs : List Byte) (i : Nat) : List Byte := (bs.drop (8 * i)).take 8

/-- An entry's key. -/
def keyOf (signed : Bool) (e : List Byte) : Int := if signed then toSigned 32 (wordAt e 0) else (wordAt e 0 : Int)

/-- Inserts an entry behind every entry that does not come after it. -/
def sortInsert (after : List Byte → List Byte → Bool) (e : List Byte) : List (List Byte) → List (List Byte)
  | [] => [e]
  | h :: t => if after h e then e :: h :: t else h :: sortInsert after e t

/-- A stable sort of entries. -/
def sortEntries (signed desc : Bool) (es : List (List Byte)) : List (List Byte) :=
  let after := fun a b => if desc then decide (keyOf signed a < keyOf signed b) else decide (keyOf signed b < keyOf signed a)
  es.foldl (fun l e => sortInsert after e l) []

/-! ### Completion (R399 to R401, R403) -/

/-- A parameter block. -/
structure CpBlock where
  n : Nat
  mode : Nat
  src : Nat
  out : Nat
  arg0 : Nat
  arg1 : Nat
  status : Nat
  tag : Nat
  deriving DecidableEq, Repr

def cpBlock (bs : List Byte) : CpBlock :=
  let w := wordAt bs
  ⟨bits (w 0) 23 0, bits (w 0) 31 24, bits (w 1) 23 0, bits (w 2) 23 0, w 3, w 4, bits (w 5) 23 0, bits (w 6) 15 0⟩

/-- The bytes an operation reads and those it writes. -/
def CpBlock.inLen (b : CpBlock) (func : Nat) : Nat :=
  if func = 0x08 then 0 else if 0x18 ≤ func then 8 * b.n else (b.n + 7) / 8

def CpBlock.outLen (b : CpBlock) (func : Nat) : Nat :=
  match func with
  | 0x00 => ((crcCode (b.mode % 16)).elim 0 (·.1) + 7) / 8
  | 0x01 => 0
  | 0x18 => 8 * b.n
  | 0x19 => 8 * b.arg1
  | _ => (b.n + 7) / 8

/-- Whether bytes of a cluster's stride are all memory. -/
def cluRange (o n : Nat) : Bool := cluOffset o && (List.range n).all (fun j => cluOffset (o + j))

/-- RESULT ADDR: an offset outside the cluster's memories or misaligned. -/
def CpBlock.badAddr (b : CpBlock) (func : Nat) : Bool :=
  (func != 0x08 && (b.src % 8 != 0 || !cluRange b.src (b.inLen func))) ||
    b.out % 8 != 0 || !cluRange b.out (b.outLen func) || b.status % 4 != 0 || !cluRange b.status 4

/-- Whether input and output share a byte. -/
def CpBlock.overlaps (b : CpBlock) (func : Nat) : Bool :=
  decide (b.src < b.out + b.outLen func) && decide (b.out < b.src + b.inLen func)

/-- RESULT PARAM. -/
def CpBlock.badParam (b : CpBlock) (func : Nat) : Bool :=
  let code := b.mode % 16
  let l := (crcCode code).elim 0 (·.1)
  match func with
  | 0x00 => 8 ≤ code || (code == 7 && b.n % 8 != 0)
  | 0x01 => 8 ≤ code || b.n ≤ l || (code == 7 && b.n % 8 != 0)
  | 0x08 => false
  | 0x09 => b.overlaps func && b.src != b.out
  | 0x18 => 4096 < b.n
  | 0x19 => 65535 < b.n || b.arg1 = 0 || min 256 b.n < b.arg1 || b.overlaps func
  | _ => (intlvOrder b.mode b.n b.arg0 b.arg1).isNone || b.overlaps func

/-- What an operation writes at OUT, and whether a check finds a mismatch. Pad bits of a last byte are free, and so is a
sort whose output partly overlaps its input. -/
def CpBlock.result (b : CpBlock) (func : Nat) (bs : List Byte) (free : Nat) : List Byte × Bool :=
  let pad := fun j => Config.freeBool (free + j)
  let packed := fun (l : List Bool) => packBits pad ((l.length + 7) / 8) l
  let code := b.mode % 16
  let ent := (List.range b.n).map (entryAt bs)
  let order := (intlvOrder b.mode b.n b.arg0 b.arg1).getD []
  match func with
  | 0x00 => (packed (crcParity code b.arg0 b.n bs), false)
  | 0x01 =>
    let l := (crcCode code).elim 0 (·.1)
    ([], crcParity code b.arg0 (b.n - l) bs != (bitsOf b.n bs).drop (b.n - l))
  | 0x08 => (packed (goldBits b.arg0 b.arg1 b.n), false)
  | 0x09 => (packed (List.zipWith (fun x y => x != y) (bitsOf b.n bs) (goldBits b.arg0 b.arg1 b.n)), false)
  | 0x10 => (packed (intlvBits order (bitsOf b.n bs)), false)
  | 0x11 => (packed (deintlvBits order (bitsOf b.n bs)), false)
  | 0x18 =>
    if b.overlaps func && b.src != b.out then ((List.range (8 * b.n)).map (fun j => BitVec.ofNat 8 (Config.free (free + j))), false)
    else ((sortEntries (bit b.mode 1) (bit b.mode 0) ent).flatten, false)
  | 0x19 => (((sortEntries (bit b.mode 1) true ent).take b.arg1).flatten, false)
  | _ => ([], false)

/-- The status word: DONE, RESULT, FUNC, TAG. -/
def cpStatus (result func tag : Nat) : Nat := 1 + 2 * result + 2 ^ 4 * func + 2 ^ 16 * tag

/-- What an operation writes: outputs first, then the status word. ecc: 0 none, 1 an operand is unreadable, 2 the
parameter block is, but not STATUS, 3 STATUS too. How much of the output stands after ecc 1, and TAG after ecc 2, are
free. Where STATUS is no place for a word, none is written. -/
def Device.cpWrite (d : Device) (c k : Nat) (o : CpOp) (ecc : Nat) : Device :=
  let b := cpBlock (d.bytes (corePlace c k o.block) 32)
  let base := cluBase c
  let status := fun (d : Device) (r tag : Nat) =>
    if b.status % 4 = 0 && cluRange b.status 4 then d.storeNat (base + b.status) 4 (cpStatus r o.func tag) else d
  if ecc = 3 then d.cause (CLU_EV_CAUSE_CP_ERR c) (352 + c)
  else if ecc = 2 then match d.draw 16 with
    | (tag, d) => status d 3 tag
  else if b.badAddr o.func then status d 1 b.tag
  else if b.badParam o.func then status d 2 b.tag
  else
    let ecc := if b.inLen o.func = 0 then 0 else ecc
    let r := b.result o.func (d.bytes (base + b.src) (b.inLen o.func)) (d.free + 1)
    let n := if ecc = 1 then Config.free d.free % (r.1.length + 1) else r.1.length
    let d := { d with free := d.free + 1 + max 8 (b.outLen o.func) }.store (base + b.out) (r.1.take n)
    status d (if ecc = 1 then 3 else if r.2 then 4 else 0) b.tag

/-- CP_COMPLETE: the operation a cluster's unit runs completes; the next starts, and bundles that waited go on. -/
def execCpComplete (c : Fin 20) (ecc : Fin 4) (s : State) : Host.Outcome State Fault Refusal :=
  s.run (fun d =>
    let c := c.val
    match (List.range 8).find? (fun k => (d.core c k).cpRun.isSome) with
    | none => d
    | some k => match (d.core c k).cpRun with
      | none => d
      | some o =>
        let d := (d.cpWrite c k o ecc.val).count (CLU_CP_CNT_OPS_COUNT c) 1
        let x := d.core c k
        let d := d.setCore c k { x with cpRun := none, cpWait := x.cpWait && !o.w }
        let d := if o.i && ecc.val ≠ 3 then d.put (CX_INT_PEND_PEND c k) (putBits (d.get (CX_INT_PEND_PEND c k)) 2 2 1) else d
        (List.range 8).foldl (fun (d : Device) j => d.bundleGo c j) (d.cpNext c))

end Sys2Proof.Machine
end

