-- ==== Sys2Proof/Machine/Fronthaul.lean ====
section
/-! DEFINITION. Ethernet fronthaul: eCPRI messages received, the windows of uplink symbols, and U-plane and C-plane messages sent
(R202 to R206, R532). -/

namespace Sys2Proof.Machine
open R

/-! ### Addresses and compression headers (R187, R203) -/

/-- Header words of a lane's CONTAINER section: VID, PCP, VLAN_EN, the radio unit's and the device's addresses (R187). -/
def hVid (p : List Byte) : Nat := bits (wordAt p 0) 19 8
def hPcp (p : List Byte) : Nat := bits (wordAt p 0) 22 20
def hVlan (p : List Byte) : Bool := bit (wordAt p 0) 23
def hRuMac (p : List Byte) : Nat := wordAt p 1 + 2 ^ 32 * bits (wordAt p 2) 15 0
def hDevMac (p : List Byte) : Nat := bits (wordAt p 2) 31 16 + 2 ^ 16 * wordAt p 3

/-- Addresses and tag of the messages that a lane sends; a STANDBY device puts SB_PCP in the tag, and sends none without a tag
(R532). -/
def Device.ethHdr (d : Device) (p : List Byte) : Option EthHdr :=
  let standby := d.get TWN_STATUS_ROLE == 1
  let pcp := if standby then d.get TWN_CTRL_SB_PCP else hPcp p
  if hVlan p then some ⟨hRuMac p, hDevMac p, some (2 ^ 13 * pcp + hVid p)⟩
  else if standby then none
  else some ⟨hRuMac p, hDevMac p, none⟩

/-- udCompHdr of a container's FORMAT: the method, and the width with 16 as 0. -/
def compHdr : Nat → Nat
  | 1 => 16 * 12
  | 2 => 1 + 16 * 9
  | 3 => 1 + 16 * 12
  | 4 => 1 + 16 * 14
  | _ => 0

/-- udCompHdr of a received section. -/
def sectComp (x : EcpriSect) : Nat := x.meth + 16 * (x.width % 16)

/-! ### Air time (R205, R206) -/

/-- Nanoseconds from TICK 0 to the start of symbol j of a half-subframe, and the end of the one before it, rounded down: N samples
and a prefix each as symBegin has them. -/
def Device.airTime (d : Device) (r : Nat) (half : Int) (j : Nat) : Int :=
  let u := 8 / max 1 r
  (4 * half + d.frameF) * 125000 + (if j = 0 then 0 else 1000000 * (137 * j + u) / (1920 * u) : Nat)

/-- A symbol of a carrier's slot, given by the low 16 bits of its number: its half-subframe and place. -/
def Device.airSym (d : Device) (c slot sym : Nat) : Int × Nat :=
  let r := d.carrierR c
  symHalf r (nearTick 16 (d.carrierTickI r) slot) sym

/-- Start, and end, of the air time of a symbol of a carrier. -/
def Device.airStart (d : Device) (c slot sym : Nat) : Int :=
  d.airTime (d.carrierR c) (d.airSym c slot sym).1 (d.airSym c slot sym).2
def Device.airEnd (d : Device) (c slot sym : Nat) : Int :=
  d.airTime (d.carrierR c) (d.airSym c slot sym).1 ((d.airSym c slot sym).2 + 1)

/-- Whether a time lies in the window of an uplink symbol: TA4_MIN to TA4_MAX after the end of its air time (R205). -/
def Device.inTa4 (d : Device) (c slot sym : Nat) (t : Nat) : Bool :=
  let late : Int := t - d.airEnd c slot sym
  let lo := d.get FIL_CTRL_TA4_MIN
  let hi := max lo (d.get FIL_CTRL_TA4_MAX)
  decide (1000 * lo ≤ late) && decide (late ≤ 1000 * hi)

/-! ### Reception (R202 to R205) -/

/-- The symbol of a container under reception takes PRB groups, and is created when new. -/
def addPrbs (l : List EthSym) (slot sym : Nat) (ps : List (Nat × List Byte)) : List EthSym :=
  if l.any (fun s => s.slot == slot && s.sym == sym) then
    l.map (fun s => if s.slot == slot && s.sym == sym then { s with prbs := s.prbs ++ ps } else s)
  else l ++ [⟨slot, sym, ps⟩]

/-- A message that uses what the device does not support (R202 to R204). -/
def ecpriUnsupp (m : EcpriMsg) : Bool :=
  m.stacked || !m.etherOk || m.rev != 1 || m.concat || !(m.ty == 0 || m.ty == 2 || m.ty == 5) ||
    (m.ty == 0 && m.sects.any (fun x => decide (1 < x.meth))) ||
    (m.ty == 2 && m.sects.any (fun x => !(x.ty == 1 || x.ty == 3) || x.exts.any (· != 1))) ||
    (m.ty == 5 && !(m.action == 0 || m.action == 2 || m.action == 3))

/-- A one-way delay message: a request is answered with the time it came, a remote request makes the device ask, and the answer to
its own request gives the delay (R202; PRESUMED eCPRI, log entry 51). -/
def Device.delayMsg (d : Device) (n : Nat) (m : EcpriMsg) (stamp : Nat) : Device :=
  let x := d.lane n
  if m.action = 0 then d.emit (.delay n 2 stamp)
  else if m.action = 3 then (d.setLane n { x with asked := stamp }).emit (.delay n 0 stamp)
  else if x.asked = 0 then d
  else d.put (FIL_LANE_DELAY_NS n) (ofSigned 32 (m.ts - m.comp - x.asked))

/-- Sections of a U-plane message for a container, outside or inside its window; one whose compression header is not the
container's is discarded and counted (R203, R205). -/
def Device.uplaneMsg (d : Device) (n : Nat) (e : List Byte) (m : EcpriMsg) (at_ : Nat) : Device :=
  let g := 32 * n + cCid e
  if !d.inTa4 (cCarrier e) m.slot.toNat m.sym.val at_ then d.count (FIL_LANE_ETH_DROP_COUNT n) 1
  else
    let good := m.sects.filter (fun x => sectComp x == compHdr (cFmt e))
    let ps := good.flatMap (fun x => x.prbs.zipIdx.map (fun q => (x.start + q.2, q.1)))
    let d := d.count (FIL_LANE_ETH_DROP_COUNT n) (m.sects.length - good.length)
    let x := d.ctr g
    if good.isEmpty && !m.sects.isEmpty then d
    else (d.setCtr g { x with syms := addPrbs x.syms m.slot.toNat m.sym.val ps }).count (FIL_LANE_ETH_RX_COUNT n) 1

/-- A message of an uplink eAxC: the SEQ_IDs missing before it are lost messages (R202). -/
def Device.eaxcMsg (d : Device) (n : Nat) (e : List Byte) (m : EcpriMsg) (at_ : Nat) : Device :=
  let g := 32 * n + cCid e
  let x := d.ctr g
  let gap := match x.rxSeq with
    | some q => (m.seq.toNat + 65536 - q) % 65536
    | none => 0
  let d := (d.setCtr g { x with rxSeq := some ((m.seq.toNat + 1) % 65536) }).count (FIL_LANE_ETH_DROP_COUNT n) gap
  if m.ty = 2 then d.count (FIL_LANE_ETH_RX_COUNT n) 1 else d.uplaneMsg n e m at_

/-- An eCPRI frame on an ETH_25 lane. A damaged one ends at the MAC, and one for another address or VLAN, or for no eAxC of the
lane, is not the device's (DESIGN CHOICE, log entry 51). -/
def Device.ecpri (d : Device) (n : Nat) (m : EcpriMsg) : Device :=
  match d.section? 0x51 n with
  | none => d
  | some s =>
    let p := s.payload
    if d.laneMode n ≠ 3 || !d.laneHears n || !d.ethUp n || !m.ok || (d.lane n).spoilt || m.dst.toNat ≠ hDevMac p then d
    else
      let stamp := d.time.stamp m.into (3 + d.laneMode n)
      let d := d.setLane n { d.lane n with stamp := stamp }
      if ecpriUnsupp m then (d.count (FIL_LANE_ETH_UNSUPP_COUNT n) 1).filCause n FIL_LANE_EV_CAUSE_ETH_UNSUPP
      else if m.tci.map (fun (t : BitVec 16) => t.toNat % 4096) ≠ (if hVlan p then some (hVid p) else none) then d
      else if m.ty = 5 then (d.count (FIL_LANE_ETH_RX_COUNT n) 1).delayMsg n m stamp
      else match (d.ctrEntries n).find? (fun e => cPtr0 e == m.eaxc.toNat && !cDown e) with
        | none => d
        | some e => d.eaxcMsg n e m (d.time.tod + m.into)

/-- A PRB group of a symbol whose window closes: as it came, or all ones where it is missing or the lane is not UP. -/
def Device.prbOf (d : Device) (n : Nat) (e : List Byte) (mine : List (Nat × List Byte)) (p : Nat) : List Byte × Bool :=
  match (if d.ethUp n then mine.find? (fun q => q.1 == p) else none) with
  | some q => (q.2.take (cUnit e) ++ onesBytes (cUnit e - q.2.length), false)
  | none => (onesBytes (cUnit e), true)

/-- The window of a symbol of one container closes. -/
def Device.ta4Ctr (d : Device) (n : Nat) (e : List Byte) (slot sym : Nat) : Device :=
  let g := 32 * n + cCid e
  let x := d.ctr g
  let this := fun (s : EthSym) => s.slot == slot && s.sym == sym
  let mine := (x.syms.filter this).flatMap (·.prbs)
  let x := { x with syms := x.syms.filter (fun s => !this s) }
  if d.ctrStopped e then d.setCtr g { x with acc := [], flags := 0, queue := [] }
  else
    let us := (List.range (d.symPrbs e)).map (d.prbOf n e mine)
    let d := if us.any (·.2) then d.filCause n FIL_LANE_EV_CAUSE_ETH_LOST else d
    us.foldl (fun (d : Device) u => d.feed n e u.1 u.2) (d.setCtr g x)

/-- The window of a symbol of a carrier closes: the PRB groups of its uplink containers on a lane go on in order, the missing
ones as all ones (R205). -/
def Device.ta4Close (d : Device) (n c slot sym : Nat) : Device :=
  if d.laneMode n ≠ 3 then d
  else ((d.ctrEntries n).filter (fun e => !cDown e && cCarrier e == c)).foldl (fun (d : Device) e => d.ta4Ctr n e slot sym) d

/-! ### Sending (R203, R206, R532) -/

/-- A message of an eAxC: its SEQ_ID advances. -/
def Device.ethSend (d : Device) (n : Nat) (e : List Byte) (mk : EthHdr → Nat → Out) : Device :=
  match (d.section? 0x51 n).bind (fun s => d.ethHdr s.payload) with
  | none => d
  | some h =>
    if !d.laneRuns n || !d.ethUp n then d
    else if d.on (RLN_LANE_TEST_GEN n) then d.emit (.prbs n)
    else
      let g := 32 * n + cCid e
      let x := d.ctr g
      (d.setCtr g { x with txSeq := (x.txSeq + 1) % 65536 }).emit (mk h x.txSeq)

/-- PRB groups of a U-plane message of at most 9,216 bytes, 40 of them headers and frame check. -/
def msgPrbs (e : List Byte) : Nat := 9176 / cUnit e

/-- The U-plane messages of a symbol of a downlink eAxC: as few as hold its PRB groups. -/
def Device.uplane (d : Device) (n : Nat) (e : List Byte) (slot sym into : Nat) : Device :=
  let h := d.airSym (cCarrier e) slot sym
  let half := ((h.1 + 20 * d.get TTB_FRAME_SFN_OFS) % halfNums).toNat
  let prbs := d.symPrbs e
  match d.dlUnits n e ((List.range prbs).map (fun i => (half, h.2 * prbs + i))) with
  | (d, us, _) => (cutUnits 0 prbs (msgPrbs e)).foldl (fun (d : Device) t =>
      d.ethSend n e (fun hdr seq => .uplane n (d.time.stamp into (3 + d.laneMode n)) hdr (cPtr0 e) seq slot sym t.1
        (compHdr (cFmt e)) ((us.drop t.1).take t.2))) d

/-- The downlink entry of a container on an ETH_25 lane. -/
def Device.dlEntry (d : Device) (n cid : Nat) : Option (List Byte) :=
  if d.laneMode n = 3 then (d.ctrEntries n).find? (fun e => cCid e == cid && cDown e) else none

/-! ### Meanings -/

/-- ECPRI_MESSAGE_RX (R202). -/
def execEcpriMessageRx (n : Fin 64) (m : EcpriMsg) (s : State) : Host.Outcome State Fault Refusal :=
  s.run (fun d => d.ecpri n.val m)

/-- TA4_WINDOW_CLOSE of a symbol of a slot of carrier c (R205). -/
def execTa4WindowClose (n c : Fin 64) (slot : BitVec 16) (sym : Fin 14) (s : State) : Host.Outcome State Fault Refusal :=
  s.run (fun d => d.ta4Close n.val c.val slot.toNat sym.val)

/-- UPLANE_SEND of a symbol of a downlink eAxC, UP_ADV_US before its air time (R206). -/
def execUplaneSend (n : Fin 64) (cid : Fin 32) (slot : BitVec 16) (sym : Fin 14) (into : Nat) (s : State) :
    Host.Outcome State Fault Refusal :=
  s.run (fun d =>
    match d.dlEntry n.val cid.val with
    | none => d
    | some e =>
      if ((d.time.tod + into : Nat) : Int) + 1000 * d.get FIL_ETH_TX_UP_ADV_US ≠ d.airStart (cCarrier e) slot.toNat sym.val then d
      else d.uplane n.val e slot.toNat sym.val into)

/-- CPLANE_SEND for a slot of a downlink eAxC, CP_ADV_US before the slot's first U-plane message. The beam that the message names
is not in the state: it is drawn (R203, R206, log entry 51). -/
def execCplaneSend (n : Fin 64) (cid : Fin 32) (slot : BitVec 16) (into : Nat) (s : State) : Host.Outcome State Fault Refusal :=
  s.run (fun d =>
    match d.dlEntry n.val cid.val with
    | none => d
    | some e =>
      if ((d.time.tod + into : Nat) : Int) + 1000 * (d.get FIL_ETH_TX_UP_ADV_US + d.get FIL_ETH_TX_CP_ADV_US : Nat) ≠
          d.airStart (cCarrier e) slot.toNat 0 then d
      else match d.drawBool with
        | (byWeights, d) => match d.draw 64 with
          | (v, d) => d.ethSend n.val e (fun hdr seq => .cplane n.val (d.time.stamp into (3 + d.laneMode n.val)) hdr (cPtr0 e) seq
              slot.toNat (if byWeights then .inr v else .inl (v % 2 ^ 15))))

end Sys2Proof.Machine
end

