-- ==== Sys2Proof/Machine/VecOps.lean ====
section
/-! DEFINITION. The vector extension (R410 to R433): what each instruction of CLASS 0xE does in its slot. -/

namespace Sys2Proof.Machine
open R

/-! ### Types and elements (R411, R412) -/

/-- Element width in bits, whether the type is complex, and VCAP. -/
def elemBits : Nat → Nat
  | 0 => 8
  | 1 => 16
  | 2 => 32
  | 3 => 64
  | 4 => 16
  | 5 => 32
  | _ => 64

def elemCplx (t : Nat) : Bool := 4 ≤ t
def vcap (t : Nat) : Nat := 1024 / elemBits t

def tReal (t : Nat) : Bool := t ≤ 3
def tCplx (t : Nat) : Bool := 4 ≤ t && t ≤ 6
def tAll (t : Nat) : Bool := t ≤ 6
/-- Types that have a type of double width. -/
def tWide (t : Nat) : Bool := t ≤ 2 || t == 4 || t == 5

/-- Element e of width w in registers held as one number. -/
def elAt (w v e : Nat) : Nat := v / 2 ^ (w * e) % 2 ^ w

/-- The parts of an element: a real type's imaginary part is 0. -/
def elParts (t w v : Nat) : Int × Int :=
  if elemCplx t then (toSigned (w / 2) v, toSigned (w / 2) (v / 2 ^ (w / 2))) else (toSigned w v, 0)

/-- A part in b bits, saturated or wrapped. -/
def narrow (sat : Bool) (b : Nat) (v : Int) : Nat := ofSigned b (if sat then satSigned b v else v)

/-- An element from its parts. -/
def elPack (t w : Nat) (sat : Bool) (p : Int × Int) : Nat :=
  if elemCplx t then narrow sat (w / 2) p.1 + 2 ^ (w / 2) * narrow sat (w / 2) p.2 else narrow sat w p.1

/-- What an instruction of CLASS 0xE finds in force: type, width, VCAP, GL, and its active elements. -/
structure VCtx where
  t : Nat
  w : Nat
  cap : Nat
  gl : Nat
  act : List Nat
  deriving DecidableEq, Repr

def Device.vctx (d : Device) (x : Core) (i : SlotOp) : VCtx :=
  let c := i.c.val
  let k := i.k.val
  let t := d.get (CX_VSHAPE_ELEM c k)
  let gl := d.get (CX_VGRANT_GL c k)
  let vp := x.regs.vpreg (opMod i % 8)
  ⟨t, elemBits t, vcap t, gl, (List.range (min gl (vcap t))).filter (fun e => vp.getLsbD e)⟩

def opSat (i : SlotOp) : Bool := bit (opMod i) 3
def opRnd (i : SlotOp) : Bool := bit (opMod i) 4
def opCs1 (i : SlotOp) : Nat := bits (opMod i) 6 5
def opCs2 (i : SlotOp) : Nat := bits (opMod i) 8 7
def opSh (i : SlotOp) : Nat := bits (opMod i) 13 9
def opImm8 (i : SlotOp) : Nat := bits (opMod i) 22 15

/-- A shift right by SH, rounded when RND is 1; a tie's direction is free. -/
def vshift (d : Device) (i : SlotOp) (n : Nat) (v : Int) : Int :=
  if opRnd i then roundShift d n v (opSh i) else v / 2 ^ opSh i

/-! ### Issue (R414 to R416, R421) -/

/-- An instruction of CLASS 0xE: enable bit first, then slot, reserved bits and type, then its own checks. -/
def Device.vec (d : Device) (i : SlotOp) (slots : List Nat) (reserved : Nat) (types : Nat → Bool)
    (eff : Device → Core → VCtx → Option (List CEff)) : Device :=
  d.issue i [0, 1, 2, 3, 4, 5] 4096 (fun d x =>
    let v := d.vctx x i
    if !d.cpOn i.c.val i.k.val 1 then [.trap 0 xIllegalCp 0 0]
    else if !slots.contains i.slot.val || opMod i &&& reserved ≠ 0 || !types v.t then refused
    else (eff d x v).getD refused)

/-! ### Chaining (R423, R424) -/

/-- The chain distance of a unit. -/
def chainK (u : Nat) : Nat := if u = 1 then 2 else 1

/-- The register number under which a unit's result in a predicate stands. -/
def vpName (n : Nat) : Nat := 32 + n % 8

/-- A chained read of register name from unit u: none breaks R424; the register file where a trap came between. -/
def Core.chain (x : Core) (u name : Nat) (file : Nat × Nat) : Option (Nat × Nat) :=
  if x.since < chainK u then some file
  else (x.units.find? (fun r => r.unit == u && r.age == chainK u && r.dst == name && r.chains && !r.wide)).map
    (fun r => (r.value.toNat, r.value2.toNat))

/-- A V operand, and the register after it. -/
def Core.vsrc (x : Core) (cs n : Nat) : Option (Nat × Nat) :=
  let file := ((x.regs.vreg n).toNat, (x.regs.vreg (n + 1)).toNat)
  if cs = 0 then some file else x.chain cs n file

/-- An accumulator: the multiply unit's own result of the previous bundle, or the register file. -/
def Core.vacc (x : Core) (n : Nat) : Nat × Nat :=
  match x.units.find? (fun r => r.unit == 1 && r.age == 1 && r.dst == n && decide (1 ≤ x.since)) with
  | some r => (r.value.toNat, r.value2.toNat)
  | none => ((x.regs.vreg n).toNat, (x.regs.vreg (n + 1)).toNat)

/-! ### Results -/

/-- Bits and mask of elements es of width w with values f. -/
def vecOf (w : Nat) (es : List Nat) (f : Nat → Nat) : BitVec 1024 × BitVec 1024 :=
  es.foldl (fun (b : BitVec 1024 × BitVec 1024) e => (b.1 ||| elBits w e (f e), b.2 ||| elMask w e)) (0, 0)

/-- The register with writes in flight and these elements: what it holds once they are written. -/
def Core.vafter (x : Core) (n : Nat) (p : BitVec 1024 × BitVec 1024) : BitVec 1024 :=
  (x.landed.regs.vreg n &&& ~~~p.2) ||| (p.1 &&& p.2)

/-- A result in one V register, readable n bundles later. -/
def Core.vres (x : Core) (unit n dst : Nat) (chains : Bool) (p : BitVec 1024 × BitVec 1024) : List CEff :=
  [.wr n (.v dst p.1 p.2), .unit ⟨unit, dst, false, chains, 0, x.vafter dst p, x.landed.regs.vreg (dst + 1)⟩, .vector 0]

/-- A result in a register pair. -/
def Core.vres2 (x : Core) (unit n dst : Nat) (wide : Bool) (p q : BitVec 1024 × BitVec 1024) : List CEff :=
  [.wr n (.v dst p.1 p.2), .wr n (.v (dst + 1) q.1 q.2),
    .unit ⟨unit, dst, wide, !wide, 0, x.vafter dst p, x.vafter (dst + 1) q⟩, .vector 0]

/-- Elements of double width w2, laid over a pair: those of the first and of the second register. -/
def pairOf (w2 : Nat) (es : List Nat) (f : Nat → Nat) : (BitVec 1024 × BitVec 1024) × (BitVec 1024 × BitVec 1024) :=
  let v2 := 1024 / w2
  (vecOf w2 (es.filter (fun e => decide (e < v2))) f,
   vecOf w2 ((es.filter (fun e => decide (v2 ≤ e))).map (fun e => e - v2)) (fun e => f (e + v2)))

/-- A pair as one number. -/
def pairNat (p : Nat × Nat) : Nat := p.1 + 2 ^ 1024 * p.2

/-! ### Vector memory (R417, R426, R431, R432) -/

/-- The address of an element. -/
def vaddr (i : SlotOp) (x : Core) (v : VCtx) (kind index e : Nat) : Nat :=
  let a := (x.regs.areg (opS1 i)).toNat
  let w := v.w / 8
  let off : Int := match kind with
    | 0 => e * w
    | 1 => e * (x.regs.nreg (bits (opMod i) 8 6)).toInt
    | _ =>
      let raw := elAt v.w index e
      let n := if elemCplx v.t then raw % 2 ^ (v.w / 2) else raw
      n * (if bit (opMod i) 3 then w else 1)
  (BitVec.ofInt 32 (a + off)).toNat

/-- A vector memory instruction: kind 0 unit stride, 1 strided, 2 indexed; the index register of an indexed one. -/
def vmemEff (i : SlotOp) (st : Bool) (kind : Nat) (ix : Nat) (d : Device) (x : Core) (v : VCtx) : Option (List CEff) :=
  let c := i.c.val
  let k := i.k.val
  let am := bits (opMod i) 5 4
  if 16 ≤ opS1 i || am = 3 || (kind = 1 && am = 2) then none
  else
    let w := v.w / 8
    let from_ := if x.resumed && d.on (CX_VRESUME_ARMED c k) && d.get (CX_VRESUME_PC c k) == x.pc
      then d.get (CX_VRESUME_FROM c k) else 0
    let index := (x.regs.vreg ix).toNat
    let data := (x.regs.vreg (opS2 i)).toNat
    let els := (v.act.filter (fun e => decide (from_ ≤ e))).map (fun e =>
      (e, vaddr i x v kind index e, if st then leBytes w (elAt v.w data e) else []))
    let upd := match am with
      | 1 => [d.aUpdate c k x.regs (opS1 i) (v.gl * w : Nat)]
      | 2 => [d.aUpdate c k x.regs (opS1 i) (x.regs.nreg (bits (opMod i) 8 6)).toInt]
      | _ => []
    let ce := match els with
      | p :: _ => if st && w = 8 then [] else ceOf i p.2.1 st
      | [] => []
    some (.vmem i.slot.val st w els (opDst i) (i.ue.map (·.val)) :: upd ++ ce ++ [.vector els.length])

def Device.vmemOp (d : Device) (i : SlotOp) (st : Bool) (kind ix : Nat) : Device :=
  d.vec i [0, 1] 0x7E00 tAll (vmemEff i st kind ix)

def execVld (i : SlotOp) (s : State) : Host.Outcome State Fault Refusal := s.run (fun d => d.vmemOp i false 0 0)
def execVlds (i : SlotOp) (s : State) : Host.Outcome State Fault Refusal := s.run (fun d => d.vmemOp i false 1 0)
def execVgath (i : SlotOp) (s : State) : Host.Outcome State Fault Refusal := s.run (fun d => d.vmemOp i false 2 (opS2 i))
def execVst (i : SlotOp) (s : State) : Host.Outcome State Fault Refusal := s.run (fun d => d.vmemOp i true 0 0)
def execVsts (i : SlotOp) (s : State) : Host.Outcome State Fault Refusal := s.run (fun d => d.vmemOp i true 1 0)
def execVscat (i : SlotOp) (s : State) : Host.Outcome State Fault Refusal := s.run (fun d => d.vmemOp i true 2 (opDst i))

/-! ### Multiply unit (R418) -/

/-- A product of parts; conj conjugates the second. -/
def cplxMul (t : Nat) (conj : Bool) (a b : Int × Int) : Int × Int :=
  if elemCplx t then
    let bi := if conj then -b.2 else b.2
    (a.1 * b.1 - a.2 * bi, a.1 * bi + a.2 * b.1)
  else (a.1 * b.1, 0)

/-- The product shifted, narrowed, and added to an accumulator's element: w is the result's width. -/
def mulEl (d : Device) (i : SlotOp) (t w e : Nat) (acc : Option Nat) (p : Int × Int) : Nat :=
  let q := (vshift d i (2 * e) p.1, vshift d i (2 * e + 1) p.2)
  let prod := elPack t w (opSat i) q
  match acc with
  | none => prod
  | some a =>
    let r := elParts t w prod
    let s := elParts t w a
    elPack t w (opSat i) (r.1 + s.1, r.2 + s.2)

/-- When a product is readable, and whether it chains. -/
def mulLate (t : Nat) : Bool := t == 3 || t == 6

/-- A multiply of one width by values that f gives for each element. -/
def vmulBy (i : SlotOp) (acc conj : Bool) (f : Nat → Int × Int) (d : Device) (x : Core) (v : VCtx) : Option (List CEff) :=
  (x.vsrc (opCs1 i) (opS1 i)).map (fun a =>
    let old := (x.vacc (opDst i)).1
    x.vres 1 (if mulLate v.t then 6 else 3) (opDst i) (!mulLate v.t) (vecOf v.w v.act (fun e =>
      mulEl d i v.t v.w e (if acc then some (elAt v.w old e) else none) (cplxMul v.t conj (elParts v.t v.w (elAt v.w a.1 e)) (f e)))))

def vmulEff (i : SlotOp) (acc conj : Bool) (d : Device) (x : Core) (v : VCtx) : Option (List CEff) :=
  (x.vsrc (opCs2 i) (opS2 i)).bind (fun b =>
    vmulBy i acc conj (fun e => elParts v.t v.w (elAt v.w b.1 e)) d x v)

/-- A widening multiply into the pair DST, DST + 1. -/
def vmulwEff (i : SlotOp) (acc conj : Bool) (d : Device) (x : Core) (v : VCtx) : Option (List CEff) :=
  if opDst i % 2 = 1 then none
  else match x.vsrc (opCs1 i) (opS1 i), x.vsrc (opCs2 i) (opS2 i) with
    | some a, some b =>
      let old := pairNat (x.vacc (opDst i))
      let w2 := 2 * v.w
      let r := pairOf w2 v.act (fun e => mulEl d i v.t w2 e (if acc then some (elAt w2 old e) else none)
        (cplxMul v.t conj (elParts v.t v.w (elAt v.w a.1 e)) (elParts v.t v.w (elAt v.w b.1 e))))
      some (x.vres2 1 3 (opDst i) true r.1 r.2)
    | _, _ => none

/-- A multiply by D(SRC2): an element's low bits, or 16+16 of a complex type; D registers do not chain. -/
def vmulsEff (i : SlotOp) (acc : Bool) (d : Device) (x : Core) (v : VCtx) : Option (List CEff) :=
  if opCs2 i ≠ 0 then none
  else
    let s := x.regs.dreg (opS2 i)
    let p := if elemCplx v.t then (reOf s, imOf s) else (toSigned v.w s.toNat, 0)
    vmulBy i acc false (fun _ => p) d x v

def Device.vmulOp (d : Device) (i : SlotOp) (types : Nat → Bool) (eff : Device → Core → VCtx → Option (List CEff)) : Device :=
  d.vec i [2] 0x4000 types eff

def execVmul (i : SlotOp) (s : State) : Host.Outcome State Fault Refusal := s.run (fun d => d.vmulOp i tAll (vmulEff i false false))
def execVmulj (i : SlotOp) (s : State) : Host.Outcome State Fault Refusal := s.run (fun d => d.vmulOp i tCplx (vmulEff i false true))
def execVmac (i : SlotOp) (s : State) : Host.Outcome State Fault Refusal := s.run (fun d => d.vmulOp i tAll (vmulEff i true false))
def execVmacj (i : SlotOp) (s : State) : Host.Outcome State Fault Refusal := s.run (fun d => d.vmulOp i tCplx (vmulEff i true true))
def execVmulw (i : SlotOp) (s : State) : Host.Outcome State Fault Refusal := s.run (fun d => d.vmulOp i tWide (vmulwEff i false false))
def tWideCplx (t : Nat) : Bool := t == 4 || t == 5
def execVmulwj (i : SlotOp) (s : State) : Host.Outcome State Fault Refusal := s.run (fun d => d.vmulOp i tWideCplx (vmulwEff i false true))
def execVmacw (i : SlotOp) (s : State) : Host.Outcome State Fault Refusal := s.run (fun d => d.vmulOp i tWide (vmulwEff i true false))
def execVmacwj (i : SlotOp) (s : State) : Host.Outcome State Fault Refusal := s.run (fun d => d.vmulOp i tWideCplx (vmulwEff i true true))
def execVmuls (i : SlotOp) (s : State) : Host.Outcome State Fault Refusal := s.run (fun d => d.vmulOp i tWide (vmulsEff i false))
def execVmacs (i : SlotOp) (s : State) : Host.Outcome State Fault Refusal := s.run (fun d => d.vmulOp i tWide (vmulsEff i true))

/-! ### Add unit (R419) -/

/-- An operation of one operand on elements: f of the element's number and bits. -/
def vadd1 (i : SlotOp) (f : Device → VCtx → Nat → Nat → Nat) (d : Device) (x : Core) (v : VCtx) : Option (List CEff) :=
  (x.vsrc (opCs1 i) (opS1 i)).map (fun a => x.vres 2 2 (opDst i) true (vecOf v.w v.act (fun e => f d v e (elAt v.w a.1 e))))

/-- An operation of two operands on elements. -/
def vadd2 (i : SlotOp) (f : VCtx → Nat → Nat → Nat) (_ : Device) (x : Core) (v : VCtx) : Option (List CEff) :=
  match x.vsrc (opCs1 i) (opS1 i), x.vsrc (opCs2 i) (opS2 i) with
  | some a, some b => some (x.vres 2 2 (opDst i) true (vecOf v.w v.act (fun e => f v (elAt v.w a.1 e) (elAt v.w b.1 e))))
  | _, _ => none

/-- A compare: bits of the active elements of VP(DST [2:0]). -/
def vcmpEff (i : SlotOp) (f : VCtx → Nat → Nat → Bool) (_ : Device) (x : Core) (v : VCtx) : Option (List CEff) :=
  match x.vsrc (opCs1 i) (opS1 i), x.vsrc (opCs2 i) (opS2 i) with
  | some a, some b =>
    let p := v.act.foldl (fun (m : Nat × Nat) e =>
      (m.1 + 2 ^ e * b2n (f v (elAt v.w a.1 e) (elAt v.w b.1 e)), m.2 + 2 ^ e)) (0, 0)
    some [.wr 3 (.vp (opDst i % 8) (BitVec.ofNat 128 p.1) (BitVec.ofNat 128 p.2)),
      .unit ⟨2, vpName (opDst i), false, false, 0, 0, 0⟩, .vector 0]
  | _, _ => none

/-- A sum or difference of parts. -/
def addParts (sub : Bool) (i : SlotOp) (v : VCtx) (a b : Nat) : Nat :=
  let p := elParts v.t v.w a
  let q := elParts v.t v.w b
  elPack v.t v.w (opSat i) (if sub then (p.1 - q.1, p.2 - q.2) else (p.1 + q.1, p.2 + q.2))

def Device.vaddOp (d : Device) (i : SlotOp) (types : Nat → Bool) (eff : Device → Core → VCtx → Option (List CEff)) : Device :=
  d.vec i [3] 0x4000 types eff

def execVadd (i : SlotOp) (s : State) : Host.Outcome State Fault Refusal := s.run (fun d => d.vaddOp i tAll (vadd2 i (addParts false i)))
def execVsub (i : SlotOp) (s : State) : Host.Outcome State Fault Refusal := s.run (fun d => d.vaddOp i tAll (vadd2 i (addParts true i)))
def execVmin (i : SlotOp) (s : State) : Host.Outcome State Fault Refusal :=
  s.run (fun d => d.vaddOp i tReal (vadd2 i (fun v a b => if toSigned v.w a ≤ toSigned v.w b then a else b)))
def execVmax (i : SlotOp) (s : State) : Host.Outcome State Fault Refusal :=
  s.run (fun d => d.vaddOp i tReal (vadd2 i (fun v a b => if toSigned v.w a ≤ toSigned v.w b then b else a)))
def execVabs (i : SlotOp) (s : State) : Host.Outcome State Fault Refusal :=
  s.run (fun d => d.vaddOp i tReal (vadd1 i (fun _ v _ a => narrow (opSat i) v.w ((toSigned v.w a).natAbs : Int))))
def execVneg (i : SlotOp) (s : State) : Host.Outcome State Fault Refusal :=
  s.run (fun d => d.vaddOp i tAll (vadd1 i (fun _ v _ a =>
    let p := elParts v.t v.w a
    elPack v.t v.w (opSat i) (-p.1, -p.2))))
def execVconj (i : SlotOp) (s : State) : Host.Outcome State Fault Refusal :=
  s.run (fun d => d.vaddOp i tCplx (vadd1 i (fun _ v _ a =>
    let p := elParts v.t v.w a
    elPack v.t v.w (opSat i) (p.1, -p.2))))

/-- VPOW: a real element of the same width. -/
def execVpow (i : SlotOp) (s : State) : Host.Outcome State Fault Refusal :=
  s.run (fun d => d.vaddOp i tCplx (vadd1 i (fun d v e a =>
    let p := elParts v.t v.w a
    narrow (opSat i) v.w (vshift d i e (p.1 * p.1 + p.2 * p.2)))))

def execVand (i : SlotOp) (s : State) : Host.Outcome State Fault Refusal :=
  s.run (fun d => d.vaddOp i tAll (vadd2 i (fun _ a b => a &&& b)))
def execVor (i : SlotOp) (s : State) : Host.Outcome State Fault Refusal :=
  s.run (fun d => d.vaddOp i tAll (vadd2 i (fun _ a b => a ||| b)))
def execVxor (i : SlotOp) (s : State) : Host.Outcome State Fault Refusal :=
  s.run (fun d => d.vaddOp i tAll (vadd2 i (fun _ a b => a ^^^ b)))
def execVshl (i : SlotOp) (s : State) : Host.Outcome State Fault Refusal :=
  s.run (fun d => d.vaddOp i tReal (vadd1 i (fun _ v _ a => a * 2 ^ opSh i % 2 ^ v.w)))
def execVsar (i : SlotOp) (s : State) : Host.Outcome State Fault Refusal :=
  s.run (fun d => d.vaddOp i tReal (vadd1 i (fun d v e a => ofSigned v.w (vshift d i e (toSigned v.w a)))))
def execVshr (i : SlotOp) (s : State) : Host.Outcome State Fault Refusal :=
  s.run (fun d => d.vaddOp i tReal (vadd1 i (fun d v e a => ofSigned v.w (vshift d i e (a : Int)))))

def execVcmpeq (i : SlotOp) (s : State) : Host.Outcome State Fault Refusal :=
  s.run (fun d => d.vaddOp i tReal (vcmpEff i (fun _ a b => a == b)))
def execVcmplt (i : SlotOp) (s : State) : Host.Outcome State Fault Refusal :=
  s.run (fun d => d.vaddOp i tReal (vcmpEff i (fun v a b => decide (toSigned v.w a < toSigned v.w b))))
def execVcmpltu (i : SlotOp) (s : State) : Host.Outcome State Fault Refusal :=
  s.run (fun d => d.vaddOp i tReal (vcmpEff i (fun _ a b => decide (a < b))))

/-- VFOLDADD: the sum, saturated to the element type; complex parts packed as cs16. -/
def foldAdd (i : SlotOp) (_ : Device) (x : Core) (v : VCtx) : Option (List CEff) :=
  (x.vsrc (opCs1 i) (opS1 i)).map (fun a =>
    let s := v.act.foldl (fun (b : Int × Int) e =>
      let p := elParts v.t v.w (elAt v.w a.1 e)
      (b.1 + p.1, b.2 + p.2)) ((0 : Int), (0 : Int))
    let r : Word := if elemCplx v.t then
        BitVec.ofNat 32 (ofSigned 16 (satSigned (v.w / 2) s.1) + 2 ^ 16 * ofSigned 16 (satSigned (v.w / 2) s.2))
      else BitVec.ofInt 32 (satSigned v.w s.1)
    [.wr 3 (.d (opDst i) r), .unit ⟨2, 64, false, false, 0, 0, 0⟩, .vector 0])

/-- VFOLDMAX: the largest active element and its lowest index. -/
def foldMax (i : SlotOp) (_ : Device) (x : Core) (v : VCtx) : Option (List CEff) :=
  if opDst i % 2 = 1 then none
  else (x.vsrc (opCs1 i) (opS1 i)).map (fun a =>
    let r := v.act.foldl (fun (b : Int × Nat) e =>
      let p := toSigned v.w (elAt v.w a.1 e)
      if b.2 = 0xFFFFFFFF || b.1 < p then (p, e) else b) (-(2 ^ (v.w - 1)), 0xFFFFFFFF)
    [.wr 3 (.d (opDst i) (BitVec.ofInt 32 r.1)), .wr 3 (.d (opDst i + 1) (BitVec.ofNat 32 r.2)),
      .unit ⟨2, 64, false, false, 0, 0, 0⟩, .vector 0])

def execVfoldadd (i : SlotOp) (s : State) : Host.Outcome State Fault Refusal := s.run (fun d => d.vaddOp i tWide (foldAdd i))
def execVfoldmax (i : SlotOp) (s : State) : Host.Outcome State Fault Refusal :=
  s.run (fun d => d.vaddOp i (fun t => decide (t ≤ 2)) (foldMax i))

/-! ### Permute unit (R413, R420) -/

def Device.vperm (d : Device) (i : SlotOp) (types : Nat → Bool) (eff : Device → Core → VCtx → Option (List CEff)) : Device :=
  d.vec i [4] 0x4000 types eff

/-- A claim of r elements of the type in MOD [11:9]. -/
def claimEff (i : SlotOp) (r : Nat) : Option (List CEff) :=
  let t := bits (opMod i) 11 9
  if opDst i % 2 = 1 || t = 7 || bits (opMod i) 13 12 ≠ 0 then none
  else
    let gl := min r (vcap t)
    some [.wr 1 (.d (opDst i) (BitVec.ofNat 32 gl)), .wr 1 (.d (opDst i + 1) (BitVec.ofNat 32 (r - gl))), .claim gl t,
      .unit ⟨3, 64, false, false, 0, 0, 0⟩, .vector 0]

/-- A claim writes no V register, so its D operand does not chain. -/
def execVclaim (i : SlotOp) (s : State) : Host.Outcome State Fault Refusal :=
  s.run (fun d => d.vperm i tAll (fun _ x _ => if opCs1 i ≠ 0 then none else claimEff i (x.regs.dreg (opS1 i)).toNat))
def execVclaimi (i : SlotOp) (s : State) : Host.Outcome State Fault Refusal :=
  s.run (fun d => d.vperm i tAll (fun _ _ _ => claimEff i (opImm8 i)))

/-- Active elements of DST from a function of SRC1. -/
def permEff (i : SlotOp) (f : VCtx → Nat → Nat → Nat) (_ : Device) (x : Core) (v : VCtx) : Option (List CEff) :=
  (x.vsrc (opCs1 i) (opS1 i)).map (fun a => x.vres 3 2 (opDst i) true (vecOf v.w v.act (f v a.1)))

def execVmv (i : SlotOp) (s : State) : Host.Outcome State Fault Refusal :=
  s.run (fun d => d.vperm i tAll (permEff i (fun v a e => elAt v.w a e)))

/-- A D register, or an even pair for 64-bit types. -/
def execVbcast (i : SlotOp) (s : State) : Host.Outcome State Fault Refusal :=
  s.run (fun d => d.vperm i tAll (fun _ x v =>
    let n := opS1 i
    if opCs1 i ≠ 0 || (v.w = 64 && n % 2 = 1) then none
    else
      let s := (x.regs.dreg n).toNat + 2 ^ 32 * (x.regs.dreg (n + 1)).toNat
      some (x.vres 3 2 (opDst i) true (vecOf v.w v.act (fun _ => s)))))

/-- VEXT: above an element narrower than a word, and of an element beyond VCAP, the result is free. -/
def execVext (i : SlotOp) (s : State) : Host.Outcome State Fault Refusal :=
  s.run (fun d => d.vperm i tAll (fun d x v =>
    let n := opImm8 i
    if v.w = 64 && opDst i % 2 = 1 then none
    else (x.vsrc (opCs1 i) (opS1 i)).map (fun a =>
      let top := Config.free d.free
      let el := if n < v.cap then elAt v.w a.1 n + 2 ^ v.w * top else top
      let tail := [.unit ⟨3, 64, false, false, 0, 0, 0⟩, .vector 0]
      if v.w = 64 then
        .wr 1 (.d (opDst i) (BitVec.ofNat 32 el)) :: .wr 1 (.d (opDst i + 1) (BitVec.ofNat 32 (el / 2 ^ 32))) :: tail
      else .wr 1 (.d (opDst i) (BitVec.ofNat 32 el)) :: tail)))

/-- VINS: the upper half of a 64-bit element is free. -/
def execVins (i : SlotOp) (s : State) : Host.Outcome State Fault Refusal :=
  s.run (fun d => d.vperm i tAll (fun d x v =>
    if opCs1 i ≠ 0 then none
    else
      let s := (x.regs.dreg (opS1 i)).toNat + 2 ^ 32 * Config.free d.free
      some (x.vres 3 2 (opDst i) true (vecOf v.w (v.act.filter (fun e => e == opImm8 i)) (fun _ => s)))))

def execVshdn (i : SlotOp) (s : State) : Host.Outcome State Fault Refusal :=
  s.run (fun d => d.vperm i tAll (permEff i (fun v a e => if e + opImm8 i < v.cap then elAt v.w a (e + opImm8 i) else 0)))
def execVshup (i : SlotOp) (s : State) : Host.Outcome State Fault Refusal :=
  s.run (fun d => d.vperm i tAll (permEff i (fun v a e => if opImm8 i ≤ e then elAt v.w a (e - opImm8 i) else 0)))

/-- VPERM: a complex type's index is its real half, as for gathers. -/
def execVperm (i : SlotOp) (s : State) : Host.Outcome State Fault Refusal :=
  s.run (fun d => d.vperm i tAll (fun d x v => (x.vsrc (opCs2 i) (opS2 i)).bind (fun b =>
    permEff i (fun v a e =>
      let raw := elAt v.w b.1 e
      let n := if elemCplx v.t then raw % 2 ^ (v.w / 2) else raw
      if n < v.cap then elAt v.w a n else 0) d x v)))

/-- VZIP: active element e of the sources gives elements 2e and 2e + 1 of the pair. -/
def execVzip (i : SlotOp) (s : State) : Host.Outcome State Fault Refusal :=
  s.run (fun d => d.vperm i tAll (fun _ x v =>
    if opDst i % 2 = 1 then none
    else match x.vsrc (opCs1 i) (opS1 i), x.vsrc (opCs2 i) (opS2 i) with
      | some a, some b =>
        let r := pairOf v.w (v.act.flatMap (fun e => [2 * e, 2 * e + 1])) (fun e =>
          if e % 2 = 0 then elAt v.w a.1 (e / 2) else elAt v.w b.1 (e / 2))
        some (x.vres2 3 2 (opDst i) false r.1 r.2)
      | _, _ => none))

def execVunzip (i : SlotOp) (s : State) : Host.Outcome State Fault Refusal :=
  s.run (fun d => d.vperm i tAll (fun _ x v =>
    if opDst i % 2 = 1 || opS1 i % 2 = 1 then none
    else (x.vsrc (opCs1 i) (opS1 i)).map (fun a =>
      let p := pairNat a
      x.vres2 3 2 (opDst i) false (vecOf v.w v.act (fun e => elAt v.w p (2 * e))) (vecOf v.w v.act (fun e => elAt v.w p (2 * e + 1))))))

/-- VNARROW: from the pair of double width. -/
def execVnarrow (i : SlotOp) (s : State) : Host.Outcome State Fault Refusal :=
  s.run (fun d => d.vperm i tWide (fun d x v =>
    if opS1 i % 2 = 1 then none
    else (x.vsrc (opCs1 i) (opS1 i)).map (fun a =>
      let p := pairNat a
      x.vres 3 2 (opDst i) true (vecOf v.w v.act (fun e =>
        let q := elParts v.t (2 * v.w) (elAt (2 * v.w) p e)
        elPack v.t v.w (opSat i) (vshift d i (2 * e) q.1, vshift d i (2 * e + 1) q.2))))))

def execVwiden (i : SlotOp) (s : State) : Host.Outcome State Fault Refusal :=
  s.run (fun d => d.vperm i tWide (fun _ x v =>
    if opDst i % 2 = 1 then none
    else (x.vsrc (opCs1 i) (opS1 i)).map (fun a =>
      let r := pairOf (2 * v.w) v.act (fun e => elPack v.t (2 * v.w) false (elParts v.t v.w (elAt v.w a.1 e)))
      x.vres2 3 2 (opDst i) true r.1 r.2)))

/-- VRAMP: what e × IMM8 is as a complex element is not stated: it is free. -/
def execVramp (i : SlotOp) (s : State) : Host.Outcome State Fault Refusal :=
  s.run (fun d => d.vperm i tAll (fun d x v => some (x.vres 3 2 (opDst i) true (vecOf v.w v.act (fun e =>
    if elemCplx v.t then Config.free (d.free + e) else e * opImm8 i)))))

/-- A result in a whole predicate register. -/
def vpEff (i : SlotOp) (p : BitVec 128) : List CEff :=
  let n := opDst i % 8
  [.wr 2 (.vp n p (BitVec.allOnes 128)),
    .unit ⟨3, vpName n, false, true, 0, BitVec.ofNat 1024 (if n = 0 then BitVec.allOnes 128 else p).toNat, 0⟩, .vector 0]

def execVpgrant (i : SlotOp) (s : State) : Host.Outcome State Fault Refusal :=
  s.run (fun d => d.vperm i tAll (fun _ _ v => some (vpEff i (BitVec.ofNat 128 (2 ^ v.gl - 1)))))

/-- A VP operand, chained or not. -/
def Core.vpsrc (x : Core) (cs n : Nat) : Option (BitVec 128) :=
  let file := (x.regs.vpreg (n % 8)).toNat
  if cs = 0 then some (BitVec.ofNat 128 file) else (x.chain cs (vpName n) (file, 0)).map (fun p => BitVec.ofNat 128 p.1)

def execVplog (i : SlotOp) (s : State) : Host.Outcome State Fault Refusal :=
  s.run (fun d => d.vperm i tAll (fun _ x _ =>
    match x.vpsrc (opCs1 i) (opS1 i), x.vpsrc (opCs2 i) (opS2 i) with
    | some a, some b => some (vpEff i (match opImm8 i % 4 with
      | 0 => a &&& b
      | 1 => a ||| b
      | 2 => a ^^^ b
      | _ => a &&& ~~~b))
    | _, _ => none))

end Sys2Proof.Machine
end

