-- ==== Sys2Proof/Machine/Jtag.lean ====
section
/-! DEFINITION. The test access port (R592 to R595). -/

namespace Sys2Proof.Machine
open R

/-- Version 1, part number 0x6192, manufacturer 0x71A, and the final 1 (R592). -/
def idcodeValue : Nat := 0x16192E35

/-- Update-IR: an instruction that leaves the boundary register out of use returns the balls (R595). -/
def Device.tapLoad (d : Device) (ir dr : Nat) : Device :=
  let taken := d.ballsTaken
  let d := { d with tap := { d.tap with ir := ir, dr := dr } }
  if taken || d.ballsTaken then d.emit (.balls ir d.tap.boundary) else d

/-- Every link of the device goes down: ports, hosts, and the lock of every lane (R595). -/
def Device.linksDown (d : Device) : Device :=
  let d := (List.range 4).foldl (fun (d : Device) p => d.netDown p) d
  let d := (List.range 2).foldl (fun (d : Device) p => d.hostDown p) d
  (List.range 80).foldl (fun (d : Device) n => if d.laneState n = lDisabled then d else d.dropLock n) d

/-- An instruction that takes the balls from their functions; with POR_N high, the links go down and a FATAL record
of KIND 0 is entered (R595). -/
def Device.tapTake (d : Device) (ir : Nat) : Device :=
  let d := d.tapLoad ir 0
  if d.hwd.porN then d.linksDown.fatalRec 0 0 0 ir noEvent 0x1F else d

/-- TAP_RESET: IDCODE is selected and the balls return. -/
def execTapReset (s : State) : Host.Outcome State Fault Refusal :=
  s.run (fun d =>
    let d := d.tapLoad 0x01 0
    { d with tap := tap0 })

def execIdcode (s : State) : Host.Outcome State Fault Refusal :=
  s.run (fun d => (d.tapLoad 0x01 idcodeValue).emit (.tdo idcodeValue))

/-- SAMPLE_PRELOAD: what the balls carry is captured, and the boundary register's update stage is loaded. -/
def execSamplePreload (captured preload : Nat) (s : State) : Host.Outcome State Fault Refusal :=
  s.run (fun d =>
    let d := d.tapLoad 0x02 captured
    { d with tap := { d.tap with boundary := preload } }.emit (.tdo captured))

def execExtest (s : State) : Host.Outcome State Fault Refusal := s.run (fun d => d.tapTake 0x03)
def execClamp (s : State) : Host.Outcome State Fault Refusal := s.run (fun d => d.tapTake 0x04)
def execHighz (s : State) : Host.Outcome State Fault Refusal := s.run (fun d => d.tapTake 0x05)
def execExtestPulse (s : State) : Host.Outcome State Fault Refusal := s.run (fun d => d.tapTake 0x06)
def execExtestTrain (s : State) : Host.Outcome State Fault Refusal := s.run (fun d => d.tapTake 0x07)
def execBypass (s : State) : Host.Outcome State Fault Refusal := s.run (fun d => d.tapLoad 0xFF 0)

/-- The request of the DBG_LWK register: a LEN = 0 read of 8 bytes, or a write of the 4 bytes of DATA. -/
def tapAsk (dr : Nat) : Ask :=
  let a := bits dr 47 0
  if bit dr 80 then askWrite (aonNode 0) .hayward a (leBytes 4 (bits dr 79 48)) false false
  else { askRead (aonNode 0) .hayward a 4 false with units := 0 }

/-- DBG_LWK at Update-DR: bypass while LOCK is 1; ignored while a request is outstanding, which it is until the
test system finds it answered (R594). The access is whole within the command (log entry 35). -/
def execDbgLwk (dr : BitVec 96) (settled : Bool) (s : State) : Host.Outcome State Fault Refusal :=
  s.run (fun d =>
    if d.on HWD_DBG_LOCK then d.tapLoad 0x40 0
    else
      let d := d.tapLoad 0x40 dr.toNat
      if (d.tap.busy && !settled) || !d.hwd.porN then d
      else match d.access (tapAsk dr.toNat) false clean with
        | (d, r) =>
          if r = fencedErr then { d with tap := { d.tap with busy := true, resp := none, held := some dr.toNat } }
          else { d with tap := { d.tap with busy := true, resp := some (r.code, r.inl), held := none } })

/-- A DBG_LWK request whose FENCED hold has ended is injected again (R17). -/
def Device.tapAgain (d : Device) : Device :=
  match d.tap.held with
  | none => d
  | some dr => match d.access (tapAsk dr) false clean with
    | (d, r) => { d with tap := { d.tap with resp := some (r.code, r.inl), held := none } }

/-- DBG_LWK_CAPTURE: RESP and read data with DONE, or DONE 0 while the request is outstanding. With no request made,
what is loaded is free. -/
def execDbgLwkCapture (ready : Bool) (s : State) : Host.Outcome State Fault Refusal :=
  s.run (fun d =>
    if d.tap.ir ≠ 0x40 || d.on HWD_DBG_LOCK then d
    else
      let d := if ready then d.tapAgain else d
      match (if d.tap.held.isSome then some (0, 0) else d.tap.resp) with
      | none => match d.draw 96 with
        | (v, d) => { d with tap := { d.tap with dr := v } }.emit (.tdo v)
      | some (code, data) =>
        let dr := d.tap.dr
        let v := if d.tap.busy && !ready then putBits dr 84 84 0
          else
            let w := putBits (putBits dr 83 81 code) 84 84 1
            if bit dr 80 then w else putBits w 79 48 data
        { d with tap := { d.tap with dr := v, busy := d.tap.busy && !ready } }.emit (.tdo v))

end Sys2Proof.Machine
end

