-- ==== Sys2Proof/Machine/Dispatch.lean ====
section
/-! DEFINITION. The one dispatch of the device: which meaning each command has. -/

namespace Sys2Proof.Machine
open Sys2Proof

def exec (i : Instr) (s : State) : Host.Outcome State Fault Refusal :=
  match i with
  | .baseTickEdge l => Sys2Proof.Machine.execBaseTickEdge l s
  | .releaseTick h => Sys2Proof.Machine.execReleaseTick h s
  | .workItemExpiry h => Sys2Proof.Machine.execWorkItemExpiry h s
  | .spareSwap f errs => Sys2Proof.Machine.execSpareSwap f errs s
  | .ptpEventMessageRx domain udp valid offset want => Sys2Proof.Machine.execPtpEventMessageRx domain udp valid offset want s
  | .announceRx domain udp utc leap61 leap59 tlv => Sys2Proof.Machine.execAnnounceRx domain udp utc leap61 leap59 tlv s
  | .announceTimeout => Sys2Proof.Machine.execAnnounceTimeout s
  | .syncTimeout => Sys2Proof.Machine.execSyncTimeout s
  | .ppsInEdge into want => Sys2Proof.Machine.execPpsInEdge into want s
  | .ppsInAbsent => Sys2Proof.Machine.execPpsInAbsent s
  | .synceRefLost => Sys2Proof.Machine.execSynceRefLost s
  | .ttbCtrlWrite r v => Sys2Proof.Machine.execTtbCtrlWrite r v s
  | .heldPanelStart p => Sys2Proof.Machine.execHeldPanelStart p s
  | .stepGo r v => Sys2Proof.Machine.execStepGo r v s
  | .stepApply => Sys2Proof.Machine.execStepApply s
  | .ttbFrameWrite r v => Sys2Proof.Machine.execTtbFrameWrite r v s
  | .frameApply => Sys2Proof.Machine.execFrameApply s
  | .tickLoRead r => Sys2Proof.Machine.execTickLoRead r s
  | .todNsRead r into => Sys2Proof.Machine.execTodNsRead r into s
  | .ppsOutRise => Sys2Proof.Machine.execPpsOutRise s
  | .ppsOutFall => Sys2Proof.Machine.execPpsOutFall s
  | .stage r v fetchOk => Sys2Proof.Machine.execStage r v fetchOk s
  | .stageComplete => Sys2Proof.Machine.execStageComplete s
  | .reprick r v => Sys2Proof.Machine.execReprick r v s
  | .stop r v => Sys2Proof.Machine.execStop r v s
  | .start r v => Sys2Proof.Machine.execStart r v s
  | .discard r v => Sys2Proof.Machine.execDiscard r v s
  | .panelStop p => Sys2Proof.Machine.execPanelStop p s
  | .applyComplete => Sys2Proof.Machine.execApplyComplete s
  | .panelRestart p => Sys2Proof.Machine.execPanelRestart p s
  | .migrationRequest r v => Sys2Proof.Machine.execMigrationRequest r v s
  | .migrationCopyStart => Sys2Proof.Machine.execMigrationCopyStart s
  | .migrationSwitch => Sys2Proof.Machine.execMigrationSwitch s
  | .migrationDrained => Sys2Proof.Machine.execMigrationDrained s
  | .packetInject p => Sys2Proof.Machine.execPacketInject p s
  | .packetReceive n waited crcBad poison ce mce mue hchkBad => Sys2Proof.Machine.execPacketReceive n waited crcBad poison ce mce mue hchkBad s
  | .responseReceive n poison => Sys2Proof.Machine.execResponseReceive n poison s
  | .fencedHoldTimeout src => Sys2Proof.Machine.execFencedHoldTimeout src s
  | .requestTimeout src tag => Sys2Proof.Machine.execRequestTimeout src tag s
  | .barrierRelease src => Sys2Proof.Machine.execBarrierRelease src s
  | .epochFlip written => Sys2Proof.Machine.execEpochFlip written s
  | .epochDrained => Sys2Proof.Machine.execEpochDrained s
  | .holdLimitExpiry m => Sys2Proof.Machine.execHoldLimitExpiry m s
  | .xlinkFail x => Sys2Proof.Machine.execXlinkFail x s
  | .statWindowClose => Sys2Proof.Machine.execStatWindowClose s
  | .traceArm v => Sys2Proof.Machine.execTraceArm v s
  | .openTile t src inl hchkBad => Sys2Proof.Machine.execOpenTile t src inl hchkBad s
  | .sealTile t src inl barrier hchkBad => Sys2Proof.Machine.execSealTile t src inl barrier hchkBad s
  | .releaseTile t src inl hchkBad => Sys2Proof.Machine.execReleaseTile t src inl hchkBad s
  | .markFault t src gen hchkBad => Sys2Proof.Machine.execMarkFault t src gen hchkBad s
  | .markClrProv t src gen hchkBad => Sys2Proof.Machine.execMarkClrProv t src gen hchkBad s
  | .payloadWrite addr src prov firstBE lastBE data hchkBad => Sys2Proof.Machine.execPayloadWrite addr src prov firstBE lastBE data hchkBad s
  | .wholeTileRead t src verify hchkBad => Sys2Proof.Machine.execWholeTileRead t src verify hchkBad s
  | .partialRead addr units src verify hchkBad => Sys2Proof.Machine.execPartialRead addr units src verify hchkBad s
  | .headerRead off units src hchkBad => Sys2Proof.Machine.execHeaderRead off units src hchkBad s
  | .retireWindowClose => Sys2Proof.Machine.execRetireWindowClose s
  | .bankRetire b => Sys2Proof.Machine.execBankRetire b s
  | .laneBlockReceive n hdr payload held reads into => Sys2Proof.Machine.execLaneBlockReceive n hdr payload held reads into s
  | .lossOfSignal n => Sys2Proof.Machine.execLossOfSignal n s
  | .losClear n => Sys2Proof.Machine.execLosClear n s
  | .retrain n unlocked => Sys2Proof.Machine.execRetrain n unlocked s
  | .trainingDone n eq => Sys2Proof.Machine.execTrainingDone n eq s
  | .laneFailed n => Sys2Proof.Machine.execLaneFailed n s
  | .recoveryAttempt n => Sys2Proof.Machine.execRecoveryAttempt n s
  | .quadPllUnlock k => Sys2Proof.Machine.execQuadPllUnlock k s
  | .laneTestWrite r n v => Sys2Proof.Machine.execLaneTestWrite r n v s
  | .twinQuadCfgWrite k w v => Sys2Proof.Machine.execTwinQuadCfgWrite k w v s
  | .basicFrameTx n x => Sys2Proof.Machine.execBasicFrameTx n x s
  | .alignmentBlockReceive n v err into => Sys2Proof.Machine.execAlignmentBlockReceive n v err into s
  | .candidateBarExpiry n => Sys2Proof.Machine.execCandidateBarExpiry n s
  | .overheadBlockReceive n v err => Sys2Proof.Machine.execOverheadBlockReceive n v err s
  | .groupFrameDelivery g x => Sys2Proof.Machine.execGroupFrameDelivery g x s
  | .ecpriMessageRx n m => Sys2Proof.Machine.execEcpriMessageRx n m s
  | .ta4WindowClose n c slot sym => Sys2Proof.Machine.execTa4WindowClose n c slot sym s
  | .uplaneSend n cid slot sym into => Sys2Proof.Machine.execUplaneSend n cid slot sym into s
  | .cplaneSend n cid slot into => Sys2Proof.Machine.execCplaneSend n cid slot into s
  | .ulFft e n => Sys2Proof.Machine.execUlFft e n s
  | .ulPrachLong e n => Sys2Proof.Machine.execUlPrachLong e n s
  | .dlIfft e => Sys2Proof.Machine.execDlIfft e s
  | .agcSymbolEnd q e => Sys2Proof.Machine.execAgcSymbolEnd q e s
  | .preOccasion p => Sys2Proof.Machine.execPreOccasion p s
  | .repetitionAccumulate p => Sys2Proof.Machine.execRepetitionAccumulate p s
  | .triggerEvaluation p => Sys2Proof.Machine.execTriggerEvaluation p s
  | .finalCorrelation p => Sys2Proof.Machine.execFinalCorrelation p s
  | .ulEst m => Sys2Proof.Machine.execUlEst m s
  | .ulComb m => Sys2Proof.Machine.execUlComb m s
  | .ulSrs m => Sys2Proof.Machine.execUlSrs m s
  | .dlMod m => Sys2Proof.Machine.execDlMod m s
  | .dlPrecode m => Sys2Proof.Machine.execDlPrecode m s
  | .dlConvert m => Sys2Proof.Machine.execDlConvert m s
  | .dlWeights m => Sys2Proof.Machine.execDlWeights m s
  | .passEndRx m src inl into => Sys2Proof.Machine.execPassEndRx m src inl into s
  | .ldpcDec q => Sys2Proof.Machine.execLdpcDec q s
  | .polarDec q => Sys2Proof.Machine.execPolarDec q s
  | .shortDec q => Sys2Proof.Machine.execShortDec q s
  | .turboDec q => Sys2Proof.Machine.execTurboDec q s
  | .tbccDec q => Sys2Proof.Machine.execTbccDec q s
  | .ldpcEnc q => Sys2Proof.Machine.execLdpcEnc q s
  | .polarEnc q => Sys2Proof.Machine.execPolarEnc q s
  | .turboEnc q => Sys2Proof.Machine.execTurboEnc q s
  | .tbccEnc q => Sys2Proof.Machine.execTbccEnc q s
  | .codeBlockDoorbell q src inl => Sys2Proof.Machine.execCodeBlockDoorbell q src inl s
  | .loopEndDoorbell q src inl => Sys2Proof.Machine.execLoopEndDoorbell q src inl s
  | .decodeJobStart e => Sys2Proof.Machine.execDecodeJobStart e s
  | .codeBlockDecoded e edge => Sys2Proof.Machine.execCodeBlockDecoded e edge s
  | .codeBlockCheck q => Sys2Proof.Machine.execCodeBlockCheck q s
  | .heldRecordWrite q => Sys2Proof.Machine.execHeldRecordWrite q s
  | .dlSendPoint n cid x slot sym => Sys2Proof.Machine.execDlSendPoint n cid x slot sym s
  | .tbcTableWrite p b x src vs edge => Sys2Proof.Machine.execTbcTableWrite p b x src vs edge s
  | .tbcSwapReq p v into edge => Sys2Proof.Machine.execTbcSwapReq p v into edge s
  | .swapWindowOpen p => Sys2Proof.Machine.execSwapWindowOpen p s
  | .tbcpStrobe p into => Sys2Proof.Machine.execTbcpStrobe p into s
  | .swapWindowClose p edge => Sys2Proof.Machine.execSwapWindowClose p edge s
  | .tbcpClkLost p => Sys2Proof.Machine.execTbcpClkLost p s
  | .tbcpClkOk p => Sys2Proof.Machine.execTbcpClkOk p s
  | .tbcCtrlWrite p v edge => Sys2Proof.Machine.execTbcCtrlWrite p v edge s
  | .tbcpAddrChange p addr ecc edge => Sys2Proof.Machine.execTbcpAddrChange p addr ecc edge s
  | .submit r p inl fetchOk idx => Sys2Proof.Machine.execSubmit r p inl fetchOk idx s
  | .hostSubmit r fetchOk idx => Sys2Proof.Machine.execHostSubmit r fetchOk idx s
  | .depDec v => Sys2Proof.Machine.execDepDec v s
  | .cancel v => Sys2Proof.Machine.execCancel v s
  | .ripenCheck into => Sys2Proof.Machine.execRipenCheck into s
  | .baseTickMidpoint => Sys2Proof.Machine.execBaseTickMidpoint s
  | .engineCompletion target e into => Sys2Proof.Machine.execEngineCompletion target e into s
  | .cxDoneWrite c k status => Sys2Proof.Machine.execCxDoneWrite c k status s
  | .interruptEntry c k n => Sys2Proof.Machine.execInterruptEntry c k n s
  | .preemptionEntry c k => Sys2Proof.Machine.execPreemptionEntry c k s
  | .farRetry c k n => Sys2Proof.Machine.execFarRetry c k n s
  | .cpComplete c ecc => Sys2Proof.Machine.execCpComplete c ecc s
  | .softInterruptSet r c k v => Sys2Proof.Machine.execSoftInterruptSet r c k v s
  | .ldB x => Sys2Proof.Machine.execLdB x s
  | .ldBu x => Sys2Proof.Machine.execLdBu x s
  | .ldH x => Sys2Proof.Machine.execLdH x s
  | .ldHu x => Sys2Proof.Machine.execLdHu x s
  | .ldW x => Sys2Proof.Machine.execLdW x s
  | .ldD x => Sys2Proof.Machine.execLdD x s
  | .stB x => Sys2Proof.Machine.execStB x s
  | .stH x => Sys2Proof.Machine.execStH x s
  | .stW x => Sys2Proof.Machine.execStW x s
  | .stD x => Sys2Proof.Machine.execStD x s
  | .cmac x => Sys2Proof.Machine.execCmac x s
  | .cmacj x => Sys2Proof.Machine.execCmacj x s
  | .cmul x => Sys2Proof.Machine.execCmul x s
  | .cmulj x => Sys2Proof.Machine.execCmulj x s
  | .mac2 x => Sys2Proof.Machine.execMac2 x s
  | .mpy2 x => Sys2Proof.Machine.execMpy2 x s
  | .mpy32 x => Sys2Proof.Machine.execMpy32 x s
  | .accmv x => Sys2Proof.Machine.execAccmv x s
  | .accclr x => Sys2Proof.Machine.execAccclr x s
  | .add x imm => Sys2Proof.Machine.execAdd x imm s
  | .adds x imm => Sys2Proof.Machine.execAdds x imm s
  | .sub x imm => Sys2Proof.Machine.execSub x imm s
  | .subs x imm => Sys2Proof.Machine.execSubs x imm s
  | .and x imm => Sys2Proof.Machine.execAnd x imm s
  | .or x imm => Sys2Proof.Machine.execOr x imm s
  | .xor x imm => Sys2Proof.Machine.execXor x imm s
  | .shl x imm => Sys2Proof.Machine.execShl x imm s
  | .shr x imm => Sys2Proof.Machine.execShr x imm s
  | .sar x imm => Sys2Proof.Machine.execSar x imm s
  | .min x imm => Sys2Proof.Machine.execMin x imm s
  | .max x imm => Sys2Proof.Machine.execMax x imm s
  | .abs x imm => Sys2Proof.Machine.execAbs x imm s
  | .clz x imm => Sys2Proof.Machine.execClz x imm s
  | .brev x imm => Sys2Proof.Machine.execBrev x imm s
  | .packh x imm => Sys2Proof.Machine.execPackh x imm s
  | .cmpeq x => Sys2Proof.Machine.execCmpeq x s
  | .cmplt x => Sys2Proof.Machine.execCmplt x s
  | .cmpltu x => Sys2Proof.Machine.execCmpltu x s
  | .sel x => Sys2Proof.Machine.execSel x s
  | .movi x => Sys2Proof.Machine.execMovi x s
  | .movhi x => Sys2Proof.Machine.execMovhi x s
  | .adda x => Sys2Proof.Machine.execAdda x s
  | .mova x => Sys2Proof.Machine.execMova x s
  | .movd x => Sys2Proof.Machine.execMovd x s
  | .movb x => Sys2Proof.Machine.execMovb x s
  | .movl x => Sys2Proof.Machine.execMovl x s
  | .movn x => Sys2Proof.Machine.execMovn x s
  | .br x => Sys2Proof.Machine.execBr x s
  | .brp x => Sys2Proof.Machine.execBrp x s
  | .call x => Sys2Proof.Machine.execCall x s
  | .callr x => Sys2Proof.Machine.execCallr x s
  | .ret x => Sys2Proof.Machine.execRet x s
  | .rep x => Sys2Proof.Machine.execRep x s
  | .repd x => Sys2Proof.Machine.execRepd x s
  | .syscall x => Sys2Proof.Machine.execSyscall x s
  | .breakTrap x => Sys2Proof.Machine.execBreakTrap x s
  | .eret x => Sys2Proof.Machine.execEret x s
  | .wait x => Sys2Proof.Machine.execWait x s
  | .csrr x => Sys2Proof.Machine.execCsrr x s
  | .csrw x => Sys2Proof.Machine.execCsrw x s
  | .fence x => Sys2Proof.Machine.execFence x s
  | .isync x => Sys2Proof.Machine.execIsync x s
  | .clrprov x => Sys2Proof.Machine.execClrprov x s
  | .nopH x => Sys2Proof.Machine.execNopH x s
  | .crcGen x ap w irq => Sys2Proof.Machine.execCrcGen x ap w irq s
  | .crcChk x ap w irq => Sys2Proof.Machine.execCrcChk x ap w irq s
  | .gold x ap w irq => Sys2Proof.Machine.execGold x ap w irq s
  | .scramble x ap w irq => Sys2Proof.Machine.execScramble x ap w irq s
  | .intlv x ap w irq => Sys2Proof.Machine.execIntlv x ap w irq s
  | .deintlv x ap w irq => Sys2Proof.Machine.execDeintlv x ap w irq s
  | .sort x ap w irq => Sys2Proof.Machine.execSort x ap w irq s
  | .topk x ap w irq => Sys2Proof.Machine.execTopk x ap w irq s
  | .cpwait x => Sys2Proof.Machine.execCpwait x s
  | .vld x => Sys2Proof.Machine.execVld x s
  | .vlds x => Sys2Proof.Machine.execVlds x s
  | .vgath x => Sys2Proof.Machine.execVgath x s
  | .vst x => Sys2Proof.Machine.execVst x s
  | .vsts x => Sys2Proof.Machine.execVsts x s
  | .vscat x => Sys2Proof.Machine.execVscat x s
  | .vmul x => Sys2Proof.Machine.execVmul x s
  | .vmulj x => Sys2Proof.Machine.execVmulj x s
  | .vmac x => Sys2Proof.Machine.execVmac x s
  | .vmacj x => Sys2Proof.Machine.execVmacj x s
  | .vmulw x => Sys2Proof.Machine.execVmulw x s
  | .vmulwj x => Sys2Proof.Machine.execVmulwj x s
  | .vmacw x => Sys2Proof.Machine.execVmacw x s
  | .vmacwj x => Sys2Proof.Machine.execVmacwj x s
  | .vmuls x => Sys2Proof.Machine.execVmuls x s
  | .vmacs x => Sys2Proof.Machine.execVmacs x s
  | .vadd x => Sys2Proof.Machine.execVadd x s
  | .vsub x => Sys2Proof.Machine.execVsub x s
  | .vmin x => Sys2Proof.Machine.execVmin x s
  | .vmax x => Sys2Proof.Machine.execVmax x s
  | .vabs x => Sys2Proof.Machine.execVabs x s
  | .vneg x => Sys2Proof.Machine.execVneg x s
  | .vconj x => Sys2Proof.Machine.execVconj x s
  | .vpow x => Sys2Proof.Machine.execVpow x s
  | .vand x => Sys2Proof.Machine.execVand x s
  | .vor x => Sys2Proof.Machine.execVor x s
  | .vxor x => Sys2Proof.Machine.execVxor x s
  | .vshl x => Sys2Proof.Machine.execVshl x s
  | .vsar x => Sys2Proof.Machine.execVsar x s
  | .vshr x => Sys2Proof.Machine.execVshr x s
  | .vcmpeq x => Sys2Proof.Machine.execVcmpeq x s
  | .vcmplt x => Sys2Proof.Machine.execVcmplt x s
  | .vcmpltu x => Sys2Proof.Machine.execVcmpltu x s
  | .vfoldadd x => Sys2Proof.Machine.execVfoldadd x s
  | .vfoldmax x => Sys2Proof.Machine.execVfoldmax x s
  | .vclaim x => Sys2Proof.Machine.execVclaim x s
  | .vclaimi x => Sys2Proof.Machine.execVclaimi x s
  | .vmv x => Sys2Proof.Machine.execVmv x s
  | .vbcast x => Sys2Proof.Machine.execVbcast x s
  | .vext x => Sys2Proof.Machine.execVext x s
  | .vins x => Sys2Proof.Machine.execVins x s
  | .vshdn x => Sys2Proof.Machine.execVshdn x s
  | .vshup x => Sys2Proof.Machine.execVshup x s
  | .vperm x => Sys2Proof.Machine.execVperm x s
  | .vzip x => Sys2Proof.Machine.execVzip x s
  | .vunzip x => Sys2Proof.Machine.execVunzip x s
  | .vnarrow x => Sys2Proof.Machine.execVnarrow x s
  | .vwiden x => Sys2Proof.Machine.execVwiden x s
  | .vramp x => Sys2Proof.Machine.execVramp x s
  | .vpgrant x => Sys2Proof.Machine.execVpgrant x s
  | .vplog x => Sys2Proof.Machine.execVplog x s
  | .dmaRequestPulse line => Sys2Proof.Machine.execDmaRequestPulse line s
  | .dmaSwreq e v => Sys2Proof.Machine.execDmaSwreq e v s
  | .burst e units ce ue => Sys2Proof.Machine.execBurst e units ce ue s
  | .barrierComplete e c => Sys2Proof.Machine.execBarrierComplete e c s
  | .shadowWrite e c x v => Sys2Proof.Machine.execShadowWrite e c x v s
  | .commitShadow e c v => Sys2Proof.Machine.execCommitShadow e c v s
  | .channelEnable e c v => Sys2Proof.Machine.execChannelEnable e c v s
  | .abortChannel e c => Sys2Proof.Machine.execAbortChannel e c s
  | .tickHandover e c => Sys2Proof.Machine.execTickHandover e c s
  | .descriptorExpiry e c => Sys2Proof.Machine.execDescriptorExpiry e c s
  | .dmaRetry e c ce ue => Sys2Proof.Machine.execDmaRetry e c ce ue s
  | .containerWindowPop g units src => Sys2Proof.Machine.execContainerWindowPop g units src s
  | .containerWindowPush g zero data src => Sys2Proof.Machine.execContainerWindowPush g zero data src s
  | .dramAccess k ce ue => Sys2Proof.Machine.execDramAccess k ce ue s
  | .refresh k sub postponed => Sys2Proof.Machine.execRefresh k sub postponed s
  | .mr4Poll k hot => Sys2Proof.Machine.execMr4Poll k hot s
  | .calibration k margin temp => Sys2Proof.Machine.execCalibration k margin temp s
  | .dramRetrain k => Sys2Proof.Machine.execDramRetrain k s
  | .retrainSlice k found => Sys2Proof.Machine.execRetrainSlice k found s
  | .channelRetire k => Sys2Proof.Machine.execChannelRetire k s
  | .redirectApply => Sys2Proof.Machine.execRedirectApply s
  | .patrolScrub b ce ue => Sys2Proof.Machine.execPatrolScrub b ce ue s
  | .clusterScrub c w ce ue => Sys2Proof.Machine.execClusterScrub c w ce ue s
  | .pprGo r v => Sys2Proof.Machine.execPprGo r v s
  | .pprWindow => Sys2Proof.Machine.execPprWindow s
  | .pprDone ok bad => Sys2Proof.Machine.execPprDone ok bad s
  | .ctFree r v => Sys2Proof.Machine.execCtFree r v s
  | .gainCalibration core sram => Sys2Proof.Machine.execGainCalibration core sram s
  | .thermalSample ts => Sys2Proof.Machine.execThermalSample ts s
  | .thermalTrip => Sys2Proof.Machine.execThermalTrip s
  | .avsMeasure osc margin short surplus => Sys2Proof.Machine.execAvsMeasure osc margin short surplus s
  | .pmbusPoll r vi => Sys2Proof.Machine.execPmbusPoll r vi s
  | .statusPoll r w => Sys2Proof.Machine.execStatusPoll r w s
  | .pmbAlert ws => Sys2Proof.Machine.execPmbAlert ws s
  | .dozeEntry m => Sys2Proof.Machine.execDozeEntry m s
  | .retainEntry m => Sys2Proof.Machine.execRetainEntry m s
  | .domainReturn m => Sys2Proof.Machine.execDomainReturn m s
  | .wakeFail m => Sys2Proof.Machine.execWakeFail m s
  | .domHoldWrite r hi v => Sys2Proof.Machine.execDomHoldWrite r hi v s
  | .eventPulse n => Sys2Proof.Machine.execEventPulse n s
  | .evfPendClear w v same => Sys2Proof.Machine.execEvfPendClear w v same s
  | .eventForce v => Sys2Proof.Machine.execEventForce v s
  | .msixUnmask h v => Sys2Proof.Machine.execMsixUnmask h v s
  | .faultRecordEntry cls kind index core nested addr req detail event => Sys2Proof.Machine.execFaultRecordEntry cls kind index core nested addr req detail event s
  | .fltPop v => Sys2Proof.Machine.execFltPop v s
  | .unfence kind x => Sys2Proof.Machine.execUnfence kind x s
  | .unfenceApply kind x => Sys2Proof.Machine.execUnfenceApply kind x s
  | .fallowTest q => Sys2Proof.Machine.execFallowTest q s
  | .fallowTestDone q pass => Sys2Proof.Machine.execFallowTestDone q pass s
  | .rotationStart q => Sys2Proof.Machine.execRotationStart q s
  | .rotationFlip => Sys2Proof.Machine.execRotationFlip s
  | .aonHeartbeat => Sys2Proof.Machine.execAonHeartbeat s
  | .heartbeatMissing => Sys2Proof.Machine.execHeartbeatMissing s
  | .promotion => Sys2Proof.Machine.execPromotion s
  | .twinEnable r v => Sys2Proof.Machine.execTwinEnable r v s
  | .twinCellRx => Sys2Proof.Machine.execTwinCellRx s
  | .twinHeartbeatTx g => Sys2Proof.Machine.execTwinHeartbeatTx g s
  | .mirrorEpoch => Sys2Proof.Machine.execMirrorEpoch s
  | .twinHbOutToggle => Sys2Proof.Machine.execTwinHbOutToggle s
  | .twinHbInEdge => Sys2Proof.Machine.execTwinHbInEdge s
  | .heartbeatLoss => Sys2Proof.Machine.execHeartbeatLoss s
  | .takeover r => Sys2Proof.Machine.execTakeover r s
  | .takeoverEdge => Sys2Proof.Machine.execTakeoverEdge s
  | .stepDown => Sys2Proof.Machine.execStepDown s
  | .twnMsgPop g units src => Sys2Proof.Machine.execTwnMsgPop g units src s
  | .twnMsgPush g data src => Sys2Proof.Machine.execTwnMsgPush g data src s
  | .hostTlp h t => Sys2Proof.Machine.execHostTlp h t s
  | .hostAsleepRetry h => Sys2Proof.Machine.execHostAsleepRetry h s
  | .flr h => Sys2Proof.Machine.execFlr h s
  | .pcieLinkDown h => Sys2Proof.Machine.execPcieLinkDown h s
  | .pcieLinkUp h => Sys2Proof.Machine.execPcieLinkUp h s
  | .semAcquire n src core => Sys2Proof.Machine.execSemAcquire n src core s
  | .semRelease n src core v => Sys2Proof.Machine.execSemRelease n src core v s
  | .semLinkRelease h => Sys2Proof.Machine.execSemLinkRelease h s
  | .netFrameRx p tci data fcsOk into => Sys2Proof.Machine.execNetFrameRx p tci data fcsOk into s
  | .netFrameTx p into => Sys2Proof.Machine.execNetFrameTx p into s
  | .netQueuePop q units src => Sys2Proof.Machine.execNetQueuePop q units src s
  | .netQueuePush q prov data src => Sys2Proof.Machine.execNetQueuePush q prov data src s
  | .rxqIdleFill q => Sys2Proof.Machine.execRxqIdleFill q s
  | .txtsPop r p => Sys2Proof.Machine.execTxtsPop r p s
  | .netLinkDown p => Sys2Proof.Machine.execNetLinkDown p s
  | .netLinkUp p => Sys2Proof.Machine.execNetLinkUp p s
  | .porRelease mode f => Sys2Proof.Machine.execPorRelease mode f s
  | .porAssert => Sys2Proof.Machine.execPorAssert s
  | .getInfo h seq => Sys2Proof.Machine.execGetInfo h seq s
  | .bootHost h seq f => Sys2Proof.Machine.execBootHost h seq f s
  | .keyProgram h seq fuseOk => Sys2Proof.Machine.execKeyProgram h seq fuseOk s
  | .keyRevoke h seq fuseOk => Sys2Proof.Machine.execKeyRevoke h seq fuseOk s
  | .setMinSecVer h seq fuseOk => Sys2Proof.Machine.execSetMinSecVer h seq fuseOk s
  | .flashSet h seq flashOk => Sys2Proof.Machine.execFlashSet h seq flashOk s
  | .recordRead h seq flashOk => Sys2Proof.Machine.execRecordRead h seq flashOk s
  | .esmcGet h seq => Sys2Proof.Machine.execEsmcGet h seq s
  | .esmcSet h seq => Sys2Proof.Machine.execEsmcSet h seq s
  | .prepareRemoval h seq => Sys2Proof.Machine.execPrepareRemoval h seq s
  | .cancelRemoval h seq => Sys2Proof.Machine.execCancelRemoval h seq s
  | .mailboxResponse => Sys2Proof.Machine.execMailboxResponse s
  | .haywardWatchdog => Sys2Proof.Machine.execHaywardWatchdog s
  | .flashRecordWrite ok => Sys2Proof.Machine.execFlashRecordWrite ok s
  | .hpmClr c k n => Sys2Proof.Machine.execHpmClr c k n s
  | .clusterDump c => Sys2Proof.Machine.execClusterDump c s
  | .telemetryRecord part => Sys2Proof.Machine.execTelemetryRecord part s
  | .debugHalt r c v => Sys2Proof.Machine.execDebugHalt r c v s
  | .debugStep r c v => Sys2Proof.Machine.execDebugStep r c v s
  | .debugLock => Sys2Proof.Machine.execDebugLock s
  | .tapReset => Sys2Proof.Machine.execTapReset s
  | .idcode => Sys2Proof.Machine.execIdcode s
  | .samplePreload captured preload => Sys2Proof.Machine.execSamplePreload captured preload s
  | .extest => Sys2Proof.Machine.execExtest s
  | .clamp => Sys2Proof.Machine.execClamp s
  | .highz => Sys2Proof.Machine.execHighz s
  | .extestPulse => Sys2Proof.Machine.execExtestPulse s
  | .extestTrain => Sys2Proof.Machine.execExtestTrain s
  | .bypass => Sys2Proof.Machine.execBypass s
  | .dbgLwk dr settled => Sys2Proof.Machine.execDbgLwk dr settled s
  | .dbgLwkCapture ready => Sys2Proof.Machine.execDbgLwkCapture ready s
  | .registerWrite r off v same => Sys2Proof.Machine.execRegisterWrite r off v same s
  | .quadPllLock k => Sys2Proof.Machine.execQuadPllLock k s
  | .synceLockGained => Sys2Proof.Machine.execSynceLockGained s
  | .laneAdaptation n k up eye limit => Sys2Proof.Machine.execLaneAdaptation n k up eye limit s
  | .hiBer p on_ => Sys2Proof.Machine.execHiBer p on_ s
  | .silentPathTimeout pin => Sys2Proof.Machine.execSilentPathTimeout pin s

end Sys2Proof.Machine
end

