-- ==== Sys2Proof/WellFormed.lean ====
section
/-! DEFINITION. Well-formed commands: the bounds that the operands' types do not say. -/

namespace Sys2Proof

/-- Nanoseconds after a base tick edge; a tick that a step lengthens lasts less than 187,500 (R29, R44). -/
def inTick (into : Nat) : Bool := decide (into < 187500)

/-- Whole data units of 64 bytes, one to 64 of them (R89). -/
def unitsWf (bs : List Byte) : Bool := bs.length % 64 == 0 && decide (1 ≤ bs.length) && decide (bs.length ≤ 4096)

/-- A packet: at most 64 data units, and its data are those units or none (R89, R90). -/
def packetWf (p : Packet) : Bool :=
  decide (p.len.toNat ≤ 64) && (p.data.isEmpty || p.data.length == 64 * p.len.toNat)

/-- One slot of a bundle: MOD has 15 bits in the four slots of 40 bits (R377). -/
def slotWf (i : SlotOp) : Bool := decide (4 ≤ i.slot.val) || decide (i.mod.toNat < 2 ^ 15)

/-- A TLP: a write of one to 4,096 bytes, a read of at least one. -/
def tlpWf : Tlp → Bool
  | .memRd _ _ len => decide (1 ≤ len.val)
  | .memWr _ _ bs => decide (1 ≤ bs.length) && decide (bs.length ≤ 4096)
  | .msix _ _ => true

/-- What a boot finds on the six DRAM channels. -/
def bootWf (f : BootFacts) : Bool := f.dram.length == 6

/-- Whether a command is well-formed. -/
def Instr.wf (i : Instr) : Bool :=
  match i with
  | .baseTickEdge l => l.domE.length == 66
  | .releaseTick _ => true
  | .workItemExpiry _ => true
  | .spareSwap _ _ => true
  | .ptpEventMessageRx _ _ _ _ _ => true
  | .announceRx _ _ _ _ _ _ => true
  | .announceTimeout => true
  | .syncTimeout => true
  | .ppsInEdge into _ => inTick into
  | .ppsInAbsent => true
  | .synceRefLost => true
  | .ttbCtrlWrite _ _ => true
  | .heldPanelStart _ => true
  | .stepGo _ _ => true
  | .stepApply => true
  | .ttbFrameWrite _ _ => true
  | .frameApply => true
  | .tickLoRead _ => true
  | .todNsRead _ into => inTick into
  | .ppsOutRise => true
  | .ppsOutFall => true
  | .stage _ _ _ => true
  | .stageComplete => true
  | .reprick _ _ => true
  | .stop _ _ => true
  | .start _ _ => true
  | .discard _ _ => true
  | .panelStop _ => true
  | .applyComplete => true
  | .panelRestart _ => true
  | .migrationRequest _ _ => true
  | .migrationCopyStart => true
  | .migrationSwitch => true
  | .migrationDrained => true
  | .packetInject p => packetWf p
  | .packetReceive _ _ _ _ _ _ _ _ => true
  | .responseReceive _ _ => true
  | .fencedHoldTimeout _ => true
  | .requestTimeout _ _ => true
  | .barrierRelease _ => true
  | .epochFlip _ => true
  | .epochDrained => true
  | .holdLimitExpiry _ => true
  | .xlinkFail _ => true
  | .statWindowClose => true
  | .traceArm _ => true
  | .openTile _ _ _ _ => true
  | .sealTile _ _ _ _ _ => true
  | .releaseTile _ _ _ _ => true
  | .markFault _ _ _ _ => true
  | .markClrProv _ _ _ _ => true
  | .payloadWrite _ _ _ _ _ data _ => unitsWf data || data.length == 8
  | .wholeTileRead _ _ _ _ => true
  | .partialRead _ _ _ _ _ => true
  | .headerRead _ _ _ _ => true
  | .retireWindowClose => true
  | .bankRetire _ => true
  | .laneBlockReceive _ _ _ _ _ i => inTick i
  | .lossOfSignal _ => true
  | .losClear _ => true
  | .retrain _ _ => true
  | .trainingDone _ l => decide (l.length ≤ 64)
  | .laneFailed _ => true
  | .recoveryAttempt _ => true
  | .quadPllUnlock _ => true
  | .laneTestWrite _ _ _ => true
  | .twinQuadCfgWrite _ _ _ => true
  | .basicFrameTx _ _ => true
  | .alignmentBlockReceive _ _ _ i => inTick i
  | .candidateBarExpiry _ => true
  | .overheadBlockReceive _ _ _ => true
  | .groupFrameDelivery _ _ => true
  | .ecpriMessageRx _ m => inTick m.into && m.sects.all (fun s => decide (s.prbs.length ≤ 275) && decide (s.width ≤ 16))
  | .ta4WindowClose _ _ _ _ => true
  | .uplaneSend _ _ _ _ i => inTick i
  | .cplaneSend _ _ _ i => inTick i
  | .ulFft _ _ => true
  | .ulPrachLong _ _ => true
  | .dlIfft _ => true
  | .agcSymbolEnd _ _ => true
  | .preOccasion _ => true
  | .repetitionAccumulate _ => true
  | .triggerEvaluation _ => true
  | .finalCorrelation _ => true
  | .ulEst _ => true
  | .ulComb _ => true
  | .ulSrs _ => true
  | .dlMod _ => true
  | .dlPrecode _ => true
  | .dlConvert _ => true
  | .dlWeights _ => true
  | .passEndRx _ _ _ into => inTick into
  | .ldpcDec _ => true
  | .polarDec _ => true
  | .shortDec _ => true
  | .turboDec _ => true
  | .tbccDec _ => true
  | .ldpcEnc _ => true
  | .polarEnc _ => true
  | .turboEnc _ => true
  | .tbccEnc _ => true
  | .codeBlockDoorbell _ _ _ => true
  | .loopEndDoorbell _ _ _ => true
  | .decodeJobStart _ => true
  | .codeBlockDecoded _ _ => true
  | .codeBlockCheck _ => true
  | .heldRecordWrite _ => true
  | .dlSendPoint _ _ _ _ _ => true
  | .tbcTableWrite _ _ _ _ vs _ => decide (1 ≤ vs.length) && decide (vs.length ≤ 1024)
  | .tbcSwapReq _ _ into _ => inTick into
  | .swapWindowOpen _ => true
  | .tbcpStrobe _ into => inTick into
  | .swapWindowClose _ _ => true
  | .tbcpClkLost _ => true
  | .tbcpClkOk _ => true
  | .tbcCtrlWrite _ _ _ => true
  | .tbcpAddrChange _ _ _ _ => true
  | .submit _ _ _ _ _ => true
  | .hostSubmit _ _ _ => true
  | .depDec _ => true
  | .cancel _ => true
  | .ripenCheck into => inTick into
  | .baseTickMidpoint => true
  | .engineCompletion _ _ into => inTick into
  | .cxDoneWrite _ _ _ => true
  | .interruptEntry _ _ _ => true
  | .preemptionEntry _ _ => true
  | .farRetry _ _ _ => true
  | .cpComplete _ _ => true
  | .softInterruptSet _ _ _ _ => true
  | .ldB i => slotWf i
  | .ldBu i => slotWf i
  | .ldH i => slotWf i
  | .ldHu i => slotWf i
  | .ldW i => slotWf i
  | .ldD i => slotWf i
  | .stB i => slotWf i
  | .stH i => slotWf i
  | .stW i => slotWf i
  | .stD i => slotWf i
  | .cmac i => slotWf i
  | .cmacj i => slotWf i
  | .cmul i => slotWf i
  | .cmulj i => slotWf i
  | .mac2 i => slotWf i
  | .mpy2 i => slotWf i
  | .mpy32 i => slotWf i
  | .accmv i => slotWf i
  | .accclr i => slotWf i
  | .add i _ => slotWf i
  | .adds i _ => slotWf i
  | .sub i _ => slotWf i
  | .subs i _ => slotWf i
  | .and i _ => slotWf i
  | .or i _ => slotWf i
  | .xor i _ => slotWf i
  | .shl i _ => slotWf i
  | .shr i _ => slotWf i
  | .sar i _ => slotWf i
  | .min i _ => slotWf i
  | .max i _ => slotWf i
  | .abs i _ => slotWf i
  | .clz i _ => slotWf i
  | .brev i _ => slotWf i
  | .packh i _ => slotWf i
  | .cmpeq i => slotWf i
  | .cmplt i => slotWf i
  | .cmpltu i => slotWf i
  | .sel i => slotWf i
  | .movi i => slotWf i
  | .movhi i => slotWf i
  | .adda i => slotWf i
  | .mova i => slotWf i
  | .movd i => slotWf i
  | .movb i => slotWf i
  | .movl i => slotWf i
  | .movn i => slotWf i
  | .br i => slotWf i
  | .brp i => slotWf i
  | .call i => slotWf i
  | .callr i => slotWf i
  | .ret i => slotWf i
  | .rep i => slotWf i
  | .repd i => slotWf i
  | .syscall i => slotWf i
  | .breakTrap i => slotWf i
  | .eret i => slotWf i
  | .wait i => slotWf i
  | .csrr i => slotWf i
  | .csrw i => slotWf i
  | .fence i => slotWf i
  | .isync i => slotWf i
  | .clrprov i => slotWf i
  | .nopH i => slotWf i
  | .crcGen i _ _ _ => slotWf i
  | .crcChk i _ _ _ => slotWf i
  | .gold i _ _ _ => slotWf i
  | .scramble i _ _ _ => slotWf i
  | .intlv i _ _ _ => slotWf i
  | .deintlv i _ _ _ => slotWf i
  | .sort i _ _ _ => slotWf i
  | .topk i _ _ _ => slotWf i
  | .cpwait i => slotWf i
  | .vld i => slotWf i
  | .vlds i => slotWf i
  | .vgath i => slotWf i
  | .vst i => slotWf i
  | .vsts i => slotWf i
  | .vscat i => slotWf i
  | .vmul i => slotWf i
  | .vmulj i => slotWf i
  | .vmac i => slotWf i
  | .vmacj i => slotWf i
  | .vmulw i => slotWf i
  | .vmulwj i => slotWf i
  | .vmacw i => slotWf i
  | .vmacwj i => slotWf i
  | .vmuls i => slotWf i
  | .vmacs i => slotWf i
  | .vadd i => slotWf i
  | .vsub i => slotWf i
  | .vmin i => slotWf i
  | .vmax i => slotWf i
  | .vabs i => slotWf i
  | .vneg i => slotWf i
  | .vconj i => slotWf i
  | .vpow i => slotWf i
  | .vand i => slotWf i
  | .vor i => slotWf i
  | .vxor i => slotWf i
  | .vshl i => slotWf i
  | .vsar i => slotWf i
  | .vshr i => slotWf i
  | .vcmpeq i => slotWf i
  | .vcmplt i => slotWf i
  | .vcmpltu i => slotWf i
  | .vfoldadd i => slotWf i
  | .vfoldmax i => slotWf i
  | .vclaim i => slotWf i
  | .vclaimi i => slotWf i
  | .vmv i => slotWf i
  | .vbcast i => slotWf i
  | .vext i => slotWf i
  | .vins i => slotWf i
  | .vshdn i => slotWf i
  | .vshup i => slotWf i
  | .vperm i => slotWf i
  | .vzip i => slotWf i
  | .vunzip i => slotWf i
  | .vnarrow i => slotWf i
  | .vwiden i => slotWf i
  | .vramp i => slotWf i
  | .vpgrant i => slotWf i
  | .vplog i => slotWf i
  | .dmaRequestPulse _ => true
  | .dmaSwreq _ _ => true
  | .burst _ _ _ _ => true
  | .barrierComplete _ _ => true
  | .shadowWrite _ _ _ _ => true
  | .commitShadow _ _ _ => true
  | .channelEnable _ _ _ => true
  | .abortChannel _ _ => true
  | .tickHandover _ _ => true
  | .descriptorExpiry _ _ => true
  | .dmaRetry _ _ _ _ => true
  | .containerWindowPop _ _ _ => true
  | .containerWindowPush _ _ data _ => unitsWf data
  | .dramAccess _ _ _ => true
  | .refresh _ _ _ => true
  | .mr4Poll _ _ => true
  | .calibration _ _ _ => true
  | .dramRetrain _ => true
  | .retrainSlice _ _ => true
  | .channelRetire _ => true
  | .redirectApply => true
  | .patrolScrub _ _ _ => true
  | .clusterScrub _ _ _ _ => true
  | .pprGo _ _ => true
  | .pprWindow => true
  | .pprDone _ _ => true
  | .ctFree _ _ => true
  | .gainCalibration _ _ => true
  | .thermalSample ts => ts.length == 16
  | .thermalTrip => true
  | .avsMeasure osc _ _ _ => osc.length == 64
  | .pmbusPoll _ _ => true
  | .statusPoll _ _ => true
  | .pmbAlert ws => ws.length == 8
  | .dozeEntry _ => true
  | .retainEntry _ => true
  | .domainReturn _ => true
  | .wakeFail _ => true
  | .domHoldWrite _ _ _ => true
  | .eventPulse _ => true
  | .evfPendClear _ _ _ => true
  | .eventForce _ => true
  | .msixUnmask _ _ => true
  | .faultRecordEntry _ _ _ _ _ _ _ _ _ => true
  | .fltPop _ => true
  | .unfence _ _ => true
  | .unfenceApply _ _ => true
  | .fallowTest _ => true
  | .fallowTestDone _ _ => true
  | .rotationStart _ => true
  | .rotationFlip => true
  | .aonHeartbeat => true
  | .heartbeatMissing => true
  | .promotion => true
  | .twinEnable _ _ => true
  | .twinCellRx => true
  | .twinHeartbeatTx _ => true
  | .mirrorEpoch => true
  | .twinHbOutToggle => true
  | .twinHbInEdge => true
  | .heartbeatLoss => true
  | .takeover _ => true
  | .takeoverEdge => true
  | .stepDown => true
  | .twnMsgPop _ _ _ => true
  | .twnMsgPush _ data _ => unitsWf data
  | .hostTlp _ t => tlpWf t
  | .hostAsleepRetry _ => true
  | .flr _ => true
  | .pcieLinkDown _ => true
  | .pcieLinkUp _ => true
  | .semAcquire _ _ _ => true
  | .semRelease _ _ _ _ => true
  | .semLinkRelease _ => true
  | .netFrameRx _ _ _ _ into => inTick into
  | .netFrameTx _ into => inTick into
  | .netQueuePop _ _ _ => true
  | .netQueuePush _ _ data _ => unitsWf data
  | .rxqIdleFill _ => true
  | .txtsPop _ _ => true
  | .netLinkDown _ => true
  | .netLinkUp _ => true
  | .porRelease _ f => bootWf f
  | .porAssert => true
  | .getInfo _ _ => true
  | .bootHost _ _ f => bootWf f
  | .keyProgram _ _ _ => true
  | .keyRevoke _ _ _ => true
  | .setMinSecVer _ _ _ => true
  | .flashSet _ _ _ => true
  | .recordRead _ _ _ => true
  | .esmcGet _ _ => true
  | .esmcSet _ _ => true
  | .prepareRemoval _ _ => true
  | .cancelRemoval _ _ => true
  | .mailboxResponse => true
  | .haywardWatchdog => true
  | .flashRecordWrite _ => true
  | .hpmClr _ _ _ => true
  | .clusterDump _ => true
  | .telemetryRecord _ => true
  | .debugHalt _ _ _ => true
  | .debugStep _ _ _ => true
  | .debugLock => true
  | .tapReset => true
  | .idcode => true
  | .samplePreload _ _ => true
  | .extest => true
  | .clamp => true
  | .highz => true
  | .extestPulse => true
  | .extestTrain => true
  | .bypass => true
  | .dbgLwk _ _ => true
  | .dbgLwkCapture _ => true
  | .registerWrite _ _ _ _ => true
  | .quadPllLock _ => true
  | .synceLockGained => true
  | .laneAdaptation _ _ _ _ _ => true
  | .hiBer _ _ => true
  | .silentPathTimeout _ => true

end Sys2Proof
end

