-- ==== Sys2Proof/Safety.lean ====
section
/-! DEFINITION. What counts as a safe run of the device: it goes on, the commands that wait are well-formed, and the
memory and the register file keep their canonical form; and the terms in which statements speak of a signal core. -/

namespace Sys2Proof.Machine
open R

/-- An outcome is a next state. -/
def Completes (o : Host.Outcome State Fault Refusal) : Prop := ∃ t, o = .next t

/-- A command completes: the queue stands, and the device is one that P allows. -/
def Does (c : Instr) (s : State) (P : Device → Prop) : Prop := ∃ t, exec c s = .next ⟨t, s.pending⟩ ∧ P t

/-- Device t is d with fields of its registers set: each field of fs holds its value, the flag of each event of ps is
pending, and every field that shares no bit with these stands. Nothing else of the device changes but what events do:
vectors sent or held pending, and wakes latched (R499, R505, R506). -/
structure Device.Sets (d t : Device) (fs : List (Fld × Nat)) (ps : List Nat) : Prop where
  holds : ∀ w ∈ fs, t.get w.1 = w.2
  pends : ∀ n ∈ ps, t.get (pendFld n) = 1
  frame : ∀ g : Fld, g.Ok → (∀ w ∈ fs, w.1.Apart g) → (∀ n ∈ ps, (pendFld n).Apart g) → t.get g = d.get g
  quiet : ps = [] → t = { d with regs := t.regs }
  rest : t = { d with
    regs := t.regs, power := { d.power with edge := t.power.edge }, msixA := t.msixA, msixB := t.msixB, out := t.out }

/-- A command completes with fields set and events pulsed, and no other effect than those that base has: base is the
state's device, or that device with the changes outside the registers that the command makes first. -/
def Sets (c : Instr) (s : State) (base : Device) (fs : List (Fld × Nat)) (ps : List Nat := []) : Prop :=
  Does c s (fun t => base.Sets t fs ps)

/-- The register file and the memory are in canonical form. -/
def Device.Canon (d : Device) : Prop := Memory.wf d.mem = true ∧ tabWf regReset d.regs = true

/-- Every command that waits is well-formed. -/
def State.QueueWf (s : State) : Prop := s.pending.all Instr.wf = true

/-- n steps, while the machine goes on. -/
def runSteps : Nat → State → Host.Outcome State Fault Refusal
  | 0, s => .next s
  | n + 1, s => match step s with
    | .next t => runSteps n t
    | o => o

/-- The core of a slot's instruction. -/
def Device.coreOf (d : Device) (i : SlotOp) : Core := d.core i.c.val i.k.val

/-- The core of an instruction issues a bundle of that instruction alone, in one of the given slots: nothing halts
it, the bundle is fetched, and neither a branch nor a repeat is under way. -/
structure Device.Alone (d : Device) (i : SlotOp) (slots : List Nat) : Prop where
  slot : slots.contains i.slot.val = true
  first : i.first = true
  last : i.last = true
  fetched : i.fetchUe = false
  issues : d.issues i.c.val i.k.val = true
  runs : (d.coreOf i).halted = false
  noBreak : d.breakHit i.c.val i.k.val = false
  noHalt : bit (d.get (CLU_DBG_CTRL_HALT i.c.val)) i.k.val = false
  inRange : (d.coreOf i).pc ≤ 0x17FE0
  aligned : (d.coreOf i).pc % 32 = 0
  noBranch : (d.coreOf i).branch = none
  noLoop : (d.coreOf i).loops = []

/-- The registers that a store may mark: the state words of the correction entries (R470). -/
def entryReg (r : Nat) : Prop := (∃ n, r = DRC_CT_W2 n) ∨ ∃ c n, r = DRC_CLCT_W2 c n

/-- The registers that committing a bundle may write on the way: the core's counters of R567, CX_VRESUME (R431), and,
where it stores, the correction entries. -/
def commitReg (i : SlotOp) (st : List (Nat × List Byte)) (r : Nat) : Prop :=
  (∃ n < 8, r = CX_HPM_CTL i.c.val i.k.val n) ∨ r = CX_VRESUME i.c.val i.k.val ∨ (st ≠ [] ∧ entryReg r)

/-- Memory with bytes written at addresses, in order. -/
def memAll (m : List Host.Cell) (st : List (Nat × List Byte)) : List Host.Cell :=
  st.foldl (fun m w => memSets m w.1 w.2) m

/-- Device t is d after one bundle of the instruction's core. Of the register writes ws, each with how many bundles later
it is readable, those readable at once are in the core's registers, beside those that were in flight and are due, and
the others are in flight. Memory holds the stores st, and every byte outside them stands. No register of the device
changes but those of rs and those a commit writes on the way; no other core changes; and nothing else of the device but
free values drawn and, where it stores, the marks of mirrored lines and unreadable bursts. -/
structure Device.Committed (d t : Device) (i : SlotOp) (ws : List (Nat × CWrite)) (st : List (Nat × List Byte))
    (rs : List Nat) : Prop where
  regs : (t.coreOf i).regs = (d.coreOf i).aged.regs.writes ((ws.filter (fun w => decide (w.1 ≤ 1))).map (·.2))
  flight : (t.coreOf i).flight =
    (d.coreOf i).aged.flight ++ (ws.filter (fun w => decide (1 < w.1))).map (fun w => (w.1 - 1, w.2))
  mem : t.mem = memAll d.mem st
  frame : ∀ a, (∀ w ∈ st, a < w.1 ∨ w.1 + w.2.length ≤ a) → t.byte a = d.byte a
  words : ∀ r, ¬ commitReg i st r → r ∉ rs → t.word r = d.word r
  others : ∀ n, n ≠ 8 * i.c.val + i.k.val → tabGet (fun _ => core0) t.cores n = tabGet (fun _ => core0) d.cores n
  marks : st = [] → t.marks = d.marks ∧ t.dram = d.dram
  rest : t = { d with
    regs := t.regs, cores := t.cores, mem := t.mem, marks := t.marks, dram := t.dram, free := t.free }

/-- The core has gone on to the next bundle, with neither a branch nor a repeat under way. -/
def Device.NextBundle (d t : Device) (i : SlotOp) : Prop :=
  (t.coreOf i).pc = (d.coreOf i).pc + 32 ∧ (t.coreOf i).branch = none ∧ (t.coreOf i).loops = []

/-- The instruction, alone in its bundle, makes the register writes ws and the stores st, writes no register of the device
but those of rs, and goes on to the next bundle. -/
def Retires (c : Instr) (i : SlotOp) (s : State) (ws : List (Nat × CWrite)) (st : List (Nat × List Byte) := [])
    (rs : List Nat := []) : Prop :=
  Does c s (fun t => s.dev.Committed t i ws st rs ∧ s.dev.NextBundle t i)

/-- The same of a vector instruction, which also sets CX_STATUS.VLIVE (R414). -/
def VRetires (c : Instr) (i : SlotOp) (s : State) (ws : List (Nat × CWrite)) (st : List (Nat × List Byte) := []) : Prop :=
  Does c s (fun t => s.dev.Committed t i ws st [CX_STATUS i.c.val i.k.val] ∧ s.dev.NextBundle t i ∧
    t.get (CX_STATUS_VLIVE i.c.val i.k.val) = 1)

/-- An instruction of the vector extension that R414 to R421 let through, alone in its bundle: its enable bit is set for the
core's mode, its slot is one of those given, its reserved bits are 0, and it accepts the element type in force. -/
structure Device.VReady (d : Device) (i : SlotOp) (slots : List Nat) (reserved : Nat) (types : Nat → Bool) : Prop where
  alone : d.Alone i slots
  enabled : d.cpOn i.c.val i.k.val 1 = true
  clear : i.mod.toNat &&& reserved = 0
  accepted : types (d.get (CX_VSHAPE_ELEM i.c.val i.k.val)) = true

end Sys2Proof.Machine
end

