-- ==== Sys2Proof/Certificates/Slice0/Obligations.lean ====
section
/-! DEFINITION. The statements for the provers: what each command of the device does, what reset leaves and what every step
keeps. A statement of several parts is the conjunction of claims that stand before it. -/

open Sys2Proof Sys2Proof.Machine Sys2Proof.Machine.R

/-! ### The queue, the reset, and what every step keeps -/

/-- A step takes the command at the front of the queue and runs it on the state with the queue's rest; with no command
waiting, the device idles (log entry 1). -/
def Obligations.StepRunsFront : Prop :=
  (∀ (c : Instr) (rest : List Instr) (s : State), s.pending = c :: rest → step s = exec c { s with pending := rest }) ∧
  (∀ s : State, s.pending = [] → step s = .next s)

/-- Every command of the table completes: in every state and with every operand, exec of it answers a next state, and the queue
stands as it was. So every command that waits runs, oldest first: from every state, each number of steps up to the number of
commands that wait ends in a next state, in which the commands behind those that ran still wait in their order. -/
def Obligations.EveryCommandRuns : Prop :=
  (∀ (c : Instr) (s : State), ∃ d, exec c s = .next ⟨d, s.pending⟩) ∧
  ∀ (s : State) (n : Nat), n ≤ s.pending.length → ∃ t, runSteps n s = .next t ∧ t.pending = s.pending.drop n

/-- A step keeps the queue well-formed: no command adds one, or changes one that waits. -/
def Obligations.QueueStaysWellFormed : Prop :=
  ∀ s t : State, s.QueueWf → step s = .next t → t.QueueWf

/-- A step keeps the canonical form of the memory and of the register file: addresses rise, and no entry holds what an
unlisted address reads as. So devices with equal bytes and registers have equal tables. -/
def Obligations.CanonicalFormIsKept : Prop :=
  ∀ s t : State, s.dev.Canon → step s = .next t → t.dev.Canon

/-- The state after reset: no command waits, the tables are canonical, registers hold the values of their chapters' tables,
PKL_STATUS.OPEN is 1 (R64) and no core runs an item. Every byte of memory reads 0, and every register of a core: the model's
choice (log entries 3 and 7). -/
def Obligations.ResetState : Prop :=
  let d := State.reset.dev
  State.reset.pending = [] ∧ State.reset.QueueWf ∧ d.Canon ∧
  (∀ r, d.word r = regReset r) ∧ (∀ a, d.byte a = 0) ∧
  (∀ n < 384, d.get (EVF_ROUTE_HOST_A n) = 1 ∧ d.get (EVF_ROUTE_HOST_B n) = 1 ∧ d.get (pendFld n) = 0) ∧
  d.get HWD_ID_DEVICE = 0x6192 ∧ d.get PKL_STATUS_OPEN = 1 ∧ d.get TTB_CTRL_PTP_DOMAIN = 0x7F ∧
  (∀ c k, (d.core c k).item = none ∧ (d.core c k).waiting = true ∧ (∀ i, (d.core c k).regs.dreg i = 0) ∧
    (d.core c k).regs.preg 0 = true ∧ (d.core c k).regs.vpreg 0 = BitVec.allOnes 128)

/-- R40: after power-on reset of PD_AON the time-of-day is 0 s and 0 ns, TICK is 0 and TTB_STATUS.STATE is FREERUN, both in the
state after reset and after POR_ASSERT; and the time base runs: the first base tick edge takes such a time base to 125,000 ns and
TICK 1. -/
def Obligations.TimeBaseAtReset : Prop :=
  let zero := fun (d : Device) => d.time.sec = 0 ∧ d.time.ns = 0 ∧ d.time.tick = 0 ∧ d.get TTB_STATUS_STATE = 0
  zero State.reset.dev ∧ (∀ s, Does .porAssert s zero) ∧
  ∀ (s : State) (l : LedgerInputs), zero s.dev → s.dev.time.skip = false → ∃ u e : Device,
    u.time.sec = 0 ∧ u.time.ns = 125000 ∧ u.time.tick = 1 ∧
    e = (u.firstWindow.floorCredit.closeTick l.domE).lanesEdge ∧
    exec (.baseTickEdge l) s =
      .next ⟨(({ e with lwk := { e.lwk with statEdges := e.lwk.statEdges + 1 } }).dumpRoles.removeEdge.tlmEdge).schedule, s.pending⟩

/-- R410 and the register list of the signal cores: P0 reads 1 and VP0 reads as all ones whatever is written; a register
that no write of a list names stands; and one that the last write names holds its value, a vector register in the bits
that the write selects. -/
def Obligations.CoreRegisterWrites : Prop :=
  ∀ (r : CoreRegs) (ws : List CWrite) (i : Nat) (x : Word) (b : Bool) (re im : BitVec 40) (v m : BitVec 1024)
      (p q : BitVec 128),
    let t := r.writes ws
    let last := fun (w : CWrite) => r.writes (ws ++ [w])
    let free := fun (f : Nat) => ∀ w ∈ ws, w.key ≠ (f, i)
    t.preg 0 = true ∧ t.vpreg 0 = BitVec.allOnes 128 ∧
    (free 0 → t.dreg i = r.dreg i) ∧ (free 1 → t.areg i = r.areg i) ∧ (free 2 → t.nreg i = r.nreg i) ∧
    (free 3 → t.breg i = r.breg i) ∧ (free 4 → t.lreg i = r.lreg i) ∧ (free 5 → t.preg i = r.preg i) ∧
    (free 6 → t.acc i = r.acc i) ∧ (free 7 → t.vreg i = r.vreg i) ∧ (free 8 → t.vpreg i = r.vpreg i) ∧
    (last (.d i x)).dreg i = x ∧ (last (.a i x)).areg i = x ∧ (last (.n i x)).nreg i = x ∧ (last (.b i x)).breg i = x ∧
    (last (.l i x)).lreg i = x ∧ (last (.ac i re im)).acc i = (re, im) ∧
    (i ≠ 0 → (last (.p i b)).preg i = b) ∧
    (∀ n, ((last (.v i v m)).vreg i).getLsbD n = if m.getLsbD n then v.getLsbD n else (t.vreg i).getLsbD n) ∧
    (i ≠ 0 → ∀ n, ((last (.vp i p q)).vpreg i).getLsbD n = if q.getLsbD n then p.getLsbD n else (t.vpreg i).getLsbD n)

/-! ### Signal cores: scalar instructions (R380 to R387, R407) -/

/-- R407, R380: ADD, ADDS, SUB, SUBS, AND, OR, XOR, MIN and MAX in slot SA, in both forms, write D(DST), readable one
bundle later; the S forms saturate. MIN and MAX compare signed numbers (log entry 41, DEDUCED). -/
def Obligations.ArithmeticInstructions : Prop :=
  ∀ (s : State) (i : SlotOp) (imm : Bool), s.dev.Alone i [4] →
    let x := s.dev.coreOf i
    let a := x.regs.dreg i.src1.toNat
    let b : Word := if imm then i.mod.signExtend 32 else x.regs.dreg i.src2.toNat
    let wr := fun (v : Word) => [(1, CWrite.d i.dst.toNat v)]
    let sat := fun (n : Int) => BitVec.ofInt 32 (max (-2147483648) (min n 2147483647))
    Retires (.add i imm) i s (wr (a + b)) ∧
    Retires (.adds i imm) i s (wr (sat (a.toInt + b.toInt))) ∧
    Retires (.sub i imm) i s (wr (a - b)) ∧
    Retires (.subs i imm) i s (wr (sat (a.toInt - b.toInt))) ∧
    Retires (.and i imm) i s (wr (a &&& b)) ∧
    Retires (.or i imm) i s (wr (a ||| b)) ∧
    Retires (.xor i imm) i s (wr (a ^^^ b)) ∧
    Retires (.min i imm) i s (wr (BitVec.ofInt 32 (min a.toInt b.toInt))) ∧
    Retires (.max i imm) i s (wr (BitVec.ofInt 32 (max a.toInt b.toInt)))

/-- R407: SHL, SHR and SAR by a count below 32 shift SRC1; ABS, CLZ and BREV in the register form give the absolute value,
the leading zeros and the reversed bits of SRC1; PACKH packs two halfwords of its operands. Where the spec states no
result (a shift by 32 or more, ABS of the most negative number, the immediate form of an operation of one operand, which
halfwords PACKH takes), the instruction completes with some value (log entries 4 and 41). -/
def Obligations.ShiftAndBitInstructions : Prop :=
  ∀ (s : State) (i : SlotOp) (imm : Bool), s.dev.Alone i [4] →
    let x := s.dev.coreOf i
    let a := x.regs.dreg i.src1.toNat
    let b : Word := if imm then i.mod.signExtend 32 else x.regs.dreg i.src2.toNat
    let gives := fun (c : Instr) (P : Word → Prop) => ∃ v : Word, P v ∧ Retires c i s [(1, CWrite.d i.dst.toNat v)]
    gives (.shl i imm) (fun v => b.toNat < 32 → v = a <<< b.toNat) ∧
    gives (.shr i imm) (fun v => b.toNat < 32 → v = a >>> b.toNat) ∧
    gives (.sar i imm) (fun v => b.toNat < 32 → v = a.sshiftRight b.toNat) ∧
    gives (.abs i imm) (fun v => imm = false → a.toInt ≠ -2147483648 → v.toInt = a.toInt.natAbs) ∧
    gives (.clz i imm) (fun v => imm = false →
      (a = 0 → v = 32) ∧ (a ≠ 0 → v.toNat < 32 ∧ a.toNat / 2 ^ (31 - v.toNat) = 1)) ∧
    gives (.brev i imm) (fun v => imm = false → ∀ n < 32, v.getLsbD n = a.getLsbD (31 - n)) ∧
    gives (.packh i imm) (fun v =>
      let halves := [a.toNat % 65536, a.toNat / 65536, b.toNat % 65536, b.toNat / 65536]
      v.toNat % 65536 ∈ halves ∧ v.toNat / 65536 ∈ halves)

/-- R407, R380: CMPEQ, CMPLT and CMPLTU write P(DST [2:0]); SEL, MOVI and MOVHI write D(DST); MOVA, MOVB, MOVL and MOVN
write an A, B, L or N register that exists, and MOVD reads one; what ADDA adds is not stated, and it writes some value to
A(DST) (log entries 4 and 41). All are readable one bundle later. -/
def Obligations.CompareAndMoveInstructions : Prop :=
  ∀ (s : State) (i : SlotOp), s.dev.Alone i [4] →
    let x := s.dev.coreOf i
    let a := x.regs.dreg i.src1.toNat
    let b := x.regs.dreg i.src2.toNat
    let n := i.dst.toNat
    Retires (.cmpeq i) i s [(1, .p (n % 8) (decide (a = b)))] ∧
    Retires (.cmplt i) i s [(1, .p (n % 8) (decide (a.toInt < b.toInt)))] ∧
    Retires (.cmpltu i) i s [(1, .p (n % 8) (decide (a.toNat < b.toNat)))] ∧
    Retires (.sel i) i s [(1, .d n (if x.regs.preg (i.mod.toNat % 8) then a else b))] ∧
    Retires (.movi i) i s [(1, .d n (i.mod.signExtend 32))] ∧
    (∃ v : Word, v.toNat = (x.regs.dreg n).toNat % 65536 + 65536 * (i.mod.toNat % 65536) ∧
      Retires (.movhi i) i s [(1, .d n v)]) ∧
    (n < 16 → Retires (.mova i) i s [(1, .a n a)] ∧ ∃ v, Retires (.adda i) i s [(1, .a n v)]) ∧
    (i.src1.toNat < 16 → Retires (.movd i) i s [(1, .d n (x.regs.areg i.src1.toNat))]) ∧
    (n < 8 → Retires (.movb i) i s [(1, .b n a)] ∧ Retires (.movl i) i s [(1, .l n a)] ∧
      Retires (.movn i) i s [(1, .n n a)])

/-- R407, R380: CMAC, CMACJ, CMUL, CMULJ, MAC2 and MPY2 write accumulator DST [2:0], readable two bundles later, with the
parts of the product added to the newest accumulator or alone; a part that does not fit in 40 bits, and how MPY32 lies in
the two parts, are not stated and are some value (log entries 4 and 41). -/
def Claims.MultiplyInstructions : Prop :=
  ∀ (s : State) (i : SlotOp), s.dev.Alone i [2, 3] →
    let x := s.dev.coreOf i
    let a := x.regs.dreg i.src1.toNat
    let b := x.regs.dreg i.src2.toNat
    let re := fun (v : Word) => (v.setWidth 16).toInt
    let im := fun (v : Word) => ((v >>> 16).setWidth 16).toInt
    let n := i.dst.toNat % 8
    let acc := (x.landed.regs.acc n)
    let fits := fun (v : Int) (p : BitVec 40) => -549755813888 ≤ v → v < 549755813888 → p.toInt = v
    let gives := fun (c : Instr) (r j : Int) => ∃ p q : BitVec 40, fits r p ∧ fits j q ∧ Retires c i s [(2, .ac n p q)]
    let cr := re a * re b - im a * im b
    let ci := re a * im b + im a * re b
    let jr := re a * re b + im a * im b
    let ji := im a * re b - re a * im b
    gives (.cmac i) (acc.1.toInt + cr) (acc.2.toInt + ci) ∧
    gives (.cmacj i) (acc.1.toInt + jr) (acc.2.toInt + ji) ∧
    gives (.cmul i) cr ci ∧
    gives (.cmulj i) jr ji ∧
    gives (.mac2 i) (acc.1.toInt + re a * re b) (acc.2.toInt + im a * im b) ∧
    gives (.mpy2 i) (re a * re b) (im a * im b) ∧
    (∃ p q, Retires (.mpy32 i) i s [(2, .ac n p q)])

/-- R407, R380: ACCCLR clears accumulator DST [2:0]; ACCMV writes D(DST) with the parts of accumulator SRC1 [2:0] shifted
right by MOD [5:0], rounded to nearest and saturated to 16 bits, readable two bundles later; the direction of a tie is not
stated (log entry 41). -/
def Claims.AccumulatorMoves : Prop :=
  ∀ (s : State) (i : SlotOp), s.dev.Alone i [2, 3] →
    let acc := (s.dev.coreOf i).regs.acc (i.src1.toNat % 8)
    let sh := i.mod.toNat % 64
    let sat := fun (n : Int) => max (-32768) (min n 32767)
    let near := fun (r : Int) (p : BitVec 40) => ∃ m : Int, r = sat m ∧ 2 * (m * 2 ^ sh - p.toInt) ≤ 2 ^ sh ∧
      2 * (p.toInt - m * 2 ^ sh) ≤ 2 ^ sh
    Retires (.accclr i) i s [(2, .ac (i.dst.toNat % 8) 0 0)] ∧
    ∃ v : Word, near (v.setWidth 16).toInt acc.1 ∧ near ((v >>> 16).setWidth 16).toInt acc.2 ∧
      Retires (.accmv i) i s [(2, .d i.dst.toNat v)]

/-- The multiplies into the accumulators, ACCCLR and ACCMV: the claims above. -/
def Obligations.MultiplyAndAccumulate : Prop := Claims.MultiplyInstructions ∧ Claims.AccumulatorMoves

/-- R383, R380, R407, little-endian (log entry 41): a scalar load from the core's own memories, of an aligned address its slot may
use, writes the extended value read: readable three bundles later from X or Y memory, one from shared memory. AM 1 and 2
update the address register by R383, readable one bundle later; LD.D writes the pair DST, DST + 1. -/
def Obligations.LoadInstructions : Prop :=
  ∀ (s : State) (i : SlotOp), s.dev.Alone i [0, 1] → i.src1.toNat < 16 → bit i.mod.toNat 11 = false → i.ue = none →
    i.ce = none →
    let x := s.dev.coreOf i
    let r := i.src1.toNat
    let am := bits i.mod.toNat 14 13
    let off := toSigned 11 i.mod.toNat
    let step := fun (n : Int) => (1, CWrite.a r
      (amodeNext (s.dev.amode i.c.val i.k.val r) (x.regs.areg r) (x.regs.breg r) (x.regs.lreg r) n))
    let upd := if am = 1 then [step off] else if am = 2 then [step (x.regs.nreg (i.mod.toNat % 8)).toInt] else []
    let a := if am = 3 then (x.regs.areg r + BitVec.ofInt 32 off).toNat else (x.regs.areg r).toNat
    let p := corePlace i.c.val i.k.val a
    let n := if cspace a = .shared then 1 else 3
    let half := fun (q : Nat) => (s.dev.byte (q + 1) ++ s.dev.byte q : BitVec 16)
    let word := fun (q : Nat) => (half (q + 2) ++ half q : BitVec 32)
    let wr := fun (v : Word) => (n, CWrite.d i.dst.toNat v)
    cspace a ≠ .far → (cspace a).okFor i.slot.val = true →
    Retires (.ldB i) i s (wr ((s.dev.byte p).signExtend 32) :: upd) ∧
    Retires (.ldBu i) i s (wr ((s.dev.byte p).setWidth 32) :: upd) ∧
    (a % 2 = 0 → Retires (.ldH i) i s (wr ((half p).signExtend 32) :: upd) ∧
      Retires (.ldHu i) i s (wr ((half p).setWidth 32) :: upd)) ∧
    (a % 4 = 0 → Retires (.ldW i) i s (wr (word p) :: upd)) ∧
    (a % 8 = 0 → i.dst.toNat ≠ 31 →
      Retires (.ldD i) i s (wr (word p) :: (n, .d (i.dst.toNat + 1) (word (p + 4))) :: upd))

/-- R383, R407, little-endian (log entry 41): a scalar store to the core's own memories, of an aligned address its slot may use,
writes the low bytes of D(SRC2), or the pair D(SRC2), D(SRC2 + 1), and leaves every other byte of memory alone; AM 1 and
2 update the address register by R383. -/
def Obligations.StoreInstructions : Prop :=
  ∀ (s : State) (i : SlotOp), s.dev.Alone i [0, 1] → i.src1.toNat < 16 → bit i.mod.toNat 12 = false → i.ce = none →
    let x := s.dev.coreOf i
    let r := i.src1.toNat
    let am := bits i.mod.toNat 14 13
    let off := toSigned 11 i.mod.toNat
    let step := fun (n : Int) => (1, CWrite.a r
      (amodeNext (s.dev.amode i.c.val i.k.val r) (x.regs.areg r) (x.regs.breg r) (x.regs.lreg r) n))
    let upd := if am = 1 then [step off] else if am = 2 then [step (x.regs.nreg (i.mod.toNat % 8)).toInt] else []
    let a := if am = 3 then (x.regs.areg r + BitVec.ofInt 32 off).toNat else (x.regs.areg r).toNat
    let p := corePlace i.c.val i.k.val a
    let v := x.regs.dreg i.src2.toNat
    let w := x.regs.dreg (i.src2.toNat + 1)
    let byte := fun (u : Word) (j : Nat) => u.extractLsb' (8 * j) 8
    cspace a ≠ .far → (cspace a).okFor i.slot.val = true →
    Retires (.stB i) i s upd [(p, [byte v 0])] ∧
    (a % 2 = 0 → Retires (.stH i) i s upd [(p, [byte v 0, byte v 1])]) ∧
    (a % 4 = 0 → Retires (.stW i) i s upd [(p, [byte v 0, byte v 1, byte v 2, byte v 3])]) ∧
    (a % 8 = 0 → i.src2.toNat ≠ 31 → Retires (.stD i) i s upd
      [(p, [byte v 0, byte v 1, byte v 2, byte v 3, byte w 0, byte w 1, byte w 2, byte w 3])])

/-- R382, R407: BR, CALL, CALLR and RET go to their target after three delay slots, BRP when P(MOD [2:0]) is 1 and else to
the bundle after them; CALL and CALLR write the address after the delay slots to A15. Nothing else changes. -/
def Claims.BranchInstructions : Prop :=
  ∀ (s : State) (i : SlotOp), s.dev.Alone i [5] →
    let x := s.dev.coreOf i
    let after := x.pc + 128
    let goes := fun (c : Instr) (ws : List (Nat × CWrite)) (target : Nat) (taken : Bool) =>
      Does c s (fun t => s.dev.Committed t i ws [] [] ∧ (t.coreOf i).pc = x.pc + 32 ∧
        (t.coreOf i).branch = some (3, (if taken then target else after), taken) ∧ (t.coreOf i).loops = [])
    let link := [(1, CWrite.a 15 (BitVec.ofNat 32 after))]
    goes (.br i) [] (i.mod.toNat % 2 ^ 17) true ∧
    goes (.brp i) [] (i.mod.toNat % 2 ^ 17 / 8 * 8) (x.regs.preg (i.mod.toNat % 8)) ∧
    goes (.call i) link (i.mod.toNat % 2 ^ 17) true ∧
    (i.src1.toNat < 16 → goes (.callr i) link (x.regs.areg i.src1.toNat).toNat true) ∧
    goes (.ret i) [] (x.regs.areg 15).toNat true

/-- R382: with a branch under way and no repeat, a bundle that itself neither branches nor repeats runs a delay slot, and
the last one goes to the branch's target or, when it is not taken, to the next bundle. -/
def Claims.DelaySlots : Prop :=
  ∀ (x : Core) (ws : List (Nat × CWrite)) (es : List CEff) (n t : Nat) (taken : Bool), x.loops = [] →
    x.branch = some (n, t, taken) →
    let y := x.retire ws es
    (1 < n → y.pc = x.pc + 32 ∧ y.branch = some (n - 1, t, taken)) ∧
    (n ≤ 1 → y.branch = none ∧ y.pc = if taken then t else x.pc + 32)

/-- Branches take effect after three delay slots, which always execute: the claims above. -/
def Obligations.BranchesAndDelaySlots : Prop := Claims.BranchInstructions ∧ Claims.DelaySlots

/-- R384, R407: REP and REPD open a repeat level of END bundles (END 1 to 1,023) from the next bundle on, for the count in
the instruction or the low 16 bits of D(SRC1); a count of 0 goes on after the body. Nothing else changes. -/
def Claims.RepeatInstructions : Prop :=
  ∀ (s : State) (i : SlotOp), s.dev.Alone i [5] → i.src2.toNat < 8 → i.mod.toNat % 128 + 128 * i.src2.toNat ≠ 0 →
    let x := s.dev.coreOf i
    let stop := x.pc + 32 * (i.mod.toNat % 128 + 128 * i.src2.toNat)
    let opens := fun (c : Instr) (count : Nat) =>
      Does c s (fun t => s.dev.Committed t i [] [] [] ∧ (t.coreOf i).branch = none ∧
        (count ≠ 0 → (t.coreOf i).pc = x.pc + 32 ∧ (t.coreOf i).loops = [⟨x.pc + 32, stop, count⟩]) ∧
        (count = 0 → (t.coreOf i).pc = stop + 32 ∧ (t.coreOf i).loops = []))
    opens (.rep i) (bits i.mod.toNat 22 7) ∧
    opens (.repd i) ((x.regs.dreg i.src1.toNat).toNat % 65536)

/-- R384: after the last bundle of a body, execution goes back to its first while more than one iteration is left, and
leaves the level with the last. -/
def Claims.RepeatEnds : Prop :=
  ∀ (x : Core) (ws : List (Nat × CWrite)) (l : Loop), x.branch = none → x.loops = [l] → l.stop = x.pc →
    let y := x.retire ws []
    (1 < l.count → y.pc = l.start ∧ y.loops = [{ l with count := l.count - 1 }]) ∧
    (l.count ≤ 1 → y.pc = x.pc + 32 ∧ y.loops = [])

/-- REP and REPD open a repeat level, and its last bundle goes back or leaves it: the claims above. -/
def Obligations.RepeatLevels : Prop := Claims.RepeatInstructions ∧ Claims.RepeatEnds

/-- R386, R387: TRAP with code 9 or 10 (SYSCALL, BREAK) not routed to supervisor mode enters machine mode at CX_MVBASE + 64
× code: CX_EPC holds the bundle's address, CX_CAUSE the code, EPRIV and EIE what PRIV and IE were, IE is 0; the
repeat levels are saved, and earlier writes are made. -/
def Claims.TrapInstructions : Prop :=
  ∀ (s : State) (i : SlotOp), s.dev.Alone i [5] →
    let c := i.c.val
    let k := i.k.val
    let d := s.dev
    let enters := fun (op : Instr) (code : Nat) => d.routed c k code = false →
      Does op s (fun t => t.get (CX_STATUS_PRIV c k) = 2 ∧ t.get (CX_STATUS_EPRIV c k) = d.get (CX_STATUS_PRIV c k) ∧
        t.get (CX_STATUS_EIE c k) = d.get (CX_STATUS_IE c k) ∧ t.get (CX_STATUS_IE c k) = 0 ∧
        t.get (CX_CAUSE_CODE c k) = code ∧ t.get (CX_CAUSE_INT c k) = 0 ∧
        t.get (CX_EPC_PC c k) = (d.coreOf i).pc ∧ t.get (CX_DSTATE_N c k) = 0 ∧
        (t.coreOf i).pc = d.get (CX_MVBASE_BASE c k) / 2048 * 2048 + 64 * code ∧ (t.coreOf i).loops = [] ∧
        (t.coreOf i).mLoops = [] ∧ (t.coreOf i).regs = (d.coreOf i).landed.regs ∧ t.mem = d.mem)
    enters (.syscall i) 9 ∧ enters (.breakTrap i) 10

/-- R386: the same codes routed to supervisor mode enter it at CX_SVBASE + 64 × code: CX_SV_PC holds the bundle's address,
CX_SV_CAUSE the code, SPRIV the mode left; CX_EPC stands. -/
def Claims.RoutedTraps : Prop :=
  ∀ (s : State) (i : SlotOp), s.dev.Alone i [5] →
    let c := i.c.val
    let k := i.k.val
    let d := s.dev
    let enters := fun (op : Instr) (code : Nat) => d.routed c k code = true →
      Does op s (fun t => t.get (CX_STATUS_PRIV c k) = 1 ∧ t.get (CX_STATUS_SPRIV c k) = d.get (CX_STATUS_PRIV c k) ∧
        t.get (CX_SV_CAUSE_CODE c k) = code ∧ t.get (CX_SV_PC_PC c k) = (d.coreOf i).pc ∧
        t.word (CX_EPC c k) = d.word (CX_EPC c k) ∧
        (t.coreOf i).pc = d.get (CX_SVBASE_BASE c k) / 2048 * 2048 + 64 * code ∧ (t.coreOf i).loops = [] ∧
        (t.coreOf i).regs = (d.coreOf i).landed.regs ∧ t.mem = d.mem)
    enters (.syscall i) 9 ∧ enters (.breakTrap i) 10

/-- SYSCALL and BREAK take their trap in machine mode or, routed, in supervisor mode: the claims above. -/
def Obligations.TrapEntries : Prop := Claims.TrapInstructions ∧ Claims.RoutedTraps

/-- R385, R387: ERET in machine mode goes to CX_EPC in the mode EPRIV holds (3, which is no mode, apart), restores IE from
EIE, clears MCHK, and takes up the repeat levels and delay slots of the last trap; in supervisor mode it goes to
CX_SV_PC in the mode of SPRIV. -/
def Claims.EretInstruction : Prop :=
  ∀ (s : State) (i : SlotOp), s.dev.Alone i [5] →
    let c := i.c.val
    let k := i.k.val
    let d := s.dev
    let n := d.get (CX_DSTATE_N c k)
    let target := d.get (CX_DSTATE_TGT c k)
    let resumes := fun (t : Device) (pc : Nat) => (t.coreOf i).pc = pc ∧
      (t.coreOf i).branch = (if n = 0 then none else some (n, target, target != pc + 32 * n)) ∧
      t.get (CX_STATUS_MCHK c k) = 0 ∧ s.dev.Committed t i [] [] [CX_STATUS c k]
    (d.priv c k = 2 → d.get (CX_STATUS_EPRIV c k) < 3 →
      Does (.eret i) s (fun t => resumes t (d.get (CX_EPC_PC c k)) ∧
        t.get (CX_STATUS_PRIV c k) = d.get (CX_STATUS_EPRIV c k) ∧
        t.get (CX_STATUS_IE c k) = d.get (CX_STATUS_EIE c k) ∧ (t.coreOf i).loops = (d.coreOf i).mLoops)) ∧
    (d.priv c k = 1 →
      Does (.eret i) s (fun t => resumes t (d.get (CX_SV_PC_PC c k)) ∧
        t.get (CX_STATUS_PRIV c k) = d.get (CX_STATUS_SPRIV c k) ∧
        t.get (CX_STATUS_IE c k) = d.get (CX_STATUS_IE c k) ∧ (t.coreOf i).loops = (d.coreOf i).sLoops))

/-- R373, R375, R385, R392, R407: FENCE with no store outstanding, ISYNC and NOP.H only go on to the next bundle; CLRPROV
above user mode clears CX_STATUS.PROV; WAIT in machine mode, with no frame to restore, leaves the core waiting; CSRR
writes D(DST) with a plain CSR's word, whose clear-on-read fields it clears; CSRW writes D(SRC1) to a CSR its mode may
reach. -/
def Claims.SystemInstructions : Prop :=
  ∀ (s : State) (i : SlotOp), s.dev.Alone i [5] →
    let c := i.c.val
    let k := i.k.val
    let d := s.dev
    let x := d.coreOf i
    let num := i.mod.toNat % 4096
    let off := 0x2000000 + 0x80000 * c + 0x1000 * k + num
    (x.stores = [] → Retires (.fence i) i s []) ∧
    Retires (.isync i) i s [] ∧
    Retires (.nopH i) i s [] ∧
    (1 ≤ d.priv c k → Does (.clrprov i) s (fun t => d.Committed t i [] [] [CX_STATUS c k] ∧ d.NextBundle t i ∧
      t.get (CX_STATUS_PROV c k) = 0)) ∧
    (2 ≤ d.priv c k → x.restore = false → Does (.wait i) s (fun t => d.Committed t i [] [] [] ∧
      (t.coreOf i).waiting = true ∧ (t.coreOf i).pc = x.pc + 32)) ∧
    (∀ row, d.csrBar c k num false = false → regRow off = some row → num % 4 = 0 → (num < 0x200 ∨ 0x248 ≤ num) →
      d.csrView c k num = none → ¬ commitReg i [] off →
      Does (.csrr i) s (fun t => d.NextBundle t i ∧
        d.Committed t i [(1, .d i.dst.toNat (BitVec.ofNat 32 (row.shown (d.word off).toNat)))] [] [off] ∧
        t.word off = BitVec.ofNat 32 (row.cleared (d.word off).toNat))) ∧
    (d.csrBar c k num true = false → num % 4 = 0 → ∃ e : Device, d.Committed e i [] [] [] ∧ d.NextBundle e i ∧
      Does (.csrw i) s (fun t => t = (e.csrPut c k num (x.regs.dreg i.src1.toNat).toNat true).commitEnd c k))

/-- ERET, FENCE, ISYNC, NOP.H, CLRPROV, WAIT, CSRR and CSRW: the claims above. -/
def Obligations.SystemAndReturn : Prop := Claims.EretInstruction ∧ Claims.SystemInstructions

/-- R396 to R398, R403: a coprocessor instruction whose enable bit is set, with an aligned parameter block in the core's
own memories and a free queue slot, queues the operation at commit; with no operation of the cluster running or queued,
the coprocessor takes it up at once. W holds the core back until it completes. -/
def Obligations.CoprocessorInstructions : Prop :=
  ∀ (s : State) (i : SlotOp) (ap : Fin 16) (w irq : Bool), s.dev.Alone i [5] →
    let c := i.c.val
    let k := i.k.val
    let d := s.dev
    let a := ((d.coreOf i).regs.areg ap.val).toNat
    d.cpOn c k 0 = true → a % 32 = 0 → cspace a ≠ .far → cspace a ≠ .none →
    (∀ j < 8, (d.core c j).cp = none ∧ (d.core c j).cpRun = none) →
    let runs := fun (op : Instr) (func : Nat) => Does op s (fun t =>
      (t.coreOf i).cpRun = some ⟨func, a, w, irq, d.on (CX_STATUS_PROV c k)⟩ ∧ (t.coreOf i).cp = none ∧
      (t.coreOf i).cpWait = w ∧ t.get (CLU_CP_STATUS_BUSY c) = 1 ∧ t.get (CLU_CP_STATUS_RUN c) = k ∧
      d.NextBundle t i ∧ (t.coreOf i).regs = (d.coreOf i).aged.regs ∧ t.mem = d.mem)
    runs (.crcGen i ap w irq) 0x00 ∧ runs (.crcChk i ap w irq) 0x01 ∧ runs (.gold i ap w irq) 0x08 ∧
    runs (.scramble i ap w irq) 0x09 ∧ runs (.intlv i ap w irq) 0x10 ∧ runs (.deintlv i ap w irq) 0x11 ∧
    runs (.sort i ap w irq) 0x18 ∧ runs (.topk i ap w irq) 0x19 ∧
    Retires (.cpwait i) i s []

/-! ### Signal cores: the vector extension (R410 to R433) -/

/-- R411, R413: writing elements es of width w, with values f, into a vector register leaves element e holding the low w
bits of f e where es lists it, and as it was elsewhere. -/
def Obligations.VectorElements : Prop :=
  ∀ (r : CoreRegs) (n w : Nat) (es : List Nat) (f : Nat → Nat), 0 < w → (∀ e ∈ es, w * (e + 1) ≤ 1024) →
    ∀ e, w * (e + 1) ≤ 1024 →
      elAt w ((r.write (.v n (vecOf w es f).1 (vecOf w es f).2)).vreg n).toNat e =
        if e ∈ es then f e % 2 ^ w else elAt w (r.vreg n).toNat e

/-- R417, R426, R432: VLD, VLDS and VGATH read each active element at its address in the core's own memories and write it to
DST, readable four bundles later, or one when every element lies in shared memory; AM updates the base register. -/
def Claims.VectorLoads : Prop :=
  ∀ (s : State) (i : SlotOp), s.dev.VReady i [0, 1] 0x7E00 tAll → i.src1.toNat < 16 → i.ue = none → i.ce = none →
    (s.dev.coreOf i).resumed = false →
    let d := s.dev
    let x := d.coreOf i
    let v := d.vctx x i
    let w := v.w / 8
    let am := bits i.mod.toNat 5 4
    let at_ := fun (kind : Nat) => v.act.map (fun e => (e, vaddr i x v kind (x.regs.vreg i.src2.toNat).toNat e, ([] : List Byte)))
    let upd := if am = 1 then d.effWrites i.c.val i.k.val (d.aUpdate i.c.val i.k.val x.regs i.src1.toNat (v.gl * w : Nat))
      else if am = 2 then
        d.effWrites i.c.val i.k.val (d.aUpdate i.c.val i.k.val x.regs i.src1.toNat (x.regs.nreg (bits i.mod.toNat 8 6)).toInt)
      else []
    let loads := fun (c : Instr) (kind : Nat) => vmemFault i.slot.val w (at_ kind) none = none →
      VRetires c i s ((if (at_ kind).isEmpty then [] else
        [(if (at_ kind).any (fun p => cspace p.2.1 != .shared) then 4 else 1,
          d.vloadWrite i.c.val i.k.val w i.dst.toNat (at_ kind))]) ++ upd)
    am ≠ 3 → loads (.vgath i) 2 ∧ loads (.vld i) 0 ∧ (am ≠ 2 → loads (.vlds i) 1)

/-- R417, R426, R432: VST, VSTS and VSCAT store each active element of SRC2, little-endian, at its address in the core's own
memories, in ascending order, and leave every other byte of memory alone. -/
def Claims.VectorStores : Prop :=
  ∀ (s : State) (i : SlotOp), s.dev.VReady i [0, 1] 0x7E00 tAll → i.src1.toNat < 16 → i.ue = none → i.ce = none →
    (s.dev.coreOf i).resumed = false →
    let d := s.dev
    let x := d.coreOf i
    let v := d.vctx x i
    let w := v.w / 8
    let am := bits i.mod.toNat 5 4
    let at_ := fun (kind : Nat) => v.act.map (fun e => (e, vaddr i x v kind (x.regs.vreg i.dst.toNat).toNat e,
      leBytes w (elAt v.w (x.regs.vreg i.src2.toNat).toNat e)))
    let upd := if am = 1 then d.effWrites i.c.val i.k.val (d.aUpdate i.c.val i.k.val x.regs i.src1.toNat (v.gl * w : Nat))
      else if am = 2 then
        d.effWrites i.c.val i.k.val (d.aUpdate i.c.val i.k.val x.regs i.src1.toNat (x.regs.nreg (bits i.mod.toNat 8 6)).toInt)
      else []
    let stores := fun (c : Instr) (kind : Nat) => vmemFault i.slot.val w (at_ kind) none = none →
      VRetires c i s upd ((at_ kind).map (fun p => (corePlace i.c.val i.k.val p.2.1, p.2.2)))
    am ≠ 3 → stores (.vst i) 0 ∧ stores (.vscat i) 2 ∧ (am ≠ 2 → stores (.vsts i) 1)

/-- The vector loads and stores of the core's own memories: the claims above. -/
def Obligations.VectorMemory : Prop := Claims.VectorLoads ∧ Claims.VectorStores

/-- R418, R423, R424: the multiplies of slot SM0 write, for each active element, the product of SRC1 and SRC2, its
conjugate, or D(SRC2), shifted, narrowed, and in the accumulating forms added to the element of DST; DST is readable
three bundles later, six for 64-bit elements. -/
def Claims.VectorMultiplies : Prop :=
  ∀ (s : State) (i : SlotOp) (a b : Nat × Nat),
    let d := s.dev
    let x := d.coreOf i
    let v := d.vctx x i
    x.vsrc (opCs1 i) i.src1.toNat = some a →
    let n := if v.t = 3 ∨ v.t = 6 then 6 else 3
    let A := fun e => elParts v.t v.w (elAt v.w a.1 e)
    let B := fun e => elParts v.t v.w (elAt v.w b.1 e)
    let S := x.regs.dreg i.src2.toNat
    let scalar := if elemCplx v.t then (reOf S, imOf S) else (toSigned v.w S.toNat, 0)
    let old := fun e => some (elAt v.w (x.vacc i.dst.toNat).1 e)
    let none_ := fun (_ : Nat) => (none : Option Nat)
    let gives := fun (c : Instr) (acc : Nat → Option Nat) (conj : Bool) (F : Nat → Int × Int) =>
      let r := vecOf v.w v.act (fun e => mulEl d i v.t v.w e (acc e) (cplxMul v.t conj (A e) (F e)))
      VRetires c i s [(n, .v i.dst.toNat r.1 r.2)]
    (x.vsrc (opCs2 i) i.src2.toNat = some b →
      (d.VReady i [2] 0x4000 tAll → gives (.vmul i) none_ false B ∧ gives (.vmac i) old false B) ∧
      (d.VReady i [2] 0x4000 tCplx → gives (.vmulj i) none_ true B ∧ gives (.vmacj i) old true B)) ∧
    (d.VReady i [2] 0x4000 tWide → opCs2 i = 0 →
      gives (.vmuls i) none_ false (fun _ => scalar) ∧ gives (.vmacs i) old false (fun _ => scalar))

/-- R418: the widening multiplies write products of double width to the pair DST, DST + 1, DST even, added to the pair's
elements in the accumulating forms; readable three bundles later. -/
def Claims.VectorWideningMultiplies : Prop :=
  ∀ (s : State) (i : SlotOp) (a b : Nat × Nat),
    let d := s.dev
    let x := d.coreOf i
    let v := d.vctx x i
    x.vsrc (opCs1 i) i.src1.toNat = some a → x.vsrc (opCs2 i) i.src2.toNat = some b → i.dst.toNat % 2 = 0 →
    let old := fun e => some (elAt (2 * v.w) (pairNat (x.vacc i.dst.toNat)) e)
    let gives := fun (c : Instr) (acc : Nat → Option Nat) (conj : Bool) =>
      let r := pairOf (2 * v.w) v.act (fun e => mulEl d i v.t (2 * v.w) e (acc e)
        (cplxMul v.t conj (elParts v.t v.w (elAt v.w a.1 e)) (elParts v.t v.w (elAt v.w b.1 e))))
      VRetires c i s [(3, .v i.dst.toNat r.1.1 r.1.2), (3, .v (i.dst.toNat + 1) r.2.1 r.2.2)]
    (d.VReady i [2] 0x4000 tWide → gives (.vmulw i) (fun _ => none) false ∧ gives (.vmacw i) old false) ∧
    (d.VReady i [2] 0x4000 tWideCplx → gives (.vmulwj i) (fun _ => none) true ∧ gives (.vmacwj i) old true)

/-- The vector multiplies of slot SM0, plain, accumulating and widening: the claims above. -/
def Obligations.VectorMultiplications : Prop := Claims.VectorMultiplies ∧ Claims.VectorWideningMultiplies

/-- R419: the element operations of slot SM1 write, for each active element of DST, the sum, difference, lesser, greater,
absolute value, negation, conjugate, power, bitwise combination or shift of the elements of SRC1 and SRC2, readable two
bundles later. -/
def Obligations.VectorAdds : Prop :=
  ∀ (s : State) (i : SlotOp) (a b : Nat × Nat),
    let d := s.dev
    let x := d.coreOf i
    let v := d.vctx x i
    x.vsrc (opCs1 i) i.src1.toNat = some a →
    let w := v.w
    let sat := opSat i
    let A := fun e => elAt w a.1 e
    let B := fun e => elAt w b.1 e
    let P := fun e => elParts v.t w (A e)
    let Q := fun e => elParts v.t w (B e)
    let gives := fun (c : Instr) (types : Nat → Bool) (f : Nat → Nat) => d.VReady i [3] 0x4000 types →
      VRetires c i s [(2, .v i.dst.toNat (vecOf w v.act f).1 (vecOf w v.act f).2)]
    (x.vsrc (opCs2 i) i.src2.toNat = some b →
      gives (.vadd i) tAll (fun e => elPack v.t w sat ((P e).1 + (Q e).1, (P e).2 + (Q e).2)) ∧
      gives (.vsub i) tAll (fun e => elPack v.t w sat ((P e).1 - (Q e).1, (P e).2 - (Q e).2)) ∧
      gives (.vmin i) tReal (fun e => if toSigned w (A e) ≤ toSigned w (B e) then A e else B e) ∧
      gives (.vmax i) tReal (fun e => if toSigned w (A e) ≤ toSigned w (B e) then B e else A e) ∧
      gives (.vand i) tAll (fun e => A e &&& B e) ∧
      gives (.vor i) tAll (fun e => A e ||| B e) ∧
      gives (.vxor i) tAll (fun e => A e ^^^ B e)) ∧
    gives (.vabs i) tReal (fun e => narrow sat w ((toSigned w (A e)).natAbs : Int)) ∧
    gives (.vneg i) tAll (fun e => elPack v.t w sat (-(P e).1, -(P e).2)) ∧
    gives (.vconj i) tCplx (fun e => elPack v.t w sat ((P e).1, -(P e).2)) ∧
    gives (.vpow i) tCplx (fun e => narrow sat w (vshift d i e ((P e).1 * (P e).1 + (P e).2 * (P e).2))) ∧
    gives (.vshl i) tReal (fun e => A e * 2 ^ opSh i % 2 ^ w) ∧
    gives (.vsar i) tReal (fun e => ofSigned w (vshift d i e (toSigned w (A e)))) ∧
    gives (.vshr i) tReal (fun e => ofSigned w (vshift d i e (A e : Int)))

/-- R419: the compares write the bits of the active elements of VP(DST [2:0]), readable three bundles later; VFOLDADD writes
D(DST) with the saturated sum of the active elements, VFOLDMAX the pair D(DST), D(DST + 1), DST even, with the largest
and its lowest index, both readable three bundles later. -/
def Obligations.VectorComparesAndFolds : Prop :=
  ∀ (s : State) (i : SlotOp) (a b : Nat × Nat),
    let d := s.dev
    let x := d.coreOf i
    let v := d.vctx x i
    x.vsrc (opCs1 i) i.src1.toNat = some a →
    let w := v.w
    let A := fun e => elAt w a.1 e
    let B := fun e => elAt w b.1 e
    let sum := fun (f : Nat → Nat) => v.act.foldl (fun n e => n + f e) 0
    let compares := fun (c : Instr) (f : Nat → Bool) => d.VReady i [3] 0x4000 tReal →
      VRetires c i s [(3, .vp (i.dst.toNat % 8) (BitVec.ofNat 128 (sum (fun e => 2 ^ e * b2n (f e))))
        (BitVec.ofNat 128 (sum (fun e => 2 ^ e))))]
    let total := fun (f : Int × Int → Int) => v.act.foldl (fun (n : Int) e => n + f (elParts v.t w (A e))) 0
    (x.vsrc (opCs2 i) i.src2.toNat = some b →
      compares (.vcmpeq i) (fun e => A e == B e) ∧
      compares (.vcmplt i) (fun e => decide (toSigned w (A e) < toSigned w (B e))) ∧
      compares (.vcmpltu i) (fun e => decide (A e < B e))) ∧
    (d.VReady i [3] 0x4000 tWide → VRetires (.vfoldadd i) i s [(3, .d i.dst.toNat (if elemCplx v.t then
        BitVec.ofNat 32 (ofSigned 16 (satSigned (w / 2) (total (·.1))) + 2 ^ 16 * ofSigned 16 (satSigned (w / 2) (total (·.2))))
      else BitVec.ofInt 32 (satSigned w (total (·.1)))))]) ∧
    (d.VReady i [3] 0x4000 (fun t => decide (t ≤ 2)) → i.dst.toNat % 2 = 0 →
      ∃ m : Int, ∃ n : Nat,
        VRetires (.vfoldmax i) i s [(3, .d i.dst.toNat (BitVec.ofInt 32 m)), (3, .d (i.dst.toNat + 1) (BitVec.ofNat 32 n))] ∧
        (v.act ≠ [] → n ∈ v.act ∧ m = toSigned w (A n) ∧
          ∀ e ∈ v.act, toSigned w (A e) ≤ m ∧ (toSigned w (A e) = m → n ≤ e)))

/-- R413, R420: a claim grants the lesser of the elements asked for and VCAP of the type in MOD [11:9]; it writes the grant
and the rest to D(DST), D(DST + 1), DST even, and sets the grant and the element type in force. -/
def Obligations.VectorClaims : Prop :=
  ∀ (s : State) (i : SlotOp), s.dev.VReady i [4] 0x4000 tAll → i.dst.toNat % 2 = 0 → bits i.mod.toNat 13 12 = 0 →
    bits i.mod.toNat 11 9 ≠ 7 →
    let ty := bits i.mod.toNat 11 9
    let claims := fun (c : Instr) (r : Nat) =>
      let g := min r (vcap ty)
      Does c s (fun t => s.dev.Committed t i
          [(1, .d i.dst.toNat (BitVec.ofNat 32 g)), (1, .d (i.dst.toNat + 1) (BitVec.ofNat 32 (r - g)))] []
          [CX_VGRANT i.c.val i.k.val, CX_VSHAPE i.c.val i.k.val, CX_STATUS i.c.val i.k.val] ∧
        s.dev.NextBundle t i ∧ t.get (CX_VGRANT_GL i.c.val i.k.val) = g ∧ t.get (CX_VSHAPE_ELEM i.c.val i.k.val) = ty)
    (opCs1 i = 0 → claims (.vclaim i) (((s.dev.coreOf i).regs.dreg i.src1.toNat).toNat)) ∧
    claims (.vclaimi i) (opImm8 i)

/-- R413, R420: the permutes of slot SA that write one register, two bundles later: a move, a broadcast of D registers, an
insert, shifts by elements, a permute by the indexes in SRC2 (a complex type's index is its real half), a narrowing of the
pair SRC1, SRC1 + 1, and a ramp (of a complex type, its values are not stated: log entries 4 and 42). -/
def Claims.VectorPermutes : Prop :=
  ∀ (s : State) (i : SlotOp) (a b : Nat × Nat),
    let d := s.dev
    let x := d.coreOf i
    let v := d.vctx x i
    let w := v.w
    let imm := opImm8 i
    let A := fun e => elAt w a.1 e
    let index := fun e => if elemCplx v.t then elAt w b.1 e % 2 ^ (w / 2) else elAt w b.1 e
    let D := (x.regs.dreg i.src1.toNat).toNat + 2 ^ 32 * (x.regs.dreg (i.src1.toNat + 1)).toNat
    let wide := fun e => elParts v.t (2 * w) (elAt (2 * w) (pairNat a) e)
    let writes := fun (c : Instr) (es : List Nat) (f : Nat → Nat) =>
      VRetires c i s [(2, .v i.dst.toNat (vecOf w es f).1 (vecOf w es f).2)]
    (d.VReady i [4] 0x4000 tAll →
      (x.vsrc (opCs1 i) i.src1.toNat = some a →
        writes (.vmv i) v.act A ∧
        writes (.vshdn i) v.act (fun e => if e + imm < v.cap then A (e + imm) else 0) ∧
        writes (.vshup i) v.act (fun e => if imm ≤ e then A (e - imm) else 0) ∧
        (x.vsrc (opCs2 i) i.src2.toNat = some b →
          writes (.vperm i) v.act (fun e => if index e < v.cap then A (index e) else 0))) ∧
      (opCs1 i = 0 → (w = 64 → i.src1.toNat % 2 = 0) → writes (.vbcast i) v.act (fun _ => D)) ∧
      (opCs1 i = 0 → ∃ top, writes (.vins i) (v.act.filter (fun e => e == imm))
        (fun _ => (x.regs.dreg i.src1.toNat).toNat + 2 ^ 32 * top)) ∧
      (∃ f : Nat → Nat, writes (.vramp i) v.act f ∧ (elemCplx v.t = false → ∀ e, f e = e * imm))) ∧
    (d.VReady i [4] 0x4000 tWide → i.src1.toNat % 2 = 0 → x.vsrc (opCs1 i) i.src1.toNat = some a →
      writes (.vnarrow i) v.act (fun e => elPack v.t w (opSat i)
        (vshift d i (2 * e) (wide e).1, vshift d i (2 * e + 1) (wide e).2)))

/-- R413, R420: VZIP, VUNZIP and VWIDEN write the pair DST, DST + 1, DST even, two bundles later; VEXT writes an element to
D(DST), one bundle later, and of a 64-bit type the pair; VPGRANT and VPLOG write all of VP(DST [2:0]), two bundles later. -/
def Claims.VectorPairsAndPredicates : Prop :=
  ∀ (s : State) (i : SlotOp) (a b : Nat × Nat),
    let d := s.dev
    let x := d.coreOf i
    let v := d.vctx x i
    let w := v.w
    let dst := i.dst.toNat
    let pairs := fun (c : Instr) (p q : BitVec 1024 × BitVec 1024) =>
      VRetires c i s [(2, .v dst p.1 p.2), (2, .v (dst + 1) q.1 q.2)]
    let both := pairOf w (v.act.flatMap (fun e => [2 * e, 2 * e + 1]))
      (fun e => if e % 2 = 0 then elAt w a.1 (e / 2) else elAt w b.1 (e / 2))
    let widened := pairOf (2 * w) v.act (fun e => elPack v.t (2 * w) false (elParts v.t w (elAt w a.1 e)))
    (x.vsrc (opCs1 i) i.src1.toNat = some a →
      (d.VReady i [4] 0x4000 tAll → dst % 2 = 0 →
        (x.vsrc (opCs2 i) i.src2.toNat = some b → pairs (.vzip i) both.1 both.2) ∧
        (i.src1.toNat % 2 = 0 → pairs (.vunzip i) (vecOf w v.act (fun e => elAt w (pairNat a) (2 * e)))
          (vecOf w v.act (fun e => elAt w (pairNat a) (2 * e + 1))))) ∧
      (d.VReady i [4] 0x4000 tWide → dst % 2 = 0 → pairs (.vwiden i) widened.1 widened.2) ∧
      (d.VReady i [4] 0x4000 tAll → opImm8 i < v.cap →
        (w ≠ 64 → ∃ u : Word, u.toNat % 2 ^ w = elAt w a.1 (opImm8 i) % 2 ^ 32 ∧ VRetires (.vext i) i s [(1, .d dst u)]) ∧
        (w = 64 → dst % 2 = 0 → ∃ u y : Word, u.toNat + 2 ^ 32 * y.toNat = elAt w a.1 (opImm8 i) ∧
          VRetires (.vext i) i s [(1, .d dst u), (1, .d (dst + 1) y)]))) ∧
    (d.VReady i [4] 0x4000 tAll →
      VRetires (.vpgrant i) i s [(2, .vp (dst % 8) (BitVec.ofNat 128 (2 ^ v.gl - 1)) (BitVec.allOnes 128))]) ∧
    (∀ p q : BitVec 128, d.VReady i [4] 0x4000 tAll → x.vpsrc (opCs1 i) i.src1.toNat = some p →
      x.vpsrc (opCs2 i) i.src2.toNat = some q →
      VRetires (.vplog i) i s [(2, .vp (dst % 8)
        (if opImm8 i % 4 = 0 then p &&& q else if opImm8 i % 4 = 1 then p ||| q
          else if opImm8 i % 4 = 2 then p ^^^ q else p &&& ~~~q) (BitVec.allOnes 128))])

/-- The vector permutes, pair operations and predicate writes of slot SA: the claims above. -/
def Obligations.VectorPermuteSlot : Prop := Claims.VectorPermutes ∧ Claims.VectorPairsAndPredicates

/-! ### Time base (R29 to R56) -/

/-- R41, R42, R46: a valid offset measurement of PTP, the source, in a message of the profile's transport and the domain in
force. The last offset is held to ±32,767, and the adjustment in force joins the last 16. In FREERUN and HOLDOVER it leads to
ACQUIRING, with EV16; there, while no panel runs and for an offset above 1,000 ns, Hayward's own step by the measured offset
becomes pending. The 16th good offset in a row leads to LOCKED. The servo corrects the frequency about its base, held to the
slew limit while any panel runs (SLEW_LIMITED, EV24) and in all to 100 ppm; with SERVO_HOST it does nothing. Any other
message changes nothing. -/
def Obligations.OffsetMeasurements : Prop :=
  ∀ (s : State) (offset want : Int) (dom : BitVec 8) (udp valid : Bool),
    let d := s.dev
    let takes := dom.toNat = d.get TTB_CTRL_PTP_DOMAIN ∧
      (d.get TTB_CTRL_PROFILE = 0 ∧ udp = true ∧ dom.toNat ≤ 127 ∨
        d.get TTB_CTRL_PROFILE = 1 ∧ udp = false ∧ 24 ≤ dom.toNat ∧ dom.toNat ≤ 43)
    let counts := takes ∧ d.source = 0
    let ofs := (TTB_STATUS_OFFSET_NS, ofSigned 16 (max (-32767) (min offset 32767)))
    let host := d.get TTB_CTRL_SERVO_HOST = 1
    let st := d.get TTB_STATUS_STATE
    let free := st = 0 ∨ st = 3
    let own := d.get PKL_PANEL_RUN_RUN = 0 ∧ 1000 < offset.natAbs ∧ d.time.step = none
    let lim : Int := (min (d.get TTB_SLEW_LIMIT_LIMIT) 1600000 : Nat)
    let corr := if d.get PKL_PANEL_RUN_RUN = 0 then want else if want < -lim then -lim else if lim < want then lim else want
    let adj := max (-1600000) (min (d.time.baseFreq + corr) 1600000)
    let noted := fun (a : Int) => { d.time with freqs := (a :: d.time.freqs).take 16 }
    let same := noted (toSigned 32 (d.get TTB_FREQ_ADJ_ADJ))
    let slewed := [(TTB_FREQ_ADJ_ADJ, ofSigned 32 adj), (TTB_STATUS_SLEW_LIMITED, if corr = want then 0 else 1)]
    let ev := if corr = want then [] else [24]
    let c := Instr.ptpEventMessageRx dom udp true offset want
    (counts → free → ¬ own →
      (host → Sets c s { d with time := { same with good := 0, stayStarted := false } } [ofs, (TTB_STATUS_STATE, 1)] [16]) ∧
      (¬ host → Sets c s { d with time := { noted adj with good := 0, stayStarted := false } }
        (ofs :: (TTB_STATUS_STATE, 1) :: slewed) (16 :: ev))) ∧
    (counts → free → own → Sets c s
      { d with time := { same with good := 0, stayStarted := false, step := some (-offset), own := true } }
      [ofs, (TTB_STATUS_STATE, 1), (TTB_STATUS_STEP_PENDING, 1)] [16]) ∧
    (counts → st = 1 → host → offset.natAbs < 100 → 15 ≤ d.time.good →
      Sets c s { d with time := { same with good := 0 } } [ofs, (TTB_STATUS_STATE, 2)] [16]) ∧
    (counts → st = 2 → host → Sets c s { d with time := same } [ofs]) ∧
    (counts → st = 2 → ¬ host → Sets c s { d with time := noted adj } (ofs :: slewed) ev) ∧
    (¬ counts ∨ valid = false → exec (.ptpEventMessageRx dom udp valid offset want) s = .next s)

/-- R41, R46, R54: an Announce message of the domain in force, over UDP with PROFILE 0, writes the UTC offset and the leap
flags, EV25 on a change, and stores a new metadata TLV, EV26. When Announce or Sync messages are missing from PTP, the source,
the time base goes from ACQUIRING or LOCKED to HOLDOVER, EV16 and EV17, the former with EV22 too (that it is raised only with
PTP the source is the model's choice, log entry 50); the frequency is frozen at the average of its last adjustments (which
neighbour a fraction takes is open, log entry 4). -/
def Claims.SourceMessages : Prop :=
  ∀ (s : State) (utc : BitVec 16) (l61 l59 : Bool) (b : List Byte) (dom : BitVec 8),
    let d := s.dev
    let utcs := [(TTB_UTC_OFS_OFS, utc.toNat), (TTB_UTC_OFS_LEAP61, b2n l61), (TTB_UTC_OFS_LEAP59, b2n l59)]
    let sum := d.time.freqs.foldl (· + ·) 0
    let lost := fun (c : Instr) (ps : List Nat) => d.source = 0 → d.get TTB_STATUS_STATE = 1 ∨ d.get TTB_STATUS_STATE = 2 →
      ∃ (a : Int) (n : Nat),
        (d.time.freqs = [] → a = d.time.baseFreq) ∧
        (d.time.freqs ≠ [] → sum - d.time.freqs.length < a * d.time.freqs.length ∧
          a * d.time.freqs.length < sum + d.time.freqs.length) ∧
        Sets c s { d with time := { d.time with good := 0, baseFreq := a }, free := n }
          [(TTB_STATUS_STATE, 3), (TTB_FREQ_ADJ_ADJ, ofSigned 32 (max (-1600000) (min a 1600000)))] ps
    (dom.toNat = d.get TTB_CTRL_PTP_DOMAIN → dom.toNat ≤ 127 → d.get TTB_CTRL_PROFILE = 0 →
      (∃ w ∈ utcs, d.get w.1 ≠ w.2) →
      Sets (.announceRx dom true utc l61 l59 none) s d utcs [25] ∧
      (d.time.tlv = b → Sets (.announceRx dom true utc l61 l59 (some b)) s d utcs [25]) ∧
      (d.time.tlv ≠ b →
        Sets (.announceRx dom true utc l61 l59 (some b)) s { d with time := { d.time with tlv := b } } utcs [25, 26])) ∧
    (dom.toNat ≠ d.get TTB_CTRL_PTP_DOMAIN → exec (.announceRx dom true utc l61 l59 (some b)) s = .next s) ∧
    lost .announceTimeout [22, 16, 17] ∧
    lost .syncTimeout [16, 17]

/-- R50, R52, R54: an edge on PPS_IN is present and, with IN_EN, captured in nanoseconds of its second, corrected for a fixed
latency (log entry 50); a LOCKED time base raises EV21 for an offset above 1,000 ns, whatever the source; where PPS_IN is the
source and the host has the servo, it records the offset. Its absence clears PRESENT, with EV20 while IN_EN is 1. R48, R54:
SYNCE_LOCK rises while SyncE is enabled, and falls with EV23. -/
def Claims.PpsAndSyncE : Prop :=
  ∀ (s : State) (into : Nat) (want : Int),
    let d := s.dev
    let ns := (((d.time.sec * 1000000000 + d.time.ns + into : Nat) : Int) + Config.stampLatency 8).toNat % 1000000000
    let off : Int := if ns < 500000000 then (ns : Int) else (ns : Int) - 1000000000
    let seen := (TTB_STATUS_PPS_IN_PRESENT, 1)
    let far := if d.get TTB_STATUS_STATE = 2 ∧ 1000 < off.natAbs then [21] else []
    (d.get TTB_PPS_CTRL_IN_EN = 0 → Sets (.ppsInEdge into want) s d [seen]) ∧
    (d.get TTB_PPS_CTRL_IN_EN = 1 → d.source ≠ 1 → Sets (.ppsInEdge into want) s d [seen, (TTB_PPS_IN_NS_NS, ns)] far) ∧
    (d.get TTB_PPS_CTRL_IN_EN = 1 → d.source = 1 → d.get TTB_STATUS_STATE = 2 → d.get TTB_CTRL_SERVO_HOST = 1 →
      Sets (.ppsInEdge into want) s
        { d with time := { d.time with freqs := (toSigned 32 (d.get TTB_FREQ_ADJ_ADJ) :: d.time.freqs).take 16 } }
        [seen, (TTB_PPS_IN_NS_NS, ns), (TTB_STATUS_OFFSET_NS, ofSigned 16 (max (-32767) (min off 32767)))] far) ∧
    (d.source ≠ 1 → Sets .ppsInAbsent s d [(TTB_STATUS_PPS_IN_PRESENT, 0)]
      (if d.get TTB_PPS_CTRL_IN_EN = 1 then [20] else [])) ∧
    (d.get TTB_STATUS_SYNCE_LOCK = 1 → Sets .synceRefLost s d [(TTB_STATUS_SYNCE_LOCK, 0)] [23]) ∧
    (d.get TTB_CTRL_SYNCE_EN = 1 → Sets .synceLockGained s d [(TTB_STATUS_SYNCE_LOCK, 1)])

/-- Announce and Sync messages, their absence, PPS_IN and SyncE: the claims above. -/
def Obligations.TimeSources : Prop := Claims.SourceMessages ∧ Claims.PpsAndSyncE

/-- R49: a write of TTB_CTRL sets its fields in FREERUN (that SYNCE_LOCK falls, with EV23, when SYNCE_EN is cleared is DEDUCED,
log entry 50); in any other state a write that would change SYNCE_EN or
SYNCE_LANE sets REFUSED and leaves those two. R41: choosing no source in FREERUN holds the frequency in force. R43: GO with
FORCE or no panel running makes the step pending, its nanoseconds held below a second; else it is refused with EV19.
R56: TTB_FRAME is held pending while no panel runs, its frame part kept where it is 80 or more, and takes effect at an
edge, after a step of that edge; while a panel runs it is refused. -/
def Claims.TimeBaseWrites : Prop :=
  ∀ (s : State) (r : Req) (v : Word) (f g : Nat),
    let d := s.dev
    let idle := d.get PKL_PANEL_RUN_RUN = 0
    let plain := [(TTB_CTRL_SOURCE, bits v.toNat 1 0), (TTB_CTRL_PROFILE, bits v.toNat 2 2),
      (TTB_CTRL_SERVO_HOST, bits v.toNat 3 3), (TTB_CTRL_RUN_UNLOCKED, bits v.toNat 4 4),
      (TTB_CTRL_PTP_DOMAIN, bits v.toNat 23 16), (TTB_CTRL_ANNOUNCE_TIMEOUT, bits v.toNat 27 24)]
    let synce := [(TTB_CTRL_SYNCE_EN, bits v.toNat 5 5), (TTB_CTRL_SYNCE_LANE, bits v.toNat 8 6)]
    let freq := { d with time := { d.time with baseFreq := toSigned 32 (d.get TTB_FREQ_ADJ_ADJ) } }
    let step := toSigned 32 (d.get TTB_STEP_SEC_SEC) * 1000000000 + (min (d.get TTB_STEP_NS_NS) 999999999 : Nat)
    let held := d.time.frame.getD (d.get TTB_FRAME_FRAME_OFS, d.get TTB_FRAME_SFN_OFS)
    (d.get TTB_STATUS_STATE = 0 →
      let base := if bits v.toNat 1 0 < 2 then d else freq
      (v.getLsbD 5 = true ∨ d.get TTB_STATUS_SYNCE_LOCK = 0 → Sets (.ttbCtrlWrite r v) s base (plain ++ synce)) ∧
      (v.getLsbD 5 = false → d.get TTB_STATUS_SYNCE_LOCK = 1 →
        Sets (.ttbCtrlWrite r v) s base ((TTB_STATUS_SYNCE_LOCK, 0) :: plain ++ synce) [23])) ∧
    (d.get TTB_STATUS_STATE ≠ 0 → bits v.toNat 1 0 < 2 →
      (∃ w ∈ synce, d.get w.1 ≠ w.2) → Sets (.ttbCtrlWrite r v) s d ((TTB_STATUS_REFUSED, 1) :: plain)) ∧
    (v.getLsbD 0 = true → idle ∨ v.getLsbD 1 = true → Sets (.stepGo r v) s
      { d with time := { d.time with step := some step, own := false } } [(TTB_STEP_CTRL_FORCE, bits v.toNat 1 1), (TTB_STATUS_STEP_PENDING, 1)]) ∧
    (v.getLsbD 0 = true → ¬ idle → v.getLsbD 1 = false →
      Sets (.stepGo r v) s d [(TTB_STEP_CTRL_FORCE, 0), (TTB_STATUS_STEP_REFUSED, 1)] [19]) ∧
    (idle → Sets (.ttbFrameWrite r v) s
      { d with time := { d.time with
        frame := some (if 80 ≤ bits v.toNat 6 0 then held.1 else bits v.toNat 6 0, bits v.toNat 25 16) } }
      [(TTB_STATUS_FRAME_PENDING, 1)]) ∧
    (¬ idle → Sets (.ttbFrameWrite r v) s d [(TTB_STATUS_REFUSED, 1)]) ∧
    (d.time.step = none → d.time.frame = some (f, g) → Sets .frameApply s { d with time := { d.time with frame := none } }
      [(TTB_STATUS_FRAME_PENDING, 0), (TTB_FRAME_FRAME_OFS, f % 128), (TTB_FRAME_SFN_OFS, g % 1024)])

/-- R29, R44: a base tick edge takes the time-of-day to the next multiple of 125,000 ns (the one after, where the last step
skipped an edge), and TICK is 8,000 times the seconds plus the nanoseconds over 125,000; what else an edge does follows
from there, a port clock's edges of the tick before it. R44, R45: a step that is applied adds to the time-of-day, recomputes
TICK, skips an edge nearer than 62,500 ns and pulses EV18, and what the new TICK makes due follows; one that leaves 48 bits of
seconds is refused with EV19. R42: Hayward's own step is void once a panel runs. -/
def Obligations.TickAndSteps : Prop :=
  ∀ (s : State) (l : LedgerInputs) (st : Int),
    let d := s.dev
    let tod := d.time.sec * 1000000000 + d.time.ns
    let next := (tod / 125000 + 1 + b2n d.time.skip) * 125000
    let sec := fun (n : Nat) => n / 1000000000 % 2 ^ 48
    let new := ((tod : Int) + st).toNat
    let ok := 0 ≤ (tod : Int) + st ∧ (tod : Int) + st < 2 ^ 48 * 1000000000
    let void := d.time.own = true ∧ d.get PKL_PANEL_RUN_RUN ≠ 0
    let rise := decide (d.get TTB_PPS_CTRL_OUT_EN = 1) && decide (d.time.sec < new / 1000000000)
    let gone := { d.time with step := none, own := false }
    let u := { d.tbcTick with
      time := { d.time with
        sec := sec next, ns := next % 1000000000, frac := 0
        tick := sec next * 8000 + next % 1000000000 / 125000, skip := false, edges := d.time.edges + 1
        run := d.time.run + (next - tod) }
      lwk := { d.tbcTick.lwk with xlinkUe := [] } }
    let e := (u.firstWindow.floorCredit.closeTick l.domE).lanesEdge
    exec (.baseTickEdge l) s =
      .next ⟨(({ e with lwk := { e.lwk with statEdges := e.lwk.statEdges + 1 } }).dumpRoles.removeEdge.tlmEdge).schedule,
        s.pending⟩ ∧
    (d.time.step = some st → ok → ¬ void → ∃ u : Device,
      ({ d with time := { gone with
          sec := sec new, ns := new % 1000000000, frac := 0, tick := sec new * 8000 + new % 1000000000 / 125000
          good := 0, skip := decide (125000 - new % 125000 < 62500)
          ppsOut := rise || d.time.ppsOut, ppsAt := if rise then d.time.run else d.time.ppsAt } }).Sets u
        [(TTB_STATUS_STEP_PENDING, 0)] [18] ∧
      exec .stepApply s = .next ⟨u.afterStep, s.pending⟩) ∧
    (d.time.step = some st → ¬ ok → ¬ void → ∃ u : Device,
      ({ d with time := gone }).Sets u [(TTB_STATUS_STEP_PENDING, 0), (TTB_STATUS_STEP_REFUSED, 1)] [19] ∧
      exec .stepApply s = .next ⟨u.afterStep, s.pending⟩) ∧
    (d.time.step = some st → void → ∃ u : Device,
      ({ d with time := gone }).Sets u [(TTB_STATUS_STEP_PENDING, 0)] [] ∧
      exec .stepApply s = .next ⟨u.afterStep, s.pending⟩)

/-- R55: a read of TTB_TICK_LO answers TICK [31:0] and latches the rest for its requester; a read of TTB_TOD_NS, into
nanoseconds after the edge, answers the nanoseconds and latches the seconds. R51: PPS_OUT rises at a whole second while
OUT_EN is 1, be it on an edge or inside a tick whose edge there was omitted (R44), and falls once OUT_WIDTH_MS, 0 counting as
1, has passed since. -/
def Claims.TimeBaseReadsAndPpsOut : Prop :=
  ∀ (s : State) (r : Req) (into : Nat),
    let d := s.dev
    let tod := d.time.sec * 1000000000 + d.time.ns
    let now := tod + into
    let next := (tod / 125000 + 1 + b2n d.time.skip) * 125000
    let second := (d.time.sec + 1) * 1000000000
    let rises := fun (at' : Nat) => exec .ppsOutRise s =
      .next { s with dev := { d with time := { d.time with ppsOut := true, ppsAt := at' } } }
    exec (.tickLoRead r) s = .next { s with dev := { d with
      time := { d.time with latchHi := tabSet (fun _ => 0) d.time.latchHi (reqNum r) (d.time.tick / 2 ^ 32) }
      out := d.out ++ [.regRead (reqNum r) TTB_TICK_LO (d.time.tick % 2 ^ 32)] } } ∧
    exec (.todNsRead r into) s = .next { s with dev := { d with
      time := { d.time with latchSec := tabSet (fun _ => 0) d.time.latchSec (reqNum r) (now / 1000000000) }
      out := d.out ++ [.regRead (reqNum r) TTB_TOD_NS (now % 1000000000)] } } ∧
    (d.get TTB_PPS_CTRL_OUT_EN = 1 → d.time.ns = 0 → rises d.time.run) ∧
    (d.get TTB_PPS_CTRL_OUT_EN = 1 → d.time.ns ≠ 0 → d.time.skip = true → second < next →
      rises (d.time.run + (second - tod))) ∧
    (d.time.ppsAt + 1000000 * max 1 (d.get TTB_PPS_CTRL_OUT_WIDTH_MS) < d.time.run + (next - tod) →
      exec .ppsOutFall s = .next { s with dev := { d with time := { d.time with ppsOut := false } } })

/-- Writes of the time base's registers, its latching reads, and PPS_OUT: the claims above. -/
def Obligations.TimeBaseRegisters : Prop := Claims.TimeBaseWrites ∧ Claims.TimeBaseReadsAndPpsOut

/-! ### Pricking and migration (R57 to R88) -/

/-- R68, R70, R78, R86, R88: a write of PKL_CTRL from a requester that may write it, while no command is in progress, stores
PANEL and FORCE. STAGE begins a command and fetches LEN bytes; at its end a stream that passes every check is staged, and
one that fails leaves the buffer empty and its error reported. REPRICK, STOP and START of a panel in the state they need
begin theirs, and a REPRICK takes the place of starts that wait (DEDUCED, log entry 50); DISCARD empties the buffer. Every end pulses EV4. -/
def Obligations.LoaderCommands : Prop :=
  ∀ (s : State) (r : Req) (v : Word) (st : Stream) (e : PklErr) (p : Nat) (bs : List Byte),
    let d := s.dev
    let fields := [(PKL_CTRL_PANEL, bits v.toNat 12 8), (PKL_CTRL_FORCE, bits v.toNat 13 13)]
    let busy := fields ++ [(PKL_STATUS_BUSY, 1), (PKL_STATUS_REQ, reqCode r)]
    let begun := fun (c : LoaderCmd) => { d.pkl with cmd := c, req := reqCode r, stopped := false, applied := false }
    let ended := { d.pkl with cmd := .none, stopped := false, applied := false, buf := [] }
    let none := [(PKL_STATUS_STAGED, 0), (PKL_STATUS_STAGED_KIND, 0), (PKL_STATUS_STAGED_PANEL, 0), (PKL_STATUS_BUSY, 0)]
    let noBar := d.get PKL_MIG_STATUS_STATE = 0 ∧ (bits v.toNat 13 13 = 1 ∨
      ∀ c < 64, d.get (PKL_CARRIER_MAP_VALID c) = 0 ∨ d.get (PKL_CARRIER_MAP_PANEL c) ≠ p)
    (d.mayLoad r = true → d.get PKL_STATUS_BUSY = 0 → bits v.toNat 12 8 = p → p < 20 →
      (∃ u, ({ d with pkl := begun .stage }).Sets u busy [] ∧
        let got := u.pklFetch (d.get PKL_SRC_LO_ADDR_LO + 2 ^ 32 * d.get PKL_SRC_HI_ADDR_HI) (d.get PKL_LEN_LEN)
        (d.get PKL_LEN_LEN ≤ 4194304 → got = some bs → exec (.stage r v true) s =
          .next ⟨{ u with pkl := { u.pkl with buf := bs, fetchOk := true } }, s.pending⟩) ∧
        exec (.stage r v false) s = .next ⟨{ u with pkl := { u.pkl with buf := [], fetchOk := false } }, s.pending⟩) ∧
      (d.pkl.staged = some st → st.kind = 0 → d.get PKL_PANEL_RUN_RUN = 0 →
        Sets (.reprick r v) s { d with
          pkl := { begun (.reprick true 0) with restart := [] }, time := { d.time with heldStarts := [] } } busy) ∧
      (d.pkl.staged = some st → st.kind = 1 → st.panel = p → noBar →
        Sets (.reprick r v) s { d with
          pkl := { begun (.reprick false p) with
            stopped := !bit (d.get PKL_PANEL_RUN_RUN) p, restart := d.pkl.restart.filter (fun x => x.1 ≠ p) }
          time := { d.time with heldStarts := d.time.heldStarts.filter (· ≠ p) } } busy) ∧
      (bit (d.get PKL_PANEL_RUN_RUN) p = true → noBar → Sets (.stop r v) s { d with pkl := begun (.stop p) } busy) ∧
      (bit (d.get PKL_PANEL_RUN_RUN) p = false → bit (d.get PKL_PANEL_DEF_DEF) p = true →
        Sets (.start r v) s { d with pkl := { begun (.start p) with
          restart := d.pkl.restart.filter (fun x => x.1 ≠ p) ++ [(p, false)] } } busy) ∧
      Sets (.discard r v) s { d with pkl := { ended with staged := .none } } (fields ++ none) [4]) ∧
    (d.pkl.cmd = .stage → d.get PKL_LEN_LEN ≤ 4194304 → d.pkl.fetchOk = true →
      (d.checkStream d.pkl.buf.length d.pkl.buf = (st, .none) →
        Sets .stageComplete s { d with pkl := { ended with staged := some st } }
          [(PKL_STATUS_STAGED, 1), (PKL_STATUS_STAGED_KIND, st.kind % 2),
            (PKL_STATUS_STAGED_PANEL, if st.kind = 0 then 31 else st.panel % 32), (PKL_STATUS_BUSY, 0)] [4]) ∧
      (d.checkStream d.pkl.buf.length d.pkl.buf = (st, some e) →
        Sets .stageComplete s { d with pkl := { ended with staged := .none } }
          (none ++ [(PKL_ERR_CODE, e.code % 256), (PKL_ERR_DETAIL, e.detail % 256), (PKL_ERR_SECTION, e.sect % 4096),
            (PKL_ERR_REQ, d.pkl.req % 8), (PKL_STATUS_ERR, 1)]) [4]))

/-- R74: at a stop edge that is due for a running panel, the STOP in progress stops it and is complete. R72: the apply of a
whole-device stream ends its REPRICK. R22, R41, R75, R78: at a panel edge that is due, with no swap of its clusters to come, a
panel that waits to start starts while the time base allows it: LOCKED, HOLDOVER, or any state with RUN_UNLOCKED; else its
start is held, with EV27, and goes on in LOCKED (or, the model's choice of log entry 50, once RUN_UNLOCKED is set). -/
def Obligations.PanelEdges : Prop :=
  ∀ (s : State) (p : Fin 20) (st : Stream) (boot : Bool),
    let d := s.dev
    let waits := d.pkl.restart.find? (fun x => x.1 == p.val) = some (p.val, boot)
    let due := d.panelEdge p.val = true ∧ (boot = true ∨ isPast 32 (d.get PKL_RESTART_TICK_TICK) d.time.tick = true) ∧
      ∀ x ∈ d.flt.swap, x.lc ∉ d.panelLcs p.val
    let held := p.val ∈ d.time.heldStarts
    let allowed := d.get TTB_CTRL_RUN_UNLOCKED = 1 ∨ d.get TTB_STATUS_STATE = 2 ∨ (d.get TTB_STATUS_STATE = 3 ∧ ¬ held)
    let stands := bit (d.get PKL_PANEL_RUN_RUN) p.val = false
    (d.pkl.cmd = .stop p.val → ¬ stands → d.panelEdge p.val = true →
      isPast 32 (d.get PKL_STOP_TICK_TICK) d.time.tick = true →
      ∃ u, u = d.stopPanel p.val ∧ exec (.panelStop p) s =
        .next ⟨({ u with pkl := { u.pkl with cmd := .none } }).put PKL_STATUS_BUSY 0, s.pending⟩) ∧
    (d.pkl.cmd = .reprick true 0 → d.pkl.staged = some st → d.pkl.applied = false →
      exec .applyComplete s = .next ⟨((d.applyWhole st false).setStaged none).pklDone, s.pending⟩) ∧
    (waits → due → stands → allowed → (∀ ss, d.pkl.routes ≠ some (false, ss)) →
      exec (.panelRestart p) s = .next ⟨d.startPanel p.val, s.pending⟩ ∧
      (held → exec (.heldPanelStart p) s = .next ⟨d.startPanel p.val, s.pending⟩)) ∧
    (waits → due → stands → ¬ allowed → ¬ held →
      Sets (.panelRestart p) s { d with time := { d.time with heldStarts := d.time.heldStarts ++ [p.val] } } [] [27])

/-- R79, R80, R82, R83: a request with GO for a valid carrier and a running destination with the engine kinds and the room that
the carrier requires (log entry 10) begins a migration; an edge before
the switch, once the copy's energy is granted, copies the context; the switch, unless a stop of the source is due at its edge (R85),
changes the map entry and moves the carrier's items, and after a fence it abandons the migration with FAULT; when the source holds no item of the carrier more,
the migration ends. The ends pulse EV5. -/
def Obligations.MigrationCommands : Prop :=
  ∀ (s : State) (r : Req) (v : Word) (n : Nat) (u : Device),
    let d := s.dev
    let c := bits v.toNat 13 8
    let p := bits v.toNat 20 16
    let k := d.pkl.migCarrier
    (d.mayLoad r = true → v.getLsbD 0 = true → d.get PKL_MIG_STATUS_STATE = 0 → d.get (PKL_CARRIER_MAP_VALID c) = 1 →
      p < 20 → bit (d.get PKL_PANEL_DEF_DEF) p = true → bit (d.get PKL_PANEL_RUN_RUN) p = true → d.migRoom c p = true →
      Sets (.migrationRequest r v) s
        { d with pkl := { d.pkl with
          migCarrier := c, migE := d.get PKL_MIG_TICK_E, migSrc := d.get (PKL_CARRIER_MAP_PANEL c), migDest := p
          migFault := false } }
        [(PKL_MIG_CTRL_CARRIER, c), (PKL_MIG_CTRL_DEST, p), (PKL_MIG_STATUS_DEFERRED, 0), (PKL_MIG_STATUS_STATE, 1)]) ∧
    (d.nextCarrierTick (d.carrierR k) = some n → d.get PKL_MIG_STATUS_STATE = 1 → isPast 32 d.pkl.migE n = true →
      ({ d with pkl := { d.pkl with migE := n % 2 ^ 32 } }).askEnergy 4 d.pkl.migDest
        (1000 * 2 ^ d.get ELP_CTRL_MIG_ECLASS) = (true, u) →
      exec .migrationCopyStart s = .next ⟨(u.put PKL_MIG_STATUS_STATE 2).migCopy, s.pending⟩) ∧
    (d.stopDue d.pkl.migSrc = true → exec .migrationSwitch s = .next s) ∧
    (d.stopDue d.pkl.migSrc = false → d.get PKL_MIG_STATUS_STATE = 2 → isPast 32 d.pkl.migE (d.carrierTick (d.carrierR k)) = true →
      (d.pkl.migFault = false → exec .migrationSwitch s =
        .next ⟨((d.migCopy.put (PKL_CARRIER_MAP_PANEL k) d.pkl.migDest).put PKL_MIG_STATUS_STATE 3).migItems.schedule,
          s.pending⟩) ∧
      (d.pkl.migFault = true → Sets .migrationSwitch s { d with pkl := { d.pkl with migFault := false } }
        [(PKL_MIG_STATUS_STATE, 0), (PKL_MIG_STATUS_RESULT, 22)] [5])) ∧
    (d.get PKL_MIG_STATUS_STATE = 3 → (∀ q ∈ d.panelItems d.pkl.migSrc, q.2.carrier ≠ k) →
      Sets .migrationDrained s { d with pkl := { d.pkl with migFault := false } }
        [(PKL_MIG_STATUS_STATE, 0), (PKL_MIG_STATUS_RESULT, 0)] [5])

/-! ### Lacework (R89 to R121) -/

/-- R97, R99, R105: a request whose address a node holds, with room at its port, enters the mesh in the current epoch,
outstanding until it is answered; with a BARRIER while answers are awaited it is held. R101, R103, R104: a header that its
output grants its virtual channel moves on to the next router, or leaves at its destination, where a sound request is
delivered and a response is passed to the initiator's interface; one that it does not grant stays. R92: a header whose CRC
fails at a crossing or at its destination is dropped, with EV256. R95, R102: an OKAY response completes its request at
the initiator. R17, R97: a request held FENCED is injected again after its time, and a held BARRIER request once nothing
is awaited. -/
def Obligations.PacketCommands : Prop :=
  ∀ (s : State) (p : Packet) (n w : Nat) (f : Flight) (a : Segment) (src : BitVec 10) (ce : Nat) (mce : Option (Fin 160))
      (mue poison : Bool) (bad : List (Fin 40960)) (q : Waited) (h : Packet × HoldWhy),
    let d := s.dev
    let cur := d.get LWK_EPOCH_CUR
    let clear := d.barred p.src = false ∧ (p.barrier = false ∨ d.waitsOn p.src = false)
    let r := a.inp / 13
    let la := f.pkt.la.toNat
    let resp := isResp f.pkt.cmd.toNat
    let receive := fun (crc : Bool) => exec (.packetReceive n w crc poison ce mce mue bad) s
    let goes := d.lwk.flights[n]? = some f ∧ f.at? = some a ∧ d.mayGo f w = true ∧
      (la < 8 → resp = false → d.behindHeld n f = false)
    let passed := (d.linkCe ce).granted r la f.pkt.cls.toNat
    let hurt := { f with poison := f.poison || poison }
    (clear → p.cmd = 1 ∨ p.cmd = 2 ∨ p.cmd = 8 ∨ p.cmd = 9 → d.injectBad p = false → d.lwk.ready = [] →
      canEnter d.lwk.flights (localInput p.src.toNat) p.cls.toNat = true → ∀ m, d.resolve cur p.addr.toNat = .node m →
      ∃ e u, e = d.launch { p with dest := BitVec.ofNat 10 m } (cur == 1) ∧ e.epoch = (cur == 1) ∧ u = d.statInject e ∧
        exec (.packetInject p) s = .next ⟨({ u with lwk := { u.lwk with
          outst := if pktAwaits e then d.lwk.outst ++ [Waited.mk e (d.get LWK_EPOCH_FLIPS) false] else d.lwk.outst } }).enter e none,
          s.pending⟩) ∧
    (d.barred p.src = false → p.barrier = true → d.waitsOn p.src = true → exec (.packetInject p) s =
      .next { s with dev := { d with lwk := { d.lwk with held := d.lwk.held ++ [(p, .barrier)] } } }) ∧
    (goes → 8 ≤ la → ∀ crc, (la = 12 → crc = false) → receive crc = .next ⟨((if poison then
        passed.poisoned f.pkt (farInput r la) else passed).hop n hurt (farInput r la)).pumped, s.pending⟩) ∧
    (goes → la < 8 → (resp = false → poison = false → receive false =
        .next ⟨(passed.dropFlight n).deliver f.pkt f.poison ⟨mce.map (·.val), mue, bad.map (·.val)⟩, s.pending⟩) ∧
      (resp = true → poison = false → receive false = .next ⟨(passed.setFlights (passed.lwk.flights.set n
        { f with trail := [], left := 0, taken := true })).statEject f.pkt.dest.toNat (64 * f.pkt.len.toNat), s.pending⟩)) ∧
    (goes → la < 8 ∨ la = 12 → receive true = .next ⟨(passed.dropFlight n).lwErr LWK_ERR_HDR_CRC 256 f.pkt, s.pending⟩) ∧
    (d.lwk.flights[n]? = some f → f.at? = some a → d.mayGo f w = false → ∀ b, receive b = .next s) ∧
    (d.lwk.flights[n]? = some f → f.taken = true → f.req = none → f.pkt.cmd ≠ 5 → f.pkt.resp ≠ 3 → f.poison = false →
      (d.dropFlight n).lwk.outst.find? (fun o => o.pkt.src == f.pkt.dest && o.pkt.tag == f.pkt.tag) = some q →
      q.pkt.posted = false → ∃ u, u = d.dropFlight n ∧
      exec (.responseReceive n false) s =
        .next ⟨(({ u with lwk := { u.lwk with outst := u.lwk.outst.erase q } }).statDone q.pkt true).emit
          (.resp f.pkt.dest.toNat ⟨f.pkt.resp.toNat, f.pkt.inl.toNat, f.pkt.prov, f.pkt.verify, f.pkt.data⟩), s.pending⟩) ∧
    (d.lwk.held.find? (fun o => o.1.src == src && (match o.2 with
        | .fenced _ => true
        | _ => false)) = some h →
      exec (.fencedHoldTimeout src) s =
        .next ⟨({ d with lwk := { d.lwk with held := d.lwk.held.erase h } }).inject h.1 true, s.pending⟩) ∧
    (d.lwk.held = [(p, .barrier)] → d.waitsOn p.src = false →
      exec (.barrierRelease p.src) s = .next ⟨({ d with lwk := { d.lwk with held := [] } }).inject p false, s.pending⟩)

/-- R105 to R107: a wanted flip whose tables are written, the other epoch drained, makes that epoch current, counts it, and
pulses EV260, EV261 before it where its draining has not been told; one that cannot take place is deferred, with EV262. Once no
router counts a packet of the old epoch, EV261.
R95, R113: a request without an answer in its time is answered TARGET_ERR, with EV259, and counted; a packet held too long for
a domain is answered, EV264. R115: a crossing that reaches its limit fails, and a flip is wanted, EV267. R117, R119: a statistics
window closes into the snapshot, EV266, and arming the trace clears FULL. -/
def Obligations.EpochsAndLimits : Prop :=
  ∀ (s : State) (src : BitVec 10) (tag : BitVec 12) (m : Fin 64) (x : Fin 16) (v : Word) (b : Bool)
      (q : Waited) (h : Packet × HoldWhy),
    let d := s.dev
    let cur := d.get LWK_EPOCH_CUR
    let none := fun (e : Bool) => ∀ i < 96, d.routerCount e i = 0
    let tables : Routes := ⟨d.lcNow, d.xrowNow⟩
    (d.lwk.flipWanted = true → d.lwk.flipAt ≠ d.time.edges + 1 → none (cur == 0) → d.pkl.routes = Option.none →
      d.flt.rotTo = Option.none → (∀ o ∈ d.lwk.held, ∀ k, o.2 ≠ .fenced k) → (b = true ↔ none (cur == 1)) →
      Sets (.epochFlip true) s
        { d with lwk := { d.lwk with
          rt0 := if cur = 1 then tables else d.lwk.rt0, rt1 := if cur = 1 then d.lwk.rt1 else tables
          flipWanted := false, flipAt := d.time.edges + 1, drained := b } }
        [(LWK_EPOCH_CUR, 1 - cur), (LWK_EPOCH_FLIPS, (d.get LWK_EPOCH_FLIPS + 1) % 65536)]
        (if d.lwk.drained then [260] else [261, 260])) ∧
    (d.lwk.flipWanted = true → b = false ∨ ¬ none (cur == 0) → Sets (.epochFlip b) s d
      [(LWK_EPOCH_DEFERRED, min (d.get LWK_EPOCH_DEFERRED + 1) 255)] [262]) ∧
    (none (cur == 0) → d.lwk.drained = false →
      Sets .epochDrained s { d with lwk := { d.lwk with drained := true } } [] [261]) ∧
    (d.lwk.outst.find? (fun o => o.pkt.src == src && o.pkt.tag == tag && !o.pkt.posted) = some q →
      exec (.requestTimeout src tag) s =
        .next ⟨((((({ d with lwk := { d.lwk with outst := d.lwk.outst.erase q } }).lwErr LWK_ERR_TIMEOUT 259 q.pkt).statDone
          q.pkt false).note (report 3 aLog 9 (routerAll src.toNat) q.pkt.addr.toNat src.toNat 3 259)).emit
          (.resp src.toNat targetErr)), s.pending⟩) ∧
    (d.lwk.held.find? (fun o => o.2.domain == some m.val) = some h → h.2.channel = Option.none →
      exec (.holdLimitExpiry m) s =
        .next ⟨(({ d with lwk := { d.lwk with held := d.lwk.held.erase h } }).lwErr LWK_ERR_HOLD_EXPIRED 264 h.1).reply h.1
          asleep, s.pending⟩) ∧
    (bit (d.get LWK_XLINK_FAILED) x.val = false →
      max 1 (d.get LWK_XLINK_UE_LIMIT_LIMIT) ≤ tabGet (fun _ => 0) d.lwk.xlinkUe x.val →
      Sets (.xlinkFail x) s
        { d with lwk := { d.lwk with flipWanted := true, captured := d.lwk.captured && d.word LWK_ERR != 0 } }
        [(LWK_XLINK_FAILED, d.get LWK_XLINK_FAILED + 2 ^ x.val), (LWK_ERR_XLINK_FAIL, 1)] [267]) ∧
    (max 1 (d.get LWK_STAT_CTRL_WIN) ≤ d.lwk.statEdges →
      Sets .statWindowClose s { d with lwk := { d.lwk with snap := d.lwk.stat, stat := [], statEdges := 0 } }
        [(LWK_STAT_CTRL_SEQ, (d.get LWK_STAT_CTRL_SEQ + 1) % 65536)] [266]) ∧
    (d.get LWK_TRC_CTRL_ARM = 0 → v.getLsbD 0 = true → Sets (.traceArm v) s { d with lwk := { d.lwk with traced := 0 } }
      [(LWK_TRC_STATUS_FULL, 0), (LWK_TRC_CTRL_ARM, 1), (LWK_TRC_CTRL_MODE, bits v.toNat 1 1)])

/-! ### Heath (R122 to R146) -/

/-- R123, R125, R126: the header operations of a tile whose bank is open to requests and not retired and whose header is sound, on their own
conditions: OPEN of a FREE tile, SEAL of the writer's OPEN tile after a barrier, RELEASE with the generation or ANY_GEN,
MARK CLR_PROV of a SEALED tile from the FEC group. Each is answered OKAY, changes the fields the rule gives it, and
leaves every other tile and the rest of the device as it was. -/
def Claims.HeaderOperations : Prop :=
  ∀ (s : State) (t : Fin 40960) (src : BitVec 10) (inl : BitVec 64) (gen : BitVec 4),
    let d := s.dev
    let h := d.tile t.val
    let f := fun (hi lo : Nat) => bits inl.toNat hi lo
    let gives := fun (c : Instr) (x : Tile) => exec c s = .next { s with dev := { d with
      tiles := tabSet (fun _ => tile0) d.tiles t.val x, out := d.out ++ [.resp src.toNat ok] } }
    d.portAnswer (bankNode (t.val / 512)) = none → d.get (HTH_BANK_STATE_STATE (t.val / 512)) ≠ 2 →
    (h.st = .free → f 31 28 < 6 ∨ f 31 28 = 7 ∨ (f 31 28 = 6 ∧ isFecNode src.toNat = true) →
      gives (.openTile t src inl false) { h with
        st := .opened, gen := (h.gen + 1) % 16, slot := f 15 0, carrier := f 21 16, symbol := f 27 24, format := f 31 28
        port := f 40 32, kind := inl.getLsbD 41, first := f 63 48, writer := src.toNat, ais := false, mute := false
        prov := false, forced := false, count := 0, erasures := 0 }) ∧
    (h.st = .opened → h.writer = src.toNat →
      gives (.sealTile t src inl true false) { h with
        st := .sealed, picot := f 31 0, ais := inl.getLsbD 32, mute := inl.getLsbD 33, erasures := f 41 34
        count := f 55 42, sealTick := d.time.tick % 2 ^ 32 }) ∧
    (h.gen = f 3 0 ∨ inl.getLsbD 4 = true → gives (.releaseTile t src inl false) { h with st := .free }) ∧
    (h.st = .sealed → h.gen = gen.toNat → isFecNode src.toNat = true →
      gives (.markClrProv t src gen false) { h with prov := false })

/-- R132, R141, R145: an accepted MARK FAULT sets the tile FAULTED and counts the mismatch, for the device, for its bank and
in the fault log, with its group's event where the group had none in this window. R141: a retirement window that is over
closes, its counts return to 0, and the next opens. A bank that is
due is retired: it leaves its panel, its group's event is raised, and the quadrant's lowest headroom bank takes its place, or
NO_HEADROOM is set. -/
def Claims.TileFaultsAndWindows : Prop :=
  ∀ (s : State) (t : Fin 40960) (src : BitVec 10) (gen : BitVec 4) (k : Fin 80),
    let d := s.dev
    let b := t.val / 512
    let n := d.get HTH_LOG_PTR_NEXT
    (d.portAnswer (bankNode b) = none → d.get (HTH_BANK_STATE_STATE b) ≠ 2 → (d.tile t.val).st = .sealed → (d.tile t.val).gen = gen.toNat →
      Does (.markFault t src gen false) s (fun u =>
        u.tiles = tabSet (fun _ => tile0) d.tiles t.val { d.tile t.val with st := .faulted } ∧
        u.get HTH_CNT_MISMATCH_COUNT = (d.get HTH_CNT_MISMATCH_COUNT + 1) % 2 ^ 32 ∧
        u.get (HTH_BANK_STATE_FAULTS b) = min (d.get (HTH_BANK_STATE_FAULTS b) + 1) 255 ∧
        u.get (HTH_LOG_A_BANK n) = b ∧ u.get (HTH_LOG_A_TILE n) = t.val % 512 ∧ u.get (HTH_LOG_A_CAUSE n) = 5 ∧
        u.get (HTH_LOG_A_NODE n) = src.toNat ∧ u.get (HTH_LOG_B_TICK n) = d.time.tick % 2 ^ 32 ∧
        u.get HTH_LOG_PTR_NEXT = (n + 1) % 16 ∧
        (tabGet (fun _ => false) d.heath.seen (b / 4) = false →
          u.get (HTH_EV_CAUSE_MISMATCH (b / 4)) = 1 ∧ u.get (pendFld (236 + b / 4)) = 1) ∧
        (∀ r, r < 0x1800000 ∨ 0x1800400 ≤ r → r ≠ EVF_PEND ((236 + b / 4) / 32) → u.word r = d.word r) ∧
        .resp src.toNat ok ∈ u.out ∧
        u = { d with
          regs := u.regs, tiles := u.tiles, heath := u.heath, tlm := u.tlm, power := u.power, msixA := u.msixA
          msixB := u.msixB, out := u.out })) ∧
    (d.heath.winLen ≠ 0 → d.heath.winOpen + d.heath.winLen ≤ d.time.edges →
      Sets .retireWindowClose s
        { d with heath := { d.heath with
          cnt := [], seen := [], winOpen := d.time.edges, winLen := max 1 (d.get HTH_RETIRE_WIN) } }
        ((List.range 80).map (fun k => (HTH_BANK_STATE_FAULTS k, 0)))) ∧
    (k.val ∈ d.heath.due → d.get (HTH_BANK_STATE_STATE k) ≠ 2 →
      let head := fun (m : Nat) => m / 20 = k.val / 20 ∧ d.get (HTH_BANK_STATE_STATE m) = 1
      Does (.bankRetire k) s (fun u => u.get (HTH_BANK_STATE_STATE k) = 2 ∧ u.get (HTH_BANK_STATE_PANEL k) = 0x1F ∧
        u.get (HTH_EV_CAUSE_RETIRED (k / 4)) = 1 ∧ u.get (pendFld (236 + k / 4)) = 1 ∧
        u.heath.retired = d.heath.retired ++ [k.val] ∧ k.val ∉ u.heath.due ∧ u.mem = d.mem ∧
        (d.get (HTH_BANK_STATE_STATE k) = 0 → (∀ m, ¬ head m) → u.get (HTH_EV_CAUSE_NO_HEADROOM (k / 4)) = 1) ∧
        (d.get (HTH_BANK_STATE_STATE k) = 0 → ∀ m, head m → (∀ j < m, ¬ head j) →
          u.get (HTH_BANK_STATE_STATE m) = 0 ∧ u.get (HTH_BANK_STATE_PANEL m) = d.get (HTH_BANK_STATE_PANEL k)) ∧
        (d.get (HTH_BANK_STATE_STATE k) ≠ 0 ∨ (∀ m, ¬ head m) → u.tiles = d.tiles ∧
          ∀ m < 80, m ≠ k.val → u.get (HTH_BANK_STATE_STATE m) = d.get (HTH_BANK_STATE_STATE m))))

/-- Header operations of Heath, counted mismatches, and retirement: the claims above. -/
def Obligations.TileHeaders : Prop := Claims.HeaderOperations ∧ Claims.TileFaultsAndWindows

/-- R127, R131, R133: a payload write to tiles open by its writer stores its enabled bytes and marks PROV where it carries
PROV, and every other byte stands; a whole-tile read of a SEALED tile without AIS answers its 4,096 bytes, its picot and
word 1, and with VERIFY only when the picot is right; a partial read without VERIFY answers its bytes and counts; a header
read answers headers as stored. A PCIe endpoint reads no tile with PROV. -/
def Obligations.TileAccesses : Prop :=
  ∀ (s : State) (a : Fin 167772160) (src : BitVec 10) (prov verify : Bool) (be le : BitVec 64) (bs : List Byte)
      (t : Fin 40960) (u : Fin 65) (o : Fin 1310720),
    let d := s.dev
    let h := d.tile t.val
    let n := if u.val = 0 then 8 else 64 * u.val
    let live := fun (k : Nat) => d.get (HTH_BANK_STATE_STATE (k / 512)) ≠ 2
    let enters := fun (k : Nat) => d.portAnswer (bankNode (k / 512)) = none
    let tells := fun (x : Device) (r : Resp) => { x with out := x.out ++ [.resp src.toNat r] }
    (enters (a.val / 4096) → 0 < bs.length → a.val + bs.length ≤ 167772160 →
      (∀ k, a.val / 4096 ≤ k → k ≤ (a.val + bs.length - 1) / 4096 →
        live k ∧ (d.tile k).st = .opened ∧ (d.tile k).writer = src.toNat) →
      Does (.payloadWrite a src prov be le bs []) s (fun x =>
        (∀ i, (hi : i < bs.length) → x.byte (0x4000000000 + a.val + i) =
          if enabled be.toNat le.toNat bs.length i then bs[i] else d.byte (0x4000000000 + a.val + i)) ∧
        (∀ c, c < 0x4000000000 + a.val ∨ 0x4000000000 + a.val + bs.length ≤ c → x.byte c = d.byte c) ∧
        (∀ k, x.tile k = if prov = true ∧ a.val / 4096 ≤ k ∧ k ≤ (a.val + bs.length - 1) / 4096
          then { d.tile k with prov := true } else d.tile k) ∧
        x = { d with mem := x.mem, tiles := x.tiles, out := d.out ++ [.resp src.toNat ok] })) ∧
    (enters t.val → live t.val → h.st = .sealed → h.ais = false → h.prov = false ∨ isPcieNode src.toNat = false →
      verify = false ∨ crc32c (d.bytes (tileAddr t.val) 4096) = h.picot →
      exec (.wholeTileRead t src verify false) s =
        .next ⟨tells d ⟨0, h.picot + 2 ^ 32 * h.word1, h.prov, verify, d.bytes (tileAddr t.val) 4096⟩, s.pending⟩) ∧
    (enters (a.val / 4096) → (∀ k ∈ tilesOf a.val n, live k) → (∀ k ∈ tilesOf a.val n, (d.tile k).prov = false) →
      exec (.partialRead a u src false []) s =
        .next ⟨tells (d.count HTH_CNT_UNVERIFIED_COUNT 1) ⟨0, 0, false, false, d.bytes (0x4000000000 + a.val) n⟩,
          s.pending⟩) ∧
    (enters (o.val / 32) → live (o.val / 32) → ∃ r : Resp, r.code = 0 ∧ r.data = ((((List.range ((o.val % 32 + n + 31) / 32)).flatMap
        (fun i => (d.tile (o.val / 32 + i)).bytes)).drop (o.val % 32)).take n) ∧
      exec (.headerRead o u src []) s = .next { s with dev := tells d r })

/-! ### Serial lanes (R147 to R172) -/

/-- R157, R162 to R166, R171: the states of a lane whose block lock is already lost. A loss of signal, a retraining that
begins, a training that ends, a failure, and an attempt at recovery each set the lane's state and their cause bit, with
the radio lane's event EV(48 + n), and show the lane's alignment; a network lane takes its port's link down. An adaptation of a
lane that is UP moves one setting of its equaliser by a step and shows its eye. -/
def Claims.LaneStates : Prop :=
  ∀ (s : State) (n : Fin 80) (i : Nat) (up : Bool) (eye : BitVec 8) (limit : Bool) (eq : List Nat),
    let d := s.dev
    let k := n.val
    let x := d.lane k
    let st := d.get (RLN_LANE_STATUS_STATE k)
    let ev := if k < 64 then [48 + k] else []
    let eth := d.laneMode k = 3
    let show_ := fun (al : Bool) => if k < 64 then [(FIL_LANE_STATUS_BF_STATE k, b2n x.sync), (FIL_LANE_STATUS_MF_SYNC k,
      b2n x.mf), (FIL_LANE_STATUS_ALIGNED k, b2n al), (FIL_LANE_STATUS_CANDS k, x.cands.length % 8)] else []
    let aligned := x.sync && x.mf
    let again := (RLN_LANE_CNT_RETRAIN_COUNT k, (d.get (RLN_LANE_CNT_RETRAIN_COUNT k) + 1) % 65536)
    let fresh := { x with hunt := 0, broke := true, clean := 0, badTicks := 0, eq := [] }
    let drawn := fun (y : Lane) => { d.setLane k y with free := d.free + 1 }
    let hand := { x with recovering := false, badTicks := 0, eq := eq, skip := true }
    let down := fun (c : Instr) (base : Device) (fs : List (Fld × Nat)) =>
      ∃ u, base.Sets u fs ev ∧ exec c s = .next ⟨u.laneNetDown k, s.pending⟩
    (d.get (RLN_LANE_STATUS_BLOCK_LOCK k) = 0 →
      (st ≠ 0 → d.get (RLN_LANE_STATUS_LOS k) = 0 → down (.lossOfSignal n) (d.setLane k { x with hunt := 0, broke := true })
        [(RLN_LANE_STATUS_LOS k, 1), (RLN_LANE_EV_CAUSE_LOS k, 1)]) ∧
      (st = 2 → down (.retrain n true) (drawn { fresh with recovering := false })
        ([again, (RLN_LANE_EV_CAUSE_RETRAIN k, 1), (RLN_LANE_STATUS_STATE k, 3)] ++ show_ (if eth then false else aligned))) ∧
      (st = 4 → d.get RLN_CTRL_RECOVER_S ≠ 0 → Sets (.recoveryAttempt n) s (drawn { fresh with recovering := true })
        [again, (RLN_LANE_STATUS_STATE k, 3)])) ∧
    Sets (.losClear n) s d [(RLN_LANE_STATUS_LOS k, 0)] ∧
    (st = 1 ∨ st = 3 → 8 ≤ x.clean →
      (x.recovering = false → Sets (.trainingDone n eq) s (d.setLane k hand)
        ((RLN_LANE_STATUS_STATE k, 2) :: show_ (if eth then true else aligned))) ∧
      (x.recovering = true → Sets (.trainingDone n eq) s (d.setLane k hand)
        ([(RLN_LANE_STATUS_STATE k, 2), (RLN_LANE_EV_CAUSE_RECOVERED k, 1)] ++ show_ (if eth then true else aligned)) ev)) ∧
    (st = 1 ∨ st = 3 → Sets (.laneFailed n) s d
      ([(RLN_LANE_STATUS_STATE k, 4), (RLN_LANE_EV_CAUSE_FAILED k, 1)] ++
        (if k < 64 ∧ eth then [(RLN_LANE_EV_CAUSE_LINK_DOWN k, 1)] else [])) ev) ∧
    (st = 2 → Sets (.laneAdaptation n i up eye limit) s
      (d.setLane k { x with eq := x.eq.set i (if up then x.eq.getD i 0 + 1 else x.eq.getD i 0 - 1) })
      [(RLN_LANE_STATUS_EYE_MV k, eye.toNat), (RLN_LANE_STATUS_ADAPT_LIMIT k, b2n limit)])

/-- R149, R152, R155, R160: of the blocks that a lane in HUNT hears, with the lane's polarity, the sixty-fourth valid header in a
row locks it, a valid one before counts, and an invalid one begins again and counts; a data block of a locked Filet lane goes,
descrambled, to its framer behind those that wait, or waits while the framer is held back; a block of a locked ETH_25 lane goes
through its elastic buffer. R169: a quad's
PLL bit falls and its four lanes drop lock, and rises. R170: a test write that sets no new bit on a lane in use takes effect.
R172: the transmit and polarity settings of a twin quad, none of whose links is enabled, are written. -/
def Claims.LaneBlocksAndQuads : Prop :=
  ∀ (s : State) (n : Fin 80) (hdr : BitVec 2) (bits64 : BitVec 64) (held : Bool) (reads : Fin 3) (into : Nat) (k : Fin 20)
      (r : Req) (m : Fin 80) (v : Word) (t : Fin 4),
    let d := s.dev
    let x := d.lane n.val
    let b := polar (d.rxInv n.val) (hdr.toNat, bits64.toNat)
    let line := (descramble x.line b.2).1
    let block := (descramble x.line b.2).2
    let c := Instr.laneBlockReceive n hdr bits64 held reads into
    let ev := if n.val < 64 then [48 + n.val] else []
    let valid := b.1 = 1 ∨ b.1 = 2
    let stamp := d.time.stamp into (3 + d.laneMode n.val)
    let up := { x with line := line, hist := (false :: x.hist).take 64 }
    let pll := fun (b : Nat) => (RLN_STATUS_PLL_LOCK, putBits (d.get RLN_STATUS_PLL_LOCK) k.val k.val b)
    let q := 16 + t.val
    let fields := fun (l : List Fld) => l.map (fun f => (f, bits v.toNat f.hi f.lo))
    (d.laneHears n.val = true → n.val < 72 → d.get (RLN_LANE_TEST_CHECK n.val) = 0 →
      (d.get (RLN_LANE_STATUS_BLOCK_LOCK n.val) = 0 →
        (valid → x.hunt = 63 → Sets c s (d.setLane n.val { x with line := line, hunt := 0, hist := [] })
          [(RLN_LANE_STATUS_BLOCK_LOCK n.val, 1), (RLN_LANE_EV_CAUSE_LOCK_GAINED n.val, 1)] ev) ∧
        (valid → x.hunt < 63 → Sets c s (d.setLane n.val { x with line := line, hunt := x.hunt + 1 }) []) ∧
        (¬ valid → Sets c s (d.setLane n.val { x with
            line := line, bad := x.bad + 1, hunt := 0, ber := x.ber + 1, hiBer := x.hiBer || decide (97 ≤ x.ber + 1) })
          [(RLN_LANE_CNT_BADHDR_COUNT n.val, min (d.get (RLN_LANE_CNT_BADHDR_COUNT n.val) + 1) (2 ^ 32 - 1))])) ∧
      (d.get (RLN_LANE_STATUS_BLOCK_LOCK n.val) = 1 → valid → (((false :: x.hist).take 64).filter id).length < 16 →
        (b.1 = 1 → d.filet n.val = true →
          (held = false → exec c s =
            .next ⟨((d.setLane n.val up).drainFifo n.val).framerBlock n.val block false stamp, s.pending⟩) ∧
          (held = true → x.fifo.length < 32 → exec c s =
            .next ⟨d.setLane n.val { up with fifo := x.fifo ++ [(block, false, stamp)] }, s.pending⟩)) ∧
        (d.laneMode n.val = 3 → exec c s =
          .next ⟨(d.setLane n.val up).ethBlock n.val (b.1, block) reads.val, s.pending⟩))) ∧
    (∃ u, d.Sets u [pll 0] [] ∧ exec (.quadPllUnlock k) s = .next ⟨(List.range 4).foldl
      (fun (u : Device) i => (u.dropLock (4 * k.val + i)).laneNetDown (4 * k.val + i)) u, s.pending⟩) ∧
    Sets (.quadPllLock k) s d [pll 1] ∧
    ((d.laneBusy m.val = false ∧ d.linkOn m.val = false) ∨
        (bits v.toNat 0 0 ≤ d.get (RLN_LANE_TEST_GEN m.val) ∧ bits v.toNat 1 1 ≤ d.get (RLN_LANE_TEST_CHECK m.val)) →
      Sets (.laneTestWrite r m v) s d (fields [RLN_LANE_TEST_GEN m.val, RLN_LANE_TEST_CHECK m.val])) ∧
    ((∀ i < 4, d.linkOn (4 * q + i) = false) →
      Sets (.twinQuadCfgWrite t 0 v) s d (fields [RLN_QUAD_CFG_TX_INV q, RLN_QUAD_CFG_RX_INV q]) ∧
      Sets (.twinQuadCfgWrite t 1 v) s d (fields [RLN_QUAD_TXEQ_TX_PRE0 q, RLN_QUAD_TXEQ_TX_POST0 q, RLN_QUAD_TXEQ_TX_PRE1 q,
        RLN_QUAD_TXEQ_TX_POST1 q, RLN_QUAD_TXEQ_TX_PRE2 q, RLN_QUAD_TXEQ_TX_POST2 q, RLN_QUAD_TXEQ_TX_PRE3 q,
        RLN_QUAD_TXEQ_TX_POST3 q]) ∧
      Sets (.twinQuadCfgWrite t 2 v) s d (fields [RLN_QUAD_SWING_SWING q]))

/-- Radio and twin lanes: states, block lock, quads and twin quad settings: the claims above. -/
def Obligations.LanesAndQuads : Prop := Claims.LaneStates ∧ Claims.LaneBlocksAndQuads

/-! ### Filet framing and fronthaul (R173 to R208) -/

/-- R158, R174, R176: a Filet lane outside any group that is UP and aligned, in a domain that runs, and sends no test pattern
sends basic frame i, its block 0 the alignment word with the frame's numbers, and two or three fillers, scrambled and with its
polarity. R181, R182: a block at a block 0 position, or anywhere in HUNT, and a
block at a block 1 position of a locked lane are judged by the framer; the oldest bar of a lane ends. R198, R199: a group with
none of its sections in force delivers nothing; group frames are delivered as the group's members allow. -/
def Claims.BasicFrames : Prop :=
  ∀ (s : State) (n : Fin 72) (i : Fin 375) (v : BitVec 64) (err : Bool) (into : Nat) (g : Fin 18),
    let d := s.dev
    let x := d.lane n.val
    let b := d.frameB n.val
    let num := d.txFrame i.val
    let rate := 3 + d.laneMode n.val
    let judged := fun (c : Instr) (at_ : Nat) => exec c s = .next ⟨d.framerBlock n.val v.toNat err at_, s.pending⟩
    (n.val < 64 → d.filet n.val = true → d.delivers n.val = true → d.laneRuns n.val = true → d.laneGroup n.val = none →
      d.get (RLN_LANE_TEST_GEN n.val) = 0 →
      Does (.basicFrameTx n i) s (fun t => ∃ ovhd blocks fill, (fill = 2 ∨ fill = 3) ∧
        t.out = d.out ++ [.frame n.val (d.time.stamp (1000 * i.val / 3) rate) (d.lineBlocks n.val
          ((alignBlock num.1 num.2.1 num.2.2 :: ovhd :: blocks).map (fun w => (1, w)) ++
            List.replicate fill (2, 0x1E))).2] ∧
        t = { d with regs := t.regs, ctrs := t.ctrs, lanes := t.lanes, free := t.free, out := t.out })) ∧
    (d.laneLocked n.val = true → d.filet n.val = true →
      (x.sync = false ∨ x.pos % b = x.base % b → judged (.alignmentBlockReceive n v err into) (d.time.stamp into rate)) ∧
      (x.sync = true → x.pos % b = (x.base + 1) % b → judged (.overheadBlockReceive n v err) x.stamp)) ∧
    exec (.candidateBarExpiry n) s = .next ⟨d.setLane n.val { x with bars := x.bars.drop 1 }, s.pending⟩ ∧
    (∃ u, u = d.groupFrame g.val i.val ∧ exec (.groupFrameDelivery g i) s = .next ⟨u, s.pending⟩ ∧
      (d.grpData g.val = [] → u = d))

/-- R202 to R206, R308, R436, R444: on an ETH_25 lane without local fault, of a message for the device a supported one-way delay
request is answered and counted, an unsupported one is counted with its cause, and an uplink message of a container, in its
window and format, adds its PRB groups; when a symbol's window closes, its
groups go on, a missing one as all ones with ETH_LOST. A downlink container sends its messages at their times with its sequence
numbers; a send point raises its request line and awaits a tile; a pop takes the oldest 64-byte units, and a push fills the
oldest tile that has not arrived. -/
def Claims.FronthaulAndContainers : Prop :=
  ∀ (s : State) (n : Fin 64) (c : Fin 32) (cc : Fin 64) (m : EcpriMsg) (e : List Byte) (slot : BitVec 16) (sym : Fin 14)
      (into : Nat) (u : Device) (us : List (List Byte)) (mute : Bool) (sec : Section) (hdr : EthHdr) (g : Fin 2048)
      (k : Fin 65) (src : BitVec 10) (t : DlTile) (p : Nat × Nat) (i : Fin 384) (bs : List Byte),
    let d := s.dev
    let eth := d.laneMode n.val = 3
    let up := eth ∧ d.laneRuns n.val = true ∧ d.ethUp n.val = true
    let a := 32 * n.val + cCid e
    let x := d.ctr a
    let w := d.ctr g.val
    let stamp := d.time.stamp m.into 6
    let seen := d.setLane n.val { d.lane n.val with stamp := stamp }
    let inc := fun (f : Nat → Fld) (by_ : Nat) => (f n.val, (d.get (f n.val) + by_) % 2 ^ 32)
    let rx := inc FIL_LANE_ETH_RX_COUNT 1
    let gap := match x.rxSeq with
      | some q => (m.seq.toNat + 65536 - q) % 65536
      | none => 0
    let mine := (x.syms.filter (fun q => q.slot == slot.toNat && q.sym == sym.val)).flatMap (·.prbs)
    let closed := d.setCtr a { x with syms := x.syms.filter (fun q => !(q.slot == slot.toNat && q.sym == sym.val)) }
    let prbs := (List.range (d.symPrbs e)).map (d.prbOf n.val e mine)
    let fed := fun (y : Device) => exec (.ta4WindowClose n cc slot sym) s =
      .next ⟨prbs.foldl (fun (y : Device) q => y.feed n.val e q.1 q.2) y, s.pending⟩
    let down := (d.ctrEntries n.val).find? (fun o => cCid o == c.val && cDown o) = some e
    let at_ : Int := (d.time.tod + into : Nat)
    let upAdv := 1000 * d.get FIL_ETH_TX_UP_ADV_US
    let place := d.airSym (cCarrier e) slot.toNat sym.val
    let half := ((place.1 + 20 * d.get TTB_FRAME_SFN_OFS) % halfNums).toNat
    let seq := fun (y : Device) => y.setCtr a { y.ctr a with txSeq := ((y.ctr a).txSeq + 1) % 65536 }
    let tells := fun (y : Device) (r : Resp) => Host.Outcome.next ⟨y.emit (.resp src.toNat r), s.pending⟩
    (up → d.laneHears n.val = true → d.section? 0x51 n.val = some sec → m.ok = true → (d.lane n.val).spoilt = false →
      m.dst.toNat = hDevMac sec.payload →
      (ecpriUnsupp m = true → Sets (.ecpriMessageRx n m) s seen
        [inc FIL_LANE_ETH_UNSUPP_COUNT 1, (FIL_LANE_EV_CAUSE_ETH_UNSUPP n.val, 1)] [48 + n.val]) ∧
      (ecpriUnsupp m = false →
        m.tci.map (fun (q : BitVec 16) => q.toNat % 4096) = (if hVlan sec.payload then some (hVid sec.payload) else none) →
        (m.ty = 5 → m.action = 0 → Sets (.ecpriMessageRx n m) s (seen.emit (.delay n.val 2 stamp)) [rx]) ∧
        (m.ty = 0 → (d.ctrEntries n.val).find? (fun o => cPtr0 o == m.eaxc.toNat && !cDown o) = some e →
          d.inTa4 (cCarrier e) m.slot.toNat m.sym.val (d.time.tod + m.into) = true → m.sects ≠ [] →
          (∀ o ∈ m.sects, sectComp o = compHdr (cFmt e)) → Sets (.ecpriMessageRx n m) s
            (seen.setCtr a { x with
              rxSeq := some ((m.seq.toNat + 1) % 65536)
              syms := addPrbs x.syms m.slot.toNat m.sym.val
                (m.sects.flatMap (fun o => o.prbs.zipIdx.map (fun q => (o.start + q.2, q.1)))) })
            [inc FIL_LANE_ETH_DROP_COUNT gap, rx]))) ∧
    (eth → d.ctrEntries n.val = [e] → cDown e = false → cCarrier e = cc.val → d.ctrStopped e = false →
      ((∀ q ∈ prbs, q.2 = false) → fed closed) ∧
      ((∃ q ∈ prbs, q.2 = true) → ∃ y, closed.Sets y [(FIL_LANE_EV_CAUSE_ETH_LOST n.val, 1)] [48 + n.val] ∧ fed y)) ∧
    (down → up → d.get (RLN_LANE_TEST_GEN n.val) = 0 → d.section? 0x51 n.val = some sec →
      d.ethHdr sec.payload = some hdr →
      (at_ + upAdv = d.airStart (cCarrier e) slot.toNat sym.val → 0 < d.symPrbs e → d.symPrbs e ≤ msgPrbs e →
        d.dlUnits n.val e ((List.range (d.symPrbs e)).map (fun q => (half, place.2 * d.symPrbs e + q))) = (u, us, mute) →
        exec (.uplaneSend n c slot sym into) s = .next ⟨(seq u).emit (.uplane n.val (d.time.stamp into 6) hdr (cPtr0 e)
          (u.ctr a).txSeq slot.toNat sym.val 0 (compHdr (cFmt e)) us), s.pending⟩) ∧
      (at_ + upAdv + 1000 * d.get FIL_ETH_TX_CP_ADV_US = d.airStart (cCarrier e) slot.toNat 0 → ∃ beam f,
        exec (.cplaneSend n c slot into) s = .next ⟨({ seq d with free := f }).emit (.cplane n.val (d.time.stamp into 6) hdr
          (cPtr0 e) x.txSeq slot.toNat beam), s.pending⟩)) ∧
    (down → d.laneMode n.val ≠ 3 → exec (.dlSendPoint n c i slot sym) s = .next ⟨d.sendPoints n.val e i.val, s.pending⟩) ∧
    (down → eth → d.symTiles e place.2 = [p] → (∀ q ∈ x.dl, q.half ≠ half) → exec (.dlSendPoint n c i slot sym) s =
      .next ⟨(d.setCtr a { x with dl := x.dl ++ [⟨half, p.1, p.2, [], false, false⟩] }).dmaPulse (cDreq e), s.pending⟩) ∧
    (w.queue.length < k.val → exec (.containerWindowPop g k src) s = tells d targetErr) ∧
    (k.val ≤ w.queue.length → ∃ ais : Nat, (ais = 1 ↔ ∃ o ∈ w.queue.take k.val, ∀ p, o = some p → p.2 = true) ∧
      exec (.containerWindowPop g k src) s = tells (d.setCtr g.val { w with queue := w.queue.drop k.val })
        ⟨0, ais, false, false, (w.queue.take k.val).flatMap (fun o => match o with
          | some p => p.1
          | none => List.replicate 64 0xFF)⟩) ∧
    (w.late = 0 → w.dl.head? = some t → t.arrived = false → exec (.containerWindowPush g false bs src) s =
      tells (d.setCtr g.val { w with dl := { t with arrived := true, mute := false, bytes := bs } :: w.dl.drop 1 }) ok)

/-- Filet basic frames and superframes, ETH_25 messages and containers: the claims above. -/
def Obligations.FramesAndContainers : Prop := Claims.BasicFrames ∧ Claims.FronthaulAndContainers

/-! ### Engines of the uplink and downlink (R209 to R326) -/

/-- R211 to R218, R225, R326: the front command of a Fourier engine, of OP 1, 2 or 3, whose checks pass and whose lists are
fetched, runs on by the antenna-symbols given, and with its last one is reported with its erasures; one that has been begun goes
on where it stands; one whose checks fail is reported CMD_ERR with the code of the first that
fails. What the transforms give is a kernel's value (log entry 11). -/
def Obligations.FourierCommands : Prop :=
  ∀ (s : State) (e : Fin 32) (k : Nat) (q : QCmd) (cmd ants : List Byte) (il ol : List Nat) (j : FeJob),
    let d := s.dev
    let w := wordAt cmd
    let n := d.feLens w
    let asked := d.asksCommand (feNode e) q.item
    let u := asked.reads (feNode e) [(addrOf cmd 8, 4 * bits (w 1) 22 16), (addrOf cmd 10, 2 * n.1),
      (addrOf cmd 12, 2 * n.2.1), (addrOf cmd 14, 2 * n.2.2)]
    let held : FeJob := ⟨q.cmd, q.lists.getD 0 [], q.lists.getD 1 [], q.lists.getD 2 [], q.lists.getD 3 []⟩
    let all := fun (run : Device → Nat → Device × Nat) => (List.range (feUnits w)).foldl (fun (a : Device × Nat) i =>
      ((run a.1 i).1, a.2 + (run a.1 i).2)) (u, 0)
    let both := fun (op : Nat) (c : Instr) (run : FeJob → Device → Nat → Device × Nat) =>
      (q.started = false → d.command q.item = some cmd → bits (w 0) 3 0 = op → feCheck w = 0 → u.feJob cmd n = some j →
        u.freqCarrier (bits (w 0) 13 8) = false →
        exec c s = .next ⟨u.feSome e q j (feUnits w) k (run j), s.pending⟩ ∧
        (q.done = 0 → q.eras = 0 → feUnits w ≤ k →
          exec c s = .next ⟨(all (run j)).1.report 1 e q.item 0 (all (run j)).2, s.pending⟩)) ∧
      (q.started = true → bits (wordAt q.cmd 0) 3 0 = op →
        exec c s = .next ⟨d.feSome e q held (feUnits (wordAt q.cmd)) k (run held), s.pending⟩)
    let na := bits (w 1) 22 16
    let nin := na * (symbolsOf w).length * ceilDiv (bits (w 4) 17 9) (fmtGroups (bits (w 0) 25 23))
    let nout := na * ((symbolsOf w).map (d.feTps w)).sum
    let v := asked.reads (feNode e) [(addrOf cmd 8, 4 * na), (addrOf cmd 10, 2 * nin), (addrOf cmd 12, 2 * nout)]
    d.front 1 e.val = some q →
    both 1 (.ulFft e k) (fun j d i => d.ulFft e.val j i) ∧
    both 2 (.ulPrachLong e k) (fun j d i => d.ulPrach e.val j i) ∧
    (d.command q.item = some cmd → bits (w 0) 3 0 = 3 → ifftCheck w = 0 → v.fetch (addrOf cmd 8) (4 * na) = some ants →
      v.tileList (addrOf cmd 10) nin = some il → v.tileList (addrOf cmd 12) (na * ((symbolsOf w).map (v.feTps w)).sum) = some ol →
      exec (.dlIfft e) s = .next ⟨(v.dlIfft e.val ⟨cmd, wordsOf ants, il, ol, []⟩).report 1 e.val q.item 0 0, s.pending⟩) ∧
    (q.started = false → d.command q.item = some cmd → feCheck w ≠ 0 → bits (w 0) 3 0 = 1 →
      Sets (.ulFft e k) s (asked.report 1 e.val q.item 4 0)
        [(FFE_ENG_ERR_CODE e.val, feCheck w), (FFE_ENG_EV_CAUSE_CMD_ERR e.val, 1)] [272 + e.val])

/-- R219 to R223: the step of an AGC entry whose container's oldest measured symbol ends, before the last of a slot. An entry
whose symbol holds AIS, or whose next symbol is scheduled, keeps its gain; else the gain moves by the error, over 2^ALPHA_SHIFT
and to nearest (either way at a tie, log entry 4), by no more than FAST_MAX, and a PRACH hold keeps it but for a release, which
takes the whole error; the hold is in force again from the step after. -/
def Obligations.GainControl : Prop :=
  ∀ (s : State) (q : Fin 4) (e : Fin 512) (ent : List Byte) (m : SymEnd) (t : List SymEnd) (slot : Nat),
    let d := s.dev
    let g := 32 * (16 * q.val + e.val / 32) + e.val % 32
    let c := cCarrier ent
    let at_ := symSlot (d.carrierR c) (d.halfAbs m.half) m.sym
    let sym := at_.2
    let p := toSigned 16 (Config.kernel 41 [cFmt ent, m.sum, m.n] [] 0)
    let a := tabGet (fun _ => agc0) d.agc (512 * q.val + e.val)
    let ended := a.prach == some (slot, sym)
    let prach := if ended then none else a.prach
    let again := a.prach.isSome && !ended && !a.held && !a.rel
    let held := !ended && (a.held || again)
    let sched := bit (d.schedMask c slot) (sym + 1)
    let was := toSigned 8 (d.get (FFE_AGC_STATE_GAIN q.val e.val))
    let fast : Int := d.get (FFE_AGC_CFG_FAST_MAX c)
    let err := toSigned 8 (d.get (FFE_AGC_CFG_TARGET c)) - (p + was)
    let k := d.get (FFE_AGC_CFG_ALPHA_SHIFT c)
    let clears := again || (sched && d.get (FFE_AGC_STATE_MODE q.val e.val) % 2 == 0)
    let gains := fun (v : Int) (n : Nat) =>
      let h := max (-128) (min v 127)
      let x := d.setCtr g { d.ctr g with ends := t }
      Sets (.agcSymbolEnd q e) s
        { x with free := n, agc := tabSet (fun _ => agc0) d.agc (512 * q.val + e.val) { a with
          hist := (h :: a.hist).take 28, rel := false, prach := prach, held := held, at_ := (slot, sym) } }
        ([(FFE_AGC_STATE_GAIN q.val e.val, ofSigned 8 h), (FFE_AGC_STATE_MODE q.val e.val, b2n sched + 2 * b2n held)] ++
          (if clears then [(FFE_AGC_STATE_CLIP q.val e.val, 0)] else []))
    (d.ctrEntries (16 * q.val + e.val / 32)).find? (fun o => cCid o == e.val % 32 && !cDown o) = some ent →
    (d.ctr g).ends = m :: t → d.get (FFE_AGC_STATE_VALID q.val e.val) = 1 → slot = (at_.1 % 65536).toNat → sym < 13 →
    (m.ais = true ∨ sched = true ∨ ((a.rel = false ∨ ended = true) ∧ held = true) → gains was d.free) ∧
    (m.ais = false → sched = false → a.rel = true → ended = false → gains (was + max (-fast) (min err fast)) d.free) ∧
    (m.ais = false → sched = false → held = false → (a.rel = false ∨ ended = true) → ∃ (r : Int) (n : Nat),
      2 * (r * 2 ^ k - err) ≤ 2 ^ k ∧ 2 * (err - r * 2 ^ k) ≤ 2 ^ k ∧ gains (was + max (-fast) (min r fast)) n)

/-- R227 to R235: a queued occasion that passes its checks takes a free accumulator with its roots; a repetition whose list
cannot be fetched is taken as erased, and one that can is read and added; a due evaluation updates its occasion; and the oldest
occasion, with every repetition in, is reported and leaves. What the correlations give is a kernel's value (log entry 11). -/
def Obligations.PreambleCommands : Prop :=
  ∀ (s : State) (p : Fin 4) (q : QCmd) (cmd : List Byte) (o : Occasion) (l : List Occasion) (ts roots : List Nat),
    let d := s.dev
    let w := wordAt cmd
    let x := d.engine (engKey 3 p.val)
    let all := tabGet (fun _ => []) d.occs p.val
    let na := bits (wordAt o.cmd 0) 24 16
    let at_ := addrOf o.cmd 10 + 2 * o.reps * na
    let asked := d.asks (peNode p.val) at_ (2 * na) false
    let ev := fun (o : Occasion) => bits (wordAt o.cmd 4) 19 16
    let found := (d.prePeaks o o.acc.length).filter (fun k => bits (wordAt o.cmd 3) 15 0 ≤ k.metric && !o.sup.contains k.pre)
    (x.queue.find? (fun r => !r.expired && !r.started) = some q → d.command q.item = some cmd → preBad w = false →
      (d.fetch (addrOf cmd 8) (4 * bits (w 0) 24 16)).isSome = true →
      (d.tileList (addrOf cmd 10) (bits (w 0) 13 10 * bits (w 0) 24 16)).isSome = true →
      d.tileList (addrOf cmd 12) (bits (w 2) 5 0 + 1) = some roots → all.length < 2 → ∃ u,
      u = (d.asksCommand (peNode p.val) q.item).reads (peNode p.val) [(addrOf cmd 8, 4 * bits (w 0) 24 16),
        (addrOf cmd 12, 2 * (bits (w 2) 5 0 + 1))] ∧
      exec (.preOccasion p) s = .next ⟨{ u with
        engines := (u.setEngine (engKey 3 p.val) { x with
          queue := x.queue.map (fun r => if r.item = q.item then { r with started := true } else r) }).engines
        occs := tabSet (fun _ => []) u.occs p.val (all ++ [⟨q.item, cmd, roots, List.replicate (bits (w 0) 24 16) ⟨0, none, []⟩,
          0, 0, 0, none, [], 0⟩]) }, s.pending⟩) ∧
    (all.find? (fun o => o.reps < bits (wordAt o.cmd 0) 13 10) = some o →
      (d.tileList at_ na = none → exec (.repetitionAccumulate p) s =
        .next ⟨d.setOcc p.val { o with reps := o.reps + 1, eras := o.eras + na }, s.pending⟩) ∧
      (d.tileList at_ na = some ts → ∃ (u : Device) (y : Occasion), (u, y) = asked.accumulate p.val o ts ∧ y.reps = o.reps + 1 ∧
        y.cmd = o.cmd ∧ y.eras ≤ o.eras + ts.length ∧
        exec (.repetitionAccumulate p) s = .next ⟨u.setOcc p.val y, s.pending⟩)) ∧
    (all.find? (fun o => ev o ≠ 0 && o.reps % ev o = 0 && decide (o.trigAt < o.reps)) = some o →
      exec (.triggerEvaluation p) s = .next ⟨(d.trigger p.val o).1.setOcc p.val (d.trigger p.val o).2, s.pending⟩) ∧
    (all = o :: l → bits (wordAt o.cmd 0) 13 10 ≤ o.reps → ∃ u,
      u = (d.preReport p.val o found 0).report 3 p.val o.item 0 o.eras ∧
      exec (.finalCorrelation p) s =
        .next ⟨{ u with occs := tabSet (fun _ => []) u.occs p.val l }, s.pending⟩)

/-- R240, R245, R248, R255, R262, R306, R317 to R322: the front command of a matrix engine whose fields and entries pass
every check and whose lists are fetched runs and ends with status 0, an uplink one with its records. What its arithmetic
gives is a kernel's value (log entry 11). -/
def Obligations.MatrixCommands : Prop :=
  ∀ (s : State) (m : Fin 4) (q : QCmd) (cmd ants tab : List Byte) (il out la lb : List Nat),
    let d := s.dev
    let w := wordAt cmd
    let n := bits (w 0) 18 13
    let j : MeJob := ⟨cmd, wordsOf ants, il, tab⟩
    let na := bits (w 0) 26 19
    let asked := d.asksCommand (meNode m) q.item
    let u := asked.reads (meNode m) [(addrOf cmd 4, 4 * na), (addrOf cmd 6, 2 * (mePos w).length), (addrOf cmd 8, 64 * n)]
    let v := fun (op : Nat) => asked.reads (meNode m) [(addrOf cmd 4, 4 * dNant w), (addrOf cmd (dlOutLen w).1, 2 * (dlOutLen w).2),
      (addrOf cmd 6, if op = 8 then 64 * n else if op = 10 then 16 * n else 2 * (dlInLen w).1), (addrOf cmd 8, 2 * (dlInLen w).2)]
    let up := fun (op : Nat) => bits (w 0) 3 0 = op ∧ bits (w 0) 12 10 ≤ 4 ∧ 0 < na ∧ na ≤ 192 ∧
      0 < n ∧ n ≤ 32 ∧ bits (w 0) 29 27 ≤ 4 ∧ bits (w 0) 31 30 = 0 ∧ bits (w 3) 31 14 = 0 ∧ 0 < bits (w 2) 31 23 ∧
      bits (w 2) 31 23 ≤ 275 ∧ u.fetch (addrOf cmd 4) (4 * na) = some ants ∧
      u.tileList (addrOf cmd 6) (mePos w).length = some il ∧ u.fetch (addrOf cmd 8) (64 * n) = some tab ∧
      meCheck (u.prbLimit (bits (w 0) 9 4)) op w (j.ents.map wordAt) = none ∧ u.entListsOk op j = none
    let ended := fun (c : Instr) (r : Device × List (List Byte) × Nat) =>
      exec c s = .next ⟨r.1.meEnd m.val q.item 0 r.2.2 r.2.1, s.pending⟩
    let down := fun (op : Nat) => bits (w 0) 3 0 = op ∧ bits (w 0) 12 10 ≤ 4 ∧ 0 < dNant w ∧ dNant w ≤ 192 ∧
      bits (w 0) 31 30 = 0 ∧ dFmt w ≤ 4 ∧ bits (w 2) 3 0 ≤ bits (w 2) 7 4 ∧ bits (w 2) 7 4 ≤ 13 ∧ 0 < dPrbs w ∧
      dPrb0 w + dPrbs w ≤ d.prbLimit (bits (w 0) 9 4) ∧ dLayers w ≤ 32 ∧ bits (w 3) 2 0 ≤ 5 ∧ bits (w 3) 31 3 = 0 ∧
      (op = 8 ∨ op = 10 → 0 < n ∧ n ≤ 32) ∧ w 12 = 0 ∧ w 13 = 0 ∧ w 14 = 0 ∧ w 15 = 0 ∧
      (v op).fetch (addrOf cmd 4) (4 * dNant w) = some ants ∧
      (v op).tileList (addrOf cmd (dlOutLen w).1) (dlOutLen w).2 = some out ∧
      (v op).tileList (addrOf cmd 6) (dlInLen w).1 = some la ∧ (v op).tileList (addrOf cmd 8) (dlInLen w).2 = some lb
    let done := fun (c : Instr) (u : Device) => exec c s = .next ⟨u.report 2 m.val q.item 0 0, s.pending⟩
    let es := cutTable tab 64 n
    let ps := cutTable tab 16 n
    d.front 2 m.val = some q → d.command q.item = some cmd →
    (up 1 → ended (.ulEst m) (u.ulEst m.val j)) ∧
    (up 2 → ended (.ulComb m) (u.ulComb m.val (u.chainGroup (u.item q.item).panel) j)) ∧
    (up 3 → ended (.ulSrs m) (u.ulSrs m.val j)) ∧
    (down 9 → done (.dlPrecode m) ((v 9).dlPrecode m.val cmd (wordsOf ants) la lb out)) ∧
    (down 11 → done (.dlConvert m) ((v 11).dlConvert m.val cmd (wordsOf ants) la out)) ∧
    (down 8 → (v 8).fetch (addrOf cmd 6) (64 * n) = some tab →
      (∀ x ∈ es, ((v 8).rmMap x).isSome = true ∧
        ((v 8).entList x 6 (ceilDiv (bits (wordAt x 4) 23 0) 32768)).isSome = true ∧
        dlEntBad ((v 8).prbLimit (bits (w 0) 9 4)) w (wordAt x) (((v 8).rmMap x).getD []) = false) →
      done (.dlMod m) ((v 8).dlMod m.val cmd es (es.map (fun x => ((v 8).rmMap x).getD [])) out)) ∧
    (down 10 → (v 10).fetch (addrOf cmd 6) (16 * n) = some tab →
      (∀ x ∈ ps, ((v 10).tileList (addrOf x 2) (dNant w)).isSome = true) →
      done (.dlWeights m) ((v 10).dlWeights m.val cmd ps out))

/-- R277, R307, R313 to R316: a decode command of the group's next queued item that passes its checks opens, with its lists,
and reads its soft buffer unless an open command holds it; an encode command whose panel has an engine of its kind encodes
its transport block and ends, or writes zeros with MUTE where the block cannot be read. -/
def Claims.CodingCommands : Prop :=
  ∀ (s : State) (q : Fin 4) (x : QCmd) (cmd : List Byte) (ll ol xl out il : List Nat) (t : Device) (b : List Byte) (eras : Nat),
    let d := s.dev
    let w := wordAt cmd
    let mo := if fLoop w then bits (w 0) 17 16 else 0
    let u := (d.asksCommand (fecNode q.val 0) x.item).reads (fecNode q.val 0) [(addrOf cmd 8, 2 * fTiles w),
      (addrOf cmd 10, 2 * (mo * fTiles w)), (addrOf cmd 12, 2 * (mo * fTiles w)), (addrOf cmd 14, 2 * ceilDiv (fTbs w) 32768)]
    let v := (d.asksCommand (fecNode q.val 1) x.item).reads (fecNode q.val 1)
      [(addrOf cmd 6, if bit (w 0) 16 then 2 * ceilDiv (fTbs w) 32768 else ceilDiv (fTbs w) 8),
        (addrOf cmd 8, 2 * ceilDiv (bits (w 3) 23 0) 32768)]
    let eng := u.engine (engKey 4 q.val)
    let g := u.grp q.val
    let c := { fecCmd0 x.item cmd with llrTiles := ll, ollrTiles := ol, xtTiles := xl, outTiles := out }
    let opened := (u.setEngine (engKey 4 q.val) { eng with
      queue := eng.queue.map (fun r => if r.item = x.item then { r with started := true } else r) }).setGrp q.val
        { g with cmds := g.cmds ++ [c] }
    let read := opened.sbRead q.val c
    let encs := [(8, Instr.ldpcEnc q), (9, .polarEnc q), (10, .turboEnc q), (11, .tbccEnc q)]
    ((d.engine (engKey 4 q.val)).queue.find? (fun r => !r.expired && !r.started) = some x → d.command x.item = some cmd →
      fecCheck w = 0 → u.tileList (addrOf cmd 8) (fTiles w) = some ll → u.tileList (addrOf cmd 10) (mo * fTiles w) = some ol →
      u.tileList (addrOf cmd 12) (mo * fTiles w) = some xl →
      u.tileList (addrOf cmd 14) (ceilDiv (fTbs w) 32768) = some out → g.store = [] →
      ∀ k ∈ [(1, Instr.ldpcDec q), (2, .polarDec q), (3, .shortDec q), (4, .turboDec q), (5, .tbccDec q)], fOp w = k.1 →
        exec k.2 s = .next ⟨if opened.sbBlocked q.val c then opened else read.1.setCmd q.val read.2, s.pending⟩) ∧
    (d.front 5 q.val = some x → d.command x.item = some cmd → encCheck w = 0 →
      (if bit (w 0) 16 then v.tileList (addrOf cmd 6) (ceilDiv (fTbs w) 32768) else some []) = some il →
      v.tileList (addrOf cmd 8) (ceilDiv (bits (w 3) 23 0) 32768) = some out →
      ∀ k ∈ encs, fOp w = k.1 →
        (∃ e < 24, engGroup e = q.val ∧ opEngine k.1 e = true ∧ d.fecMember (d.item x.item).panel e = true ∧
          d.fecFenced e = false) →
        (v.encInput q.val cmd il = (t, some b, eras) → exec k.2 s =
          .next ⟨((t.encOut q.val cmd out (some b) 0).count (FEC_ENC_CNT_CB_COUNT q.val)
            (if k.1 = 8 ∨ k.1 = 10 then bits (w 2) 31 24 else 1)).report 5 q.val x.item 0 0, s.pending⟩) ∧
        (v.encInput q.val cmd il = (t, none, eras) → exec k.2 s =
          .next ⟨((t.encOut q.val cmd out none eras).encCause q.val FEC_ENC_CAUSE_IN_ERASED).report 5 q.val x.item 0 0,
            s.pending⟩))

/-- R266, R278, R279, R283, R284, R287, R289, R297: a doorbell leaves those under way and matches an open command, or is stored
while the store has room; a PASS_END with nothing unsatisfied ends its entry's loop, and one of no loop is answered LOOP_END; a
free engine takes its first job; a decoder that finishes counts its block, and an unsatisfied one goes on; the check unit
confirms or fails a block that has no PROVISIONAL record by its CRC; a held
record is written when the ring has room. -/
def Claims.DecoderSteps : Prop :=
  ∀ (s : State) (q m : Fin 4) (e : Fin 24) (edge : Bool) (src : BitVec 10) (inl : BitVec 64) (into : Nat) (c c' : FecCmd) (r : Nat)
      (u v : Device) (bs : List Byte) (eras it : Nat) (sat : Bool) (l : List (Nat × Nat)) (hs : List (List Byte)),
    let d := s.dev
    let g := d.grp q.val
    let h := d.grp (engGroup e.val)
    let bell := fun (i : Nat) => ({ d with bells := d.bells.erase (fecNode q.val 0, src.toNat, inl.toNat) }, putBits inl.toNat 55 54 i)
    let rings := fun (k : Instr) (i : Nat) =>
      (g.cmds.find? (fun c => c.takes (bell i).2) = some c →
        exec k s = .next ⟨(bell i).1.fecMatch q.val c src.toNat (bell i).2, s.pending⟩) ∧
      (g.cmds.find? (fun c => c.takes (bell i).2) = none → g.store.length < 256 →
        exec k s = .next ⟨(bell i).1.setGrp q.val { g with store := g.store ++ [(src.toNat, (bell i).2)] }, s.pending⟩)
    let b := c.cbs.getD r codeBlock0
    let counted := ((d.count (FEC_CNT_CB_COUNT (engGroup e.val)) 1).count (FEC_CNT_ITER_COUNT (engGroup e.val)) b.iters).xtWrite
      (engGroup e.val) c r b
    let taken := d.setGrp q.val { g with checkQ := l }
    let rung := { d with bells := d.bells.erase (meNode m.val, src.toNat, inl.toNat) }
    let with_ := fun (b : CodeBlock) => { c with cbs := c.cbs.set r b }
    rings (.codeBlockDoorbell q src inl) 0 ∧ rings (.loopEndDoorbell q src inl) 1 ∧
    (bits inl.toNat 18 11 = 0 → exec (.passEndRx m src inl into) s = .next { s with dev := { rung with
      loops := d.loops.map (fun x => if x.takes m.val inl.toNat then { x with done := true } else x) } }) ∧
    (bits inl.toNat 18 11 ≠ 0 → (∀ x ∈ d.loops, x.takes m.val inl.toNat = false) → exec (.passEndRx m src inl into) s =
      .next ⟨rung.loopEnd m.val src.toNat inl.toNat (bits inl.toNat 53 52), s.pending⟩) ∧
    (d.fecBusy e.val = false → d.fecFenced e.val = false → d.pickJob e.val = some (c, r) → c.sbRead = true →
      d.region c r = (none, false) → d.llrRead (engGroup e.val) c r = (u, bs, eras) → eras ≠ llrTiles (fE c.w r) →
      u.iterate c r (u.softOf c r bs none) = (v, it, sat, false) →
      exec (.decodeJobStart e) s = .next ⟨v.setCmd (engGroup e.val) { c with
        cbs := c.cbs.set r { b with
          st := .decoding e.val, iters := it, satisfied := sat, erased := eras, soft := u.softOf c r bs none }
        started := true }, s.pending⟩) ∧
    (h.cmds.find? (fun c => c.cbs.any (fun b => b.st == .decoding e.val)) = some c →
      c.cbs.findIdx (fun b => b.st == .decoding e.val) = r → b.satisfied = false →
      exec (.codeBlockDecoded e edge) s = .next ⟨(counted.setCmd (engGroup e.val) { c with
        cbs := c.cbs.set r { b with st := .unsatisfied } }).fecAdvance (engGroup e.val) c.item, s.pending⟩) ∧
    (g.checkQ = (c.item, r) :: l → taken.fecCmd? q.val c.item = some c → b.seq = none →
      (decOk c.w b.bits_ = true → c' = with_ { b with st := .confirmed, open_ := false } →
        exec (.codeBlockCheck q) s = .next ⟨(taken.setCmd q.val c').tbEnd q.val c', s.pending⟩) ∧
      (decOk c.w b.bits_ = false →
        (taken.setCmd q.val (with_ { b with open_ := false })).blockFail q.val (with_ { b with open_ := false }) r 1 = (u, c') →
        exec (.codeBlockCheck q) s = .next ⟨u.tbEnd q.val c', s.pending⟩)) ∧
    (g.held = bs :: hs → d.cmplPut q.val bs = some u →
      exec (.heldRecordWrite q) s = .next ⟨u.setGrp q.val { u.grp q.val with held := hs }, s.pending⟩)

/-- Decode and encode commands, doorbells, decoders and records: the claims above. -/
def Obligations.CodingAndDecoders : Prop := Claims.CodingCommands ∧ Claims.DecoderSteps

/-! ### Timing and beam control (R327 to R336) -/

/-- R328 to R335: a write to an open bank of a port stores its entries and is answered OKAY, and to a closed one stores
nothing and is answered TARGET_ERR, counted, with LATE_WRITE. A request in its time becomes pending, and one beside another or
too late is refused with its cause; its window opens, and
the first strobe in it, stamped to 4 ns, or its close without one, makes the swap due; at the next rising edge of the port clock,
or at the close where that clock is lost, the swap changes the banks and drives DATA from the entry at ADDR. The
clock's loss and return, the control register and an address change act as their rules say. Whether a rising edge came before
is a fact that the command carries (log entry 5). -/
def Obligations.BeamPortCommands : Prop :=
  ∀ (s : State) (p b : Fin 2) (i : Fin 1024) (src : BitVec 10) (v x : Word) (into slot sym : Nat) (quiet : Bool),
    let d := s.dev
    let k := p.val
    let y := d.port k
    let en := d.get (TBC_CTRL_EN k) == 1
    let pend := d.get (TBC_STATUS_PENDING k)
    let win := d.get (TBC_STATUS_WIN_OPEN k)
    let sel := d.get (TBC_STATUS_SEL k)
    let open_ := en = false ∨ (sel ≠ b.val ∧ pend = 0)
    let at_ := fun (l : Bool) (u : Device) (bank a : Nat) => if l then u.word (TBC_TABLE k bank a) else 0
    let tod := d.time.stamp into 7 / 4 * 4
    let up := fun (f : Nat → Fld) (n : Nat) => (f k, (d.get (f k) + n) % 2 ^ 32)
    let swapped := fun (no : Bool) => [(TBC_STATUS_SEL k, 1 - sel), (TBC_STATUS_PENDING k, 0), (TBC_STATUS_WIN_OPEN k, 0),
      (TBC_LAST_SWAP_SLOT k, slot % 65536), (TBC_LAST_SWAP_SYMBOL k, sym % 16), (TBC_LAST_SWAP_SEL k, 1 - sel),
      (TBC_LAST_SWAP_NO_STROBE k, b2n no), up TBC_CNT_SWAP_COUNT 1, (TBC_EV_CAUSE_SWAP k, 1)] ++
      (if no then [(TBC_EV_CAUSE_NO_STROBE k, 1)] else [])
    let ev := fun (no : Bool) => (if d.get (TBC_CTRL_EV_SWAP k) = 1 then [152 + 4 * k] else []) ++ (if no then [153 + 4 * k] else [])
    let after := fun (l : Bool) => d.setPort k { y with
      live := l, swap := none, due := none, data := at_ l d (1 - sel) y.addr }
    let sampled := { y with live := en, data := at_ en d sel y.addr }
    (open_ → ∃ u, u = d.setWord (TBC_TABLE k b.val i.val) x ∧ exec (.tbcTableWrite p b i src [x] false) s =
      .next ⟨(u.setPort k { y with data := at_ y.live u sel y.addr }).emit (.resp src.toNat ok), s.pending⟩) ∧
    (¬ open_ → Sets (.tbcTableWrite p b i src [x] false) s (d.emit (.resp src.toNat targetErr))
      [up TBC_CNT_LATE_WRITE_COUNT 1, (TBC_EV_CAUSE_LATE_WRITE k, 1)] [153 + 4 * k]) ∧
    (pend = 0 → bits v.toNat 19 16 ≤ 13 →
      30720 * (into : Int) ≤ d.winOpens k (bits v.toNat 15 0) (bits v.toNat 19 16) →
      Sets (.tbcSwapReq p v into false) s (d.setPort k { y with swap := some (bits v.toNat 15 0, bits v.toNat 19 16) })
        [(TBC_STATUS_PENDING k, 1)]) ∧
    (pend = 1 → Sets (.tbcSwapReq p v into false) s d [(TBC_EV_CAUSE_BUSY k, 1)] [153 + 4 * k]) ∧
    (pend = 0 → 13 < bits v.toNat 19 16 ∨ d.winOpens k (bits v.toNat 15 0) (bits v.toNat 19 16) < 30720 * (into : Int) →
      Sets (.tbcSwapReq p v into false) s d [(TBC_EV_CAUSE_LATE k, 1)] [153 + 4 * k]) ∧
    (pend = 1 → y.due = none → Sets (.swapWindowOpen p) s d [(TBC_STATUS_WIN_OPEN k, 1)]) ∧
    (y.due = none → y.swap = some (slot, sym) →
      (win = 1 → Sets (.tbcpStrobe p into) s (d.setPort k { sampled with due := some false }) [(TBC_STATUS_WIN_OPEN k, 0),
        up TBC_CNT_STB_COUNT 1, (TBC_SWAP_TS_NS_NS k, tod % 1000000000), (TBC_SWAP_TS_SEC_SEC k, tod / 1000000000 % 2 ^ 32)]) ∧
      (win = 0 → Sets (.tbcpStrobe p into) s (d.setPort k sampled) [up TBC_CNT_STB_COUNT 1, up TBC_CNT_STB_UNUSED_COUNT 1]) ∧
      (win = 1 → d.get (TBC_STATUS_CLK_OK k) = 1 → Sets (.swapWindowClose p false) s (d.setPort k { y with due := some true })
        [(TBC_STATUS_WIN_OPEN k, 0)]) ∧
      (win = 1 → d.get (TBC_STATUS_CLK_OK k) = 0 → Sets (.swapWindowClose p false) s (after y.live) (swapped true) (ev true))) ∧
    (y.due = some quiet → y.swap = some (slot, sym) → Sets (.swapWindowClose p true) s (after en) (swapped quiet) (ev quiet)) ∧
    (y.due ≠ some true → Sets (.tbcpClkLost p) s d [(TBC_STATUS_CLK_OK k, 0), (TBC_EV_CAUSE_CLK_LOST k, 1)] [154 + 4 * k]) ∧
    (y.due = none → Sets (.tbcpClkOk p) s (d.setPort k sampled) [(TBC_STATUS_CLK_OK k, 1), (TBC_EV_CAUSE_CLK_OK k, 1)]
      [154 + 4 * k]) ∧
    (let ctrl := [(TBC_CTRL_EN k, bits v.toNat 0 0), (TBC_CTRL_EV_SWAP k, bits v.toNat 1 1), (TBC_CTRL_CARRIER k, bits v.toNat 13 8)]
     (v.getLsbD 0 = true → Sets (.tbcCtrlWrite p v false) s d ctrl) ∧
     (v.getLsbD 0 = false → Sets (.tbcCtrlWrite p v false) s (d.setPort k { y with swap := none, due := none })
       (ctrl ++ [(TBC_STATUS_PENDING k, 0), (TBC_STATUS_WIN_OPEN k, 0)]))) ∧
    (let moved := d.setPort k { y with addr := i.val, data := at_ y.live d sel i.val }
     (y.live = false → ∀ ecc, exec (.tbcpAddrChange p i ecc false) s = .next ⟨moved, s.pending⟩) ∧
     (y.live = true → Sets (.tbcpAddrChange p i 0 false) s moved [] ∧
       Sets (.tbcpAddrChange p i 1 false) s moved [up TBC_CNT_ECC_CE_COUNT 1] ∧
       Sets (.tbcpAddrChange p i 2 false) s moved [(TBC_EV_CAUSE_ECC_UE k, 1)] [153 + 4 * k]))

/-! ### The Dispatcher and the cores' items (R338 to R368, R386 to R405) -/

/-- R341, R342, R367, R368: a submission that no check of R342 refuses is accepted: the item of the descriptor enters the store
WAITING at the next sequence number, with the entry's generation, and the answer is its handle; a release edge that has
occurred acts at once. A refused one stores nothing: its answer is the code with bit 31 set, and DSP_ERR and the cause say
who and why; code 1 also raises FULL. A read of DSP_HSUB_GO submits the same way from the DSP_HSUB registers. -/
def Obligations.ItemSubmission : Prop :=
  ∀ (s : State) (r : Req) (p : Fin 20) (inl : BitVec 64) (f : Bool) (idx : Fin 40960) (k c : Nat) (bs : List Byte),
    let d := s.dev
    let submits := fun (q a : Nat) (z g : Bool) (cmd : Instr) (tells : Nat → Out) =>
      let die := d.panelDie q
      let entry := d.freeEntry die idx.val 40960
      let why := d.refusal r q a z g (decide (4096 ≤ (d.panelItems q).length) || entry.isNone ||
        decide (40960 ≤ d.storeUsed die))
      (why = none → entry = some k → d.fetch a 64 = some bs →
        let gen := (d.item k).gen
        let u := { d.setItem k { d.movedTo (parseItem q bs) with gen := gen, accSeq := d.dsp.seq } with
          dsp := { d.dsp with seq := d.dsp.seq + 1 } }
        exec cmd s = .next ⟨((u.release k).schedule).emit (tells (k + 2 ^ 17 * gen)), s.pending⟩) ∧
      (why = some c → Does cmd s (fun t =>
        d.Sets t ([(DSP_ERR_CODE, c), (DSP_ERR_PANEL, q), (DSP_ERR_REQ, reqCode r), (DSP_EV_CAUSE_REFUSED die, 1)] ++
          (if c = 1 then [(DSP_EV_CAUSE_FULL die, 1)] else [])) (373 :: (if c = 1 then [374] else [])) ∧
        t.out.getLast? = some (tells (2 ^ 31 + c))))
    let lo := tabGet (fun _ => 0) d.dsp.hsubLo (reqNum r)
    let hi := tabGet (fun _ => 0) d.dsp.hsubHi (reqNum r)
    submits p.val (bits inl.toNat 47 0) (bits inl.toNat 63 48 == 0) f (.submit r p inl f idx)
      (fun n => .resp (d.reqNode r) (okInl n)) ∧
    submits (bits hi 20 16) (lo + 2 ^ 32 * bits hi 15 0) true f (.hostSubmit r f idx)
      (fun n => .regRead (reqNum r) DSP_HSUB_GO n)

/-- R34, R343 to R345, R353, R354, R356, R358, R359: at its release edge a WAITING item is released, a CONTROL item at level
15, and READY once its DEPS are 0, every item released at one edge at once; a decrement of DEPS that makes them 0 does the same, and one whose handle matches no item
counts as STALE, EV379. CANCEL ends an item CANCELLED; a due edge has the expiry of R359. A check takes an item near its due
tick to level 15, EV377. At a base tick midpoint, once in a tick, a panel
with floor credit left and no floor dispatch yet pre-empts for its gleaner item where it may, and the others stand. The reports of engines and
CX_DONE end items, and a CX_DONE waits for the item's far stores. -/
def Claims.ItemProgress : Prop :=
  ∀ (s : State) (h : Handle) (v : Word) (n into : Nat) (g : Fin 6) (e : Fin 32) (f : Completion) (fs : List Completion)
      (c : Fin 20) (j : Fin 8) (status : BitVec 16) (key : Nat),
    let d := s.dev
    let k := h.toNat % 2 ^ 17
    let i := d.item k
    let kv := v.toNat % 2 ^ 17
    let iv := d.item kv
    let level := if i.cls = 4 then 15 else i.level
    let mid := { d with dsp := { d.dsp with mid := true } }
    let checked := { d with dsp := { d.dsp with checkAt := n } }
    let stale := iv.st = .empty ∨ bits v.toNat 20 17 ≠ iv.gen ∨ iv.deps = 0
    let goes := fun (cmd : Instr) (u : Device) => exec cmd s = .next ⟨u.schedule, s.pending⟩
    (bits h.toNat 20 17 = i.gen → i.st = .waiting → i.released = false → d.releasePast i = true →
      goes (.releaseTick h) ((d.items.map (·.1)).foldl (fun u q => u.release q) d)) ∧
    (bits h.toNat 20 17 = i.gen → i.st = .waiting → i.released = false → d.releasePast i = true →
      (∀ q ≠ k, (d.item q).st ≠ .waiting ∨ (d.item q).released = true ∨ d.releasePast (d.item q) = false) →
      (i.deps ≠ 0 → goes (.releaseTick h) (d.setItem k { i with released := true, level := level })) ∧
      (i.deps = 0 → goes (.releaseTick h) (d.setItem k
        { i with released := true, level := level, st := .ready, readySeq := d.dsp.seq, checks := 0 }))) ∧
    (¬ stale → iv.deps ≠ 1 ∨ iv.st ≠ .waiting ∨ iv.released = false →
      goes (.depDec v) (d.setItem kv { iv with deps := iv.deps - 1 })) ∧
    (¬ stale → iv.deps = 1 → iv.st = .waiting → iv.released = true → goes (.depDec v) (d.setItem kv
      { iv with deps := 0, st := .ready, readySeq := d.dsp.seq, checks := 0 })) ∧
    (stale → ∃ u, d.Sets u [(DSP_CNT_STALE_COUNT (bits v.toNat 16 16), (d.get (DSP_CNT_STALE_COUNT (bits v.toNat 16 16)) + 1) % 2 ^ 32),
        (DSP_EV_CAUSE_STALE (bits v.toNat 16 16), 1)] [379] ∧ goes (.depDec v) u) ∧
    (bits v.toNat 20 17 = iv.gen → iv.st = .waiting ∨ iv.st = .ready → d.ordered kv = false →
      goes (.cancel v) (d.endItem kv 5 0)) ∧
    (bits h.toNat 20 17 = i.gen → i.st ≠ .empty → d.duePast i = true → i.overrun = false →
      goes (.workItemExpiry h) ((d.expireItem k).engineExpiries)) ∧
    (d.items = [(k, i)] → i.st = .ready ∨ i.st = .preempted ∨ i.st = .waiting → i.nodue = false → i.level ≠ 15 →
      0 < i.dur → 4 * (d.toDue i - n) < 5 * (i.dur : Int) → goes (.ripenCheck n)
        (((checked.setItem k { i with level := 15 }).count (DSP_CNT_URGENT_COUNT (d.panelDie i.panel)) 1).dspCause DSP_EV_CAUSE_URGENT
          (d.panelDie i.panel) 377)) ∧
    goes (.ripenCheck n) ((d.items.map (·.1)).foldl (fun d k => d.ripen n k) (d.chargeFloor n)) ∧
    exec .baseTickMidpoint s =
      .next ⟨if d.dsp.mid then d else (List.range 20).foldl (fun u p => u.midFloor p) mid, s.pending⟩ ∧
    (d.dsp.mid = false → (∀ p < 20, d.panelRuns p = false ∨ d.on (DSP_FLOOR_CREDIT_NS p) = false ∨
        tabGet (fun _ => false) d.dsp.floorDone p = true) → exec .baseTickMidpoint s = .next ⟨mid, s.pending⟩) ∧
    ((d.engine (engKey g.val e.val)).fin = f :: fs →
      let u := d.setEngine (engKey g.val e.val) { d.engine (engKey g.val e.val) with fin := fs }
      ((d.item f.item).st = .queued → f.status ≠ 3 ∨ g.val = 0 ∨ g.val = 3 ∨ g.val = 4 →
        goes (.engineCompletion g e into) ((u.endItem f.item f.status f.eras).engineExpiries)) ∧
      ((d.item f.item).st ≠ .queued → goes (.engineCompletion g e into) u.engineExpiries) ∧
      goes (.engineCompletion g e into) ((u.engineDone g.val into f).engineExpiries)) ∧
    (d.get (CX_STATUS_PRIV c j) = 2 → (d.core c j).item = some key →
      (d.storesOut c j = true → exec (.cxDoneWrite c j status) s =
        .next ⟨d.setCore c j { d.core c j with done := some status.toNat }, s.pending⟩) ∧
      (d.storesOut c j = false →
        ∃ u, (d.setCore c j { d.core c j with item := none, failed := false, done := none }).Sets u
          [(CX_INT_PEND_PEND c j, d.get (CX_INT_PEND_PEND c j) % 8), (CX_STATUS_IDLE c j, 1), (CX_STATUS_VLIVE c j, 0)] [] ∧
        goes (.cxDoneWrite c j status) ((u.endItem key
          (if (d.item key).overrun then 6 else if (d.core c j).failed ∨ status ≠ 0 then 1 else 0) 0).coreNext c j)))

/-- R386 to R388, R393: an enabled interrupt that is pending enters machine mode before the oldest uncommitted bundle,
DISPATCH at WAIT: CX_EPC holds that bundle's address, EPRIV and EIE the mode and the enable left, IE is 0, CX_CAUSE says the
code, and the handler runs at CX_MVBASE + 64 × code; EVENT and SOFT stay pending. R349, R394: a core ordered to pre-empt
saves what it runs in its newest frame and enters its dispatch handler with the new item. R373: a far access answered FENCED
or SUSPENDED is tried again. R403 to R406: an operation of the coprocessor that completes writes its outputs and
counts; with I it raises its core's interrupt, and the next one starts. R386: a 1
written to CX_INT_PEND.SOFT sets it, and by the core itself clears it. -/
def Claims.CoreEvents : Prop :=
  ∀ (s : State) (c : Fin 20) (k : Fin 8) (n : Fin 5) (m : Fin 17) (ecc : Fin 4) (key next : Nat) (q : FarReq) (o : CpOp)
      (r : Req) (v : Word),
    let d := s.dev
    let x := d.core c k
    let masked := d.get (CX_STATUS_PRIV c k) = 2 ∧ d.get (CX_STATUS_IE c k) = 0
    let lives := x.halted = false ∧ x.dead = false ∧ d.domSt c = pRun ∧ d.coreFenced c k = false
    let vector := fun (u : Device) (code : Nat) => u.get (CX_STATUS_PRIV c k) = 2 ∧
      u.get (CX_STATUS_IE c k) = 0 ∧ u.get (CX_CAUSE_CODE c k) = code ∧ u.get (CX_CAUSE_INT c k) = 1 ∧
      u.get (CX_CAUSE_DETAIL c k) = 0 ∧
      (u.core c k).pc = d.get (CX_MVBASE_BASE c k) / 2048 * 2048 + 64 * code ∧ (u.core c k).loops = []
    (lives → x.between = true → x.waiting = true ∧ n.val = 0 ∨ n.val ≠ 0 ∧ ¬ masked → x.pc ≤ 0x17FE0 →
      bit (d.intPend c k) n.val = true → bit (d.get (CX_INT_EN_EN c k)) n.val = true →
      Does (.interruptEntry c k n) s (fun t => vector t (16 + n.val) ∧
        t.get (CX_STATUS_EPRIV c k) = d.get (CX_STATUS_PRIV c k) ∧
        t.get (CX_STATUS_EIE c k) = d.get (CX_STATUS_IE c k) ∧ t.get (CX_EPC_PC c k) = x.pc ∧
        (t.core c k).mLoops = x.loops ∧ (t.core c k).regs = x.landed.regs ∧ t.mem = d.mem ∧ t.items = d.items ∧
        t.get (CX_INT_PEND_SOFT c k) = d.get (CX_INT_PEND_SOFT c k) ∧
        t.get (CX_INT_PEND_PEND c k) = (if n.val = 0 ∨ n.val = 2 ∨ n.val = 3
          then putBits (d.get (CX_INT_PEND_PEND c k)) n.val n.val 0 else d.get (CX_INT_PEND_PEND c k)))) ∧
    (lives → x.between = true → ¬ masked → x.item = some key → x.order = some next → key ≠ next →
      (∀ g ∈ x.frames, g.item ≠ next) →
      ∃ u g, exec (.preemptionEntry c k) s = .next ⟨u.schedule, s.pending⟩ ∧ vector u 16 ∧
        (u.core c k).item = some next ∧ (u.core c k).order = none ∧ (u.core c k).frames = g :: x.frames ∧
        g.item = key ∧ g.pc = x.pc ∧ g.loops = x.loops ∧ g.regs = x.landed.regs ∧
        (u.item key).st = .preempted ∧ (u.item key).preempts = (d.item key).preempts + 1 ∧ (u.item next).st = .running ∧
        u.get (CX_DARG_LO_ARG c k) = (d.item next).arg % 2 ^ 32) ∧
    (m.val < 16 → x.stores[m.val]? = some q → q.fresh = false → exec (.farRetry c k m) s =
      .next ⟨((d.setCore c k { x with stores := x.stores.eraseIdx m }).farStore c k q).coreOn c k, s.pending⟩) ∧
    (m.val = 16 → x.load = some q → q.fresh = false →
      exec (.farRetry c k m) s = .next ⟨(d.farLoad c k q).coreOn c k, s.pending⟩) ∧
    ((∀ j < k.val, (d.core c j).cpRun = none) → x.cpRun = some o →
      let u := (d.cpWrite c k o ecc.val).count (CLU_CP_CNT_OPS_COUNT c) 1
      let w := u.setCore c k { u.core c k with cpRun := none, cpWait := (u.core c k).cpWait && !o.w }
      let goes := fun (y : Device) =>
        exec (.cpComplete c ecc) s = .next ⟨(List.range 8).foldl (fun y j => y.bundleGo c j) (y.cpNext c), s.pending⟩
      (o.i = false ∨ ecc.val = 3 → goes w) ∧
      (o.i = true → ecc.val ≠ 3 → goes (w.put (CX_INT_PEND_PEND c k) (putBits (w.get (CX_INT_PEND_PEND c k)) 2 2 1)))) ∧
    (v.getLsbD 4 = false → exec (.softInterruptSet r c k v) s = .next s) ∧
    (v.getLsbD 4 = true → r ≠ .core c k → Sets (.softInterruptSet r c k v) s d [(CX_INT_PEND_SOFT c k, 1)]) ∧
    (v.getLsbD 4 = true → r = .core c k → Sets (.softInterruptSet r c k v) s d [(CX_INT_PEND_SOFT c k, 0)])

/-- Items from release to their end, and the interrupts, pre-emptions and coprocessor ends of cores: the claims above. -/
def Obligations.ItemsAndCores : Prop := Claims.ItemProgress ∧ Claims.CoreEvents

/-! ### DMA (R434 to R452) -/

/-- R434, R435, R446 to R450, R452: a request line adds 1 to PENDING of the one channel of its die that selects it, and at 255
it is lost with REQ_OVF; DMA_SWREQ pulses lines 248 to 255. A write of a shadow clears COMMIT; a write of COMMIT stores it.
A write of CTRL stores its bits, and a rise of EN is a hand-over, except of a fenced channel. A tick hand-over without COMMIT
counts, and reports a shadow written but not committed; a channel makes one hand-over at an edge. A barrier that completes, an
abort, a due edge, a grant and a retry go on to the end, the hand-over or the burst that the rules give. -/
def Claims.DmaCommands : Prop :=
  ∀ (s : State) (line : Fin 512) (e : Fin 8) (c j : Fin 32) (i : Fin 3) (v : Word) (n : Fin 65) (ce : Option (Fin 160))
      (ue : Bool) (bs : List Byte),
    let d := s.dev
    let x := d.dma e c
    let f : MemFact := ⟨ce.map (·.val), ue, []⟩
    let selects := fun (e c : Nat) => d.on (DMA_CH_CFG_REQ_EN e c) = true ∧ d.get (DMA_CH_CFG_REQSEL e c) = line.val
    let none' := fun (e c : Nat) => ∀ q < 4, ∀ k < 32, selects (4 * (line.val / 256) + q) k → 4 * (line.val / 256) + q = e ∧ k = c
    let pend := d.get (DMA_CH_STATUS_PENDING e c)
    let caused := fun (g : Fld) => [(g, 1), (DMA_ENG_EV_PEND_CH e, (d.get (DMA_ENG_EV_PEND_CH e)).lor (2 ^ c.val))]
    let goes := fun (cmd : Instr) (u : Device) => exec cmd s = .next ⟨u.schedule, s.pending⟩
    let ctrl := [(DMA_CH_CTRL_HALT_ON_ERR e c, bits v.toNat 1 1), (DMA_CH_CTRL_WAKE e c, bits v.toNat 2 2),
      (DMA_CH_CTRL_EN e c, bits v.toNat 0 0)]
    let hand := [(DMA_CH_STATUS_HOCOUNT e c, (d.get (DMA_CH_STATUS_HOCOUNT e c) + 1) % 2 ^ 16)]
    let noted := d.setDma e c { x with edgeOver := some d.time.edges }
    let rested := noted.setDma e c { x with edgeOver := some d.time.edges, written := false }
    let edge := d.on (DMA_CH_CFG_TICK_EN e c) = true ∧ d.get (DMA_CH_STATUS_STATE e c) ≠ dFenced ∧
      (d.on (DMA_CH_CFG_BASETICK e c) = true ∨ d.onCarrierTick (d.carrierR (d.get (DMA_CH_CFG_CARRIER e c))) = true)
    let first := x.edgeOver ≠ some d.time.edges
    let revived := fun (z : Device) => if z.get (DMA_CH_STATUS_STATE e c) = dHalted then z.put (DMA_CH_STATUS_STATE e c) dIdle else z
    let risen := fun (z : Device) => if d.on (DMA_CH_CTRL_EN e c) = false ∧ z.get (DMA_CH_STATUS_STATE e c) ≠ dFenced then
      (z.dmaAbandonFor e c).handOver e c Option.none else z
    let started := d.dmaAgain e
    (none' e c → selects e c → e.val / 4 = line.val / 256 →
      (pend < 255 → exec (.dmaRequestPulse line) s =
        .next ⟨(d.put (DMA_CH_STATUS_PENDING e c) (pend + 1)).dmaShow e c, s.pending⟩) ∧
      (pend = 255 → Sets (.dmaRequestPulse line) s d (caused (DMA_CH_EV_CAUSE_REQ_OVF e c)) [163 + 8 * e])) ∧
    ((∀ q < 4, ∀ k < 32, ¬ selects (4 * (line.val / 256) + q) k) → exec (.dmaRequestPulse line) s = .next s) ∧
    (exec (.dmaSwreq e v) s = .next ⟨((List.range 8).filter (bit v.toNat)).foldl
      (fun (d : Device) q => d.dmaPulse (256 * (e / 4) + 248 + q)) d, s.pending⟩) ∧
    Sets (.shadowWrite e c i v) s (d.setDma e c { x with written := true })
      [(match i.val with
        | 0 => (DMA_CH_SH_DESC_LO_ADDR e c, v.toNat)
        | 1 => (DMA_CH_SH_DESC_HI_ADDR e c, v.toNat % 2 ^ 16)
        | _ => (⟨DMA_CH_SH_CFG e c, 31, 0⟩, v.toNat % 2 ^ 22)), (DMA_CH_SH_COMMIT_COMMIT e c, 0)] ∧
    Sets (.commitShadow e c v) s d [(DMA_CH_SH_COMMIT_COMMIT e c, v.toNat % 2)] ∧
    (v.getLsbD 3 = false ∨ x.desc = none → ∃ u,
      d.Sets u (ctrl ++ [(DMA_CH_STATUS_STATE e c, if v.getLsbD 0 = true ∧ d.get (DMA_CH_STATUS_STATE e c) = dHalted then dIdle
        else d.get (DMA_CH_STATUS_STATE e c))]) [] ∧
      (v.getLsbD 0 = false ∨ d.on (DMA_CH_CTRL_EN e c) = true ∨ d.get (DMA_CH_STATUS_STATE e c) = dFenced →
        goes (.channelEnable e c v) u) ∧
      (v.getLsbD 0 = true → d.on (DMA_CH_CTRL_EN e c) = false → d.get (DMA_CH_STATUS_STATE e c) ≠ dFenced →
        goes (.channelEnable e c v) ((u.dmaAbandonFor e c).handOver e c none))) ∧
    (v.getLsbD 3 = true → x.desc = some bs → ∃ u, d.Sets u (ctrl.take 2) [] ∧
      let over' := (u.dmaAbandon e c).handOver e c (some (nextOf bs))
      (v.getLsbD 0 = false → goes (.channelEnable e c v) (over'.put (DMA_CH_CTRL_EN e c) 0)) ∧
      (v.getLsbD 0 = true → goes (.channelEnable e c v) (risen (revived (over'.put (DMA_CH_CTRL_EN e c) 1))))) ∧
    (x.desc = some bs → goes (.abortChannel e c) ((d.dmaAbandon e c).handOver e c (some (nextOf bs)))) ∧
    (edge → first → d.get (DMA_CH_SH_COMMIT_COMMIT e c) = 0 →
      (x.written = false → ∃ u, rested.Sets u hand [] ∧ goes (.tickHandover e c) u) ∧
      (x.written = true → ∃ u, rested.Sets u (hand ++ (DMA_CH_STATUS_COMMIT_MISSED e c, 1) ::
        caused (DMA_CH_EV_CAUSE_COMMIT_MISSED e c)) [164 + 8 * e] ∧ goes (.tickHandover e c) u)) ∧
    (edge → first → goes (.tickHandover e c) ((noted.dmaAbandonFor e c).handOver e c none)) ∧
    (¬ (edge ∧ first) → exec (.tickHandover e c) s = .next s) ∧
    (d.get (DMA_CH_STATUS_STATE e c) = dBarrier → goes (.barrierComplete e c) (d.dmaDone e c)) ∧
    (d.dmaLate e c = true → goes (.descriptorExpiry e c) (noted.dmaExpire e c)) ∧
    (d.on (DMA_ENG_STATUS_FENCED e) = false → started.dmaPick e = some j → goes (.burst e n ce ue) (started.dmaGrant e j n f)) ∧
    (d.on (DMA_ENG_STATUS_FENCED e) = false → started.dmaPick e = none → goes (.burst e n ce ue) started) ∧
    (x.stalled = true → d.lwk.held.any (fun h => h.2.channel == some (32 * e.val + c.val)) = false → goes (.dmaRetry e c ce ue) (d.dmaGrant e c 0 f))

/-- R450: how a descriptor in progress ends. Its open destination tiles are sealed with AIS and it is counted; the channel is
idle with nothing remaining (its DEP word here asks for no decrement). Completion with IRQ raises DONE, expiry
discards the data of the requests that wait, clears PENDING and raises EXPIRED, an error keeps its code and RESP and raises ERROR; a hand-over follows, except that an
error leaves a channel with HALT_ON_ERR halted. -/
def Claims.DmaEnds : Prop :=
  ∀ (d : Device) (e c code resp : Nat) (bs : List Byte), e < 8 → c < 32 → code < 16 → resp < 8 →
    (d.dma e c).desc = some bs →
    (wordAt bs 8).testBit 31 = false →
    let sealed := d.dmaSeal e c
    let n := sealed.get (DMA_CH_CNT_DESC_COUNT e c)
    let closed := [(DMA_CH_CNT_DESC_COUNT e c, (n + 1) % 2 ^ 32), (DMA_CH_STATUS_STATE e c, dIdle), (DMA_CH_REMAIN_BYTES e c, 0)]
    let gone := sealed.setDma e c (sealed.dma e c).clear
    let raised := fun (g : Fld) => [(g, 1), (DMA_ENG_EV_PEND_CH e, (sealed.get (DMA_ENG_EV_PEND_CH e)).lor (2 ^ c))]
    let next := some (nextOf bs)
    (∃ u, gone.Sets u (closed ++ (if (wordAt bs 0).testBit 17 then raised (DMA_CH_EV_CAUSE_DONE e c) else []))
        (if (wordAt bs 0).testBit 17 then [160 + 8 * e] else []) ∧
      d.dmaDone e c = u.handOver e c next) ∧
    (∃ u v, gone.Sets u closed [] ∧
      let lost := if u.get (DMA_CH_CFG_REQ_EN e c) = 1 then
        u.dropSource (u.get (DMA_CH_CFG_REQSEL e c)) (u.get (DMA_CH_STATUS_PENDING e c)) else u
      lost.Sets v [(DMA_CH_STATUS_PENDING e c, 0), (DMA_CH_EV_CAUSE_EXPIRED e c, 1),
        (DMA_ENG_EV_PEND_CH e, (lost.get (DMA_ENG_EV_PEND_CH e)).lor (2 ^ c))] [162 + 8 * e] ∧
      d.dmaExpire e c = v.handOver e c next) ∧
    (∃ u, gone.Sets u (closed ++ raised (DMA_CH_EV_CAUSE_ABANDONED e c)) [167 + 8 * e] ∧ d.dmaAbandon e c = u) ∧
    (sealed.get (DMA_CH_CTRL_HALT_ON_ERR e c) = 0 →
      ∃ u, gone.Sets u (closed ++ [(DMA_CH_ERR_RESP e c, resp), (DMA_CH_ERR_CODE e c, code)] ++
          raised (DMA_CH_EV_CAUSE_ERROR e c)) [161 + 8 * e] ∧
        d.dmaFail e c code resp = u.handOver e c next) ∧
    (sealed.get (DMA_CH_CTRL_HALT_ON_ERR e c) = 1 →
      gone.Sets (d.dmaFail e c code resp) ([(DMA_CH_CNT_DESC_COUNT e c, (n + 1) % 2 ^ 32), (DMA_CH_STATUS_STATE e c, dHalted),
        (DMA_CH_REMAIN_BYTES e c, 0), (DMA_CH_ERR_RESP e c, resp), (DMA_CH_ERR_CODE e c, code)] ++
          raised (DMA_CH_EV_CAUSE_ERROR e c)) [161 + 8 * e])

/-- DMA request lines, shadows, hand-overs, and how a descriptor ends: the claims above. -/
def Obligations.DmaChannels : Prop := Claims.DmaCommands ∧ Claims.DmaEnds

/-! ### DRAM (R457 to R477) -/

/-- R460 to R467, R474: a channel serves the waiting request its priority and age name; a retired one answers TARGET_ERR.
A refresh is counted where a burst postponed it; MR4 above 85 °C halves the interval; a calibration stores its margin and
temperature and makes retraining due below MARGIN_MIN. Retraining takes the channel from service until a slice finds a
setting, RETRAIN and then RECOVERED; after 400 slices the channel is retired, and with a reserve its blocks are redirected
at the next edge. The scrubbers correct or report what they read. -/
def Claims.DramChannels : Prop :=
  ∀ (s : State) (k : Fin 6) (sub : Fin 2) (b : Bool) (mg tp : BitVec 8) (a : BitVec 32) (p : Fin 160) (c : Fin 20)
      (w : Fin 2097152) (z : Fin 72) (ce : Option (Fin 160)) (ue : Bool) (m : Packet),
    let d := s.dev
    let st := d.get (DRC_CH_STATUS_STATE k)
    let q := tabGet (fun _ => []) d.dram.queue k
    let took := { d with dram := { d.dram with queue := tabSet (fun _ => []) d.dram.queue k (q.erase m) } }
    let undue := { d.dram with due := d.dram.due.filter (· ≠ k.val) }
    let n := tabGet (fun _ => 0) d.dram.slices k
    let sliced := { d with dram := { d.dram with slices := tabSet (fun _ => 0) d.dram.slices k (n + 1) } }
    let goes := fun (cmd : Instr) (u : Device) => exec cmd s = .next ⟨u, s.pending⟩
    let kept := d.put DRC_MAP_RETIRED (d.get DRC_MAP_RETIRED + 2 ^ k.val)
    let at' := 64 * a.toNat
    let off := 8 * w.val
    (d.dramNext k = none → exec (.dramAccess k ce ue) s = .next s) ∧
    (d.dramNext k = some m →
      (d.chanRetired k = true → goes (.dramAccess k ce ue) (took.reply m targetErr)) ∧
      (d.chanRetired k = false → st ≠ chUp → st ≠ chRetraining → exec (.dramAccess k ce ue) s = .next s) ∧
      (d.chanRetired k = false → st = chUp ∨ st = chRetraining →
        let r := took.serve (d.askOf m) ⟨ce.map (·.val), ue, []⟩
        goes (.dramAccess k ce ue) (r.1.reply m r.2))) ∧
    goes (.refresh k sub false) d ∧
    Sets (.refresh k sub true) s d [(DRC_CH_CNT_REF_POST_COUNT k, (d.get (DRC_CH_CNT_REF_POST_COUNT k) + 1) % 2 ^ 32)] ∧
    Sets (.mr4Poll k b) s d [(DRC_CH_STATUS_REF2X k, if b then 1 else 0)] ∧
    (st = chUp ∨ st = chRetraining → Sets (.calibration k mg tp) s
      { d with dram := { d.dram with
        due := if mg.toNat < d.get DRC_CTRL_MARGIN_MIN ∧ k.val ∉ d.dram.due then d.dram.due ++ [k.val] else d.dram.due } }
      [(DRC_CH_CNT_CAL_COUNT k, (d.get (DRC_CH_CNT_CAL_COUNT k) + 1) % 2 ^ 32), (DRC_CH_STATUS_MARGIN k, mg.toNat),
        (DRC_CH_STATUS_TEMP k, tp.toNat)]) ∧
    (k.val ∈ d.dram.due →
      (st = chUp → Sets (.dramRetrain k) s { d with dram := { undue with slices := tabSet (fun _ => 0) d.dram.slices k 0 } }
        [(DRC_CH_STATUS_STATE k, chRetraining), (DRC_CH_EV_CAUSE_RETRAIN k, 1)] [225 + 2 * k]) ∧
      (st ≠ chUp → exec (.dramRetrain k) s = .next s)) ∧
    (st = chRetraining → n < 400 → goes (.retrainSlice k false) sliced ∧
      Sets (.retrainSlice k true) s sliced [(DRC_CH_STATUS_STATE k, chUp), (DRC_CH_EV_CAUSE_RECOVERED k, 1)] [225 + 2 * k]) ∧
    (st = chRetraining → 400 ≤ n → goes (.channelRetire k) (d.dramRetire k) ∧
      (d.chanRetired k = false → q = [] → kept.dramReserve = true → d.get DRC_PPR_STATUS_STATE ≠ 2 →
        (∀ i < 16, d.get (DRC_CT_W2_STATE i) = 0 ∨ d.get (DRC_CT_W1_CHANNEL i) ≠ k.val) →
        Sets (.channelRetire k) s
          { d with dram := { undue with queue := tabSet (fun _ => []) d.dram.queue k [] } }
          [(DRC_MAP_RETIRED, d.get DRC_MAP_RETIRED + 2 ^ k.val), (DRC_CH_STATUS_STATE k, chRetired),
            (FEC_SB_GEN_GEN, (d.get FEC_SB_GEN_GEN + 1) % 256), (DRC_CH_EV_CAUSE_RETIRED k, 1), (DRC_MAP_REDIRECT, k.val)]
          [225 + 2 * k])) ∧
    (d.get DRC_MAP_REDIRECT = k.val → d.dram.redirect = 7 → Does .redirectApply s (fun t =>
      t = { d with mem := t.mem, dram := t.dram } ∧ t.dram = { d.dram with redirect := k.val, unread := t.dram.unread } ∧
      (∀ x, (x < 2 ^ 38 ∧ (d.dramMap x).1 = k.val) → x ∉ t.dram.unread ∧ ∀ y, (x, y) ∉ t.mem) ∧
      (∀ x, ¬ (x < 2 ^ 38 ∧ (d.dramMap x).1 = k.val) →
        (x ∈ t.dram.unread ↔ x ∈ d.dram.unread) ∧ ∀ y, (x, y) ∈ t.mem ↔ (x, y) ∈ d.mem))) ∧
    (d.scrubbed at' = true → d.chanLive (d.dramMap at').1 = true →
      goes (.patrolScrub a ce true) (d.dramUe at' noReq true) ∧
      (d.unreadable at' 64 = false → goes (.patrolScrub a (some p) false) (d.dramCe at' p false) ∧
        goes (.patrolScrub a none false) d)) ∧
    (bit (d.get DRC_CL_SCRUB_EN) c = true → cluOffset off = true →
      goes (.clusterScrub c w (some z) true) (d.ueLog off (32 + c) true) ∧
      goes (.clusterScrub c w (some z) false) (d.cluCe c off z false) ∧ goes (.clusterScrub c w none false) d)

/-- R472, R475, R476: a write of DRC_PPR_CTRL with GO asks for the repair of the row that DRC_PPR_ADDR names, and an address that
no working channel holds ends with BAD_ADDR. At the window the channel is quiesced; a retired channel and a bank group whose
resource is used end it. A repair that completes brings the channel back to where it was and raises PPR_DONE. A write of DRC_CT_FREE
frees a PERSISTENT entry, all of whose words become 0. -/
def Claims.DramRepair : Prop :=
  ∀ (s : State) (r : Req) (v : Word),
    let d := s.dev
    let a := d.get DRC_PPR_ADDR_LO_ADDR + 2 ^ 32 * d.get DRC_PPR_ADDR_HI_ADDR
    let row := d.dramRow a
    let k := d.dram.ppr
    let key := 8 * k + d.get DRC_PPR_STATUS_BANK / 4
    let ends := fun (n : Nat) => [(DRC_PPR_STATUS_STATE, 0), (DRC_PPR_STATUS_RESULT, n), (DRC_CH_EV_CAUSE_PPR_DONE k, 1)]
    let i := bits v.toNat 4 0
    let c := bits v.toNat 10 6
    let freed := fun (w0 w1 w2 w3 : Nat) => [(⟨w0, 31, 0⟩, 0), (⟨w1, 31, 0⟩, 0), (⟨w2, 31, 0⟩, 0), ((⟨w3, 31, 0⟩ : Fld), 0)]
    (v.getLsbD 0 = true → d.get DRC_PPR_STATUS_STATE = 0 →
      (d.dramEnd ≤ a ∨ d.chanRetired row.1 = true → Sets (.pprGo r v) s d [(DRC_PPR_STATUS_RESULT, 4)]) ∧
      (a < d.dramEnd → d.chanRetired row.1 = false → Sets (.pprGo r v) s { d with dram := { d.dram with ppr := row.1 } }
        [(DRC_PPR_STATUS_STATE, 1), (DRC_PPR_STATUS_BANK, row.2.1), (DRC_PPR_STATUS_ROW, row.2.2)])) ∧
    (k < 6 → d.get DRC_PPR_STATUS_STATE = 1 →
      (d.get (DRC_CH_STATUS_STATE k) = chRetired → Sets .pprWindow s d (ends 3) [225 + 2 * k]) ∧
      (d.get (DRC_CH_STATUS_STATE k) ≠ chRetired → key ∈ d.dram.used → Sets .pprWindow s d (ends 1) [225 + 2 * k]) ∧
      (d.get (DRC_CH_STATUS_STATE k) ≠ chRetired → key ∉ d.dram.used → Sets .pprWindow s
        { d with dram := { d.dram with pprWas := d.get (DRC_CH_STATUS_STATE k) } }
        [(DRC_PPR_STATUS_STATE, 2), (DRC_CH_STATUS_STATE k, chQuiesced)])) ∧
    (k < 6 → d.dram.pprWas < 8 → d.get DRC_PPR_STATUS_STATE = 2 →
      Sets (.pprDone false []) s d ((DRC_CH_STATUS_STATE k, d.dram.pprWas) :: ends 2) [225 + 2 * k] ∧
      ((∀ n < 16, d.get (DRC_CT_W2_STATE n) ≠ 2) → Sets (.pprDone true []) s
        { d with dram := { d.dram with used := d.dram.used ++ [key] }
                 hwd := { d.hwd with repairs := d.hwd.repairs ++ [a], dirty := true } }
        ((DRC_CH_STATUS_STATE k, d.dram.pprWas) :: ends 0) [225 + 2 * k])) ∧
    (v.getLsbD 5 = false → i < 16 → d.get (DRC_CT_W2_STATE i) = 2 → Sets (.ctFree r v) s d
      (freed (DRC_CT_W0 i) (DRC_CT_W1 i) (DRC_CT_W2 i) (DRC_CT_W3 i))) ∧
    (v.getLsbD 5 = true → c < 20 → i < 8 → d.get (DRC_CLCT_W2_STATE c i) = 2 → Sets (.ctFree r v) s d
      (freed (DRC_CLCT_W0 c i) (DRC_CLCT_W1 c i) (DRC_CLCT_W2 c i) (DRC_CLCT_W3 c i))) ∧
    (v.getLsbD 5 = false → 16 ≤ i ∨ d.get (DRC_CT_W2_STATE i) ≠ 2 → exec (.ctFree r v) s = .next s)

/-- DRAM service, refresh, calibration, retraining, retirement, scrubbing and repair: the claims above. -/
def Obligations.DramService : Prop := Claims.DramChannels ∧ Claims.DramRepair

/-! ### Heat, voltage and the power domains (R480, R487 to R502) -/

/-- R480, R488, R490, R493, R494: a calibration moves a rail's gain by at most 1 % toward its reading. A thermal sample stores the
sixteen temperatures, the largest and its sensor, and the state of R488, with the events of each state passed; a trip
stops everything. A measurement stores its margin, and with AVS_EN moves VSET up by 1 when short, AVS_LIMIT at 24, and down by 1
after 1000 surplus measurements, 10 after the last. A regulator's readings are stored; the third transaction that it does not
acknowledge sets PMB_NACK; a STATUS_WORD warns or, with a fault, is FATAL. -/
def Claims.HeatAndVoltage : Prop :=
  ∀ (s : State) (core sram : Option Int) (ts : List (BitVec 12)) (osc : List (BitVec 16)) (mg : BitVec 8) (short more : Bool)
      (r : Fin 8) (v i w : BitVec 16) (ws : List (Option (BitVec 16))),
    let d := s.dev
    let vals := ts.map (fun t => toSigned 12 t.toNat)
    let tj := maxInt vals
    let old := d.get ELP_BUDGET_TSTATE
    let new := d.thermNext tj
    let up1 := old = 0 ∧ new ≠ 0
    let dn1 := old ≠ 0 ∧ new = 0
    let up2 := old ≠ 2 ∧ new = 2
    let dn2 := old = 2 ∧ new ≠ 2
    let n := if more && !short then d.power.surplus + 1 else 0
    let v0 := d.get ELP_AVS_VSET
    let avs := fun (low : Nat) (fs : List (Fld × Nat)) (ps : List Nat) => ∃ tab, (∀ j < 64,
        tabGet (fun _ => 0) tab j = (osc.getD j 0).toNat) ∧
      Sets (.avsMeasure osc mg short more) s { d with power := { d.power with osc := tab, surplus := n, lowered := low } }
        ((ELP_AVS_MARGIN, mg.toNat) :: fs) ps
    let nacks := tabGet (fun _ => 0) d.power.nacks r + 1
    let heard := fun (k : Nat) => { d with power := { d.power with nacks := tabSet (fun _ => 0) d.power.nacks r k } }
    let silent := fun (cmd : Instr) => (nacks ≠ 3 → Sets cmd s (heard nacks) []) ∧
      (nacks = 3 → Sets cmd s (heard nacks) [(ELP_EV_CAUSE_PMB_NACK, 1)] [12])
    Sets (.gainCalibration core sram) s { d with ledger := { d.ledger with
      gainCore := match core with
        | some x => clampInt (d.ledger.gainCore - d.ledger.gainCore / 100) (d.ledger.gainCore + d.ledger.gainCore / 100) x
        | none => d.ledger.gainCore
      gainSram := match sram with
        | some x => clampInt (d.ledger.gainSram - d.ledger.gainSram / 100) (d.ledger.gainSram + d.ledger.gainSram / 100) x
        | none => d.ledger.gainSram } } [] ∧
    (ts.length = 16 → d.power.trip = false → Sets (.thermalSample ts) s (d.heat vals new)
      (ts.zipIdx.map (fun p => (ELP_TEMP_TEMP p.2, p.1.toNat)) ++ [(ELP_TEMP_MAX_TEMP, ofSigned 12 tj),
        (ELP_TEMP_MAX_SENSOR, vals.findIdx (· == tj)), (ELP_BUDGET_TSTATE, new)] ++
        (if up1 then [(ELP_EV_CAUSE_SOFT_ON, 1)] else []) ++ (if dn1 then [(ELP_EV_CAUSE_SOFT_OFF, 1)] else []) ++
        (if up2 then [(ELP_EV_CAUSE_STRETCH_ON, 1)] else []) ++ (if dn2 then [(ELP_EV_CAUSE_STRETCH_OFF, 1)] else []))
      ((if up1 ∨ dn1 then [8] else []) ++ (if up2 ∨ dn2 then [9] else []))) ∧
    (d.power.trip = false → Does .thermalTrip s (fun t => t.power.trip = true ∧ t.get ELP_TRIP_TRIPPED = 1 ∧
      (∀ p < 4, t.get (NET_PORT_STATUS_LINK p) = 0) ∧ (∀ h < 2, (t.host h).linkUp = false ∧ (t.host h).txOn = false) ∧
      (∀ l < 80, t.get (RLN_LANE_STATUS_STATE l) = lDisabled) ∧ t.mem = d.mem ∧ t.items = d.items)) ∧
    (osc.length = 64 →
      (d.get ELP_CTRL_AVS_EN = 0 → avs (d.power.lowered + 1) [] []) ∧
      (d.get ELP_CTRL_AVS_EN = 1 →
        (short = true → v0 < 24 → avs (d.power.lowered + 1) [(ELP_AVS_VSET, v0 + 1)] []) ∧
        (short = true → 24 ≤ v0 →
          avs (d.power.lowered + 1) [(ELP_AVS_VSET, 24), (ELP_EV_CAUSE_AVS_LIMIT, 1)] [13]) ∧
        (short = false → 1000 ≤ n → 9 ≤ d.power.lowered → 0 < v0 → avs 0 [(ELP_AVS_VSET, v0 - 1)] []) ∧
        (short = false → n < 1000 ∨ d.power.lowered < 9 ∨ v0 = 0 → avs (d.power.lowered + 1) [] []))) ∧
    (d.get (ELP_PMB_STATUS_PRESENT r) = 1 →
      Sets (.pmbusPoll r (some (v, i))) s (heard 0) [(ELP_PMB_V_MV r, v.toNat), (ELP_PMB_I_DA r, i.toNat)] ∧
      silent (.pmbusPoll r none) ∧ silent (.statusPoll r none) ∧
      ∃ u, (heard 0).Sets u ((ELP_PMB_STATUS_STATUS_WORD r, w.toNat) ::
          (if pmbWarn w.toNat then [(ELP_EV_CAUSE_PMB_WARN, 1)] else []) ++
          (if pmbFault w.toNat then [(ELP_EV_CAUSE_PMB_FAULT, 1)] else []))
          (if pmbWarn w.toNat ∨ pmbFault w.toNat then [12] else []) ∧
        exec (.statusPoll r (some w)) s =
          .next ⟨if pmbFault w.toNat then u.fatalRec 13 r 0 w.toNat 12 0x1F else u, s.pending⟩) ∧
    exec (.pmbAlert ws) s = .next ⟨(ws.take 8).zipIdx.foldl
      (fun (d : Device) p => d.pmbStatus p.2 (p.1.map (·.toNat))) d, s.pending⟩

/-- R495, R497 to R502: an idle domain whose policy allows it enters Doze from Run, and Retain from Doze, and the entry is
counted. A domain in Doze or Retain that a wake input calls returns to Run, and the packets held for it are delivered, in their
order and before any other passes its port; or the wake, or that of a domain brought up from Off, fails: FAILED, WAKE_FAIL with
its record, and the fence of its units. A write of ELP_DOM_HOLD stores it. -/
def Claims.PowerDomains : Prop :=
  ∀ (s : State) (m : Fin 64) (r : Req) (hi : Bool) (v : Word),
    let d := s.dev
    let st := d.get (ELP_DOM_STATE_STATE m)
    let policy := d.get (ELP_DOM_STATE_POLICY m)
    let entered := fun (n : Nat) =>
      [(ELP_DOM_STATE_STATE m, n), (ELP_DOM_CNT_ENTRIES m, (d.get (ELP_DOM_CNT_ENTRIES m) + 1) % 2 ^ 32)]
    let mine := d.lwk.held.filter (fun (p : Packet × HoldWhy) => p.2.domain == some m.val)
    let out := (mine.filter (fun (p : Packet × HoldWhy) => p.2.channel.isNone)).map
      (fun (p : Packet × HoldWhy) => Flight.mk p.1 [] 0 false false Option.none (some m.val))
    let synced := if m.val < 20 then (List.range 8).foldl (fun (d : Device) k => d.syncCycles m k) d else d
    (st = pRun → policy = 1 ∨ policy = 2 → d.domIdle m = true → Sets (.dozeEntry m) s synced (entered pDoze)) ∧
    (st = pDoze → policy = 2 → d.domIdle m = true → Sets (.retainEntry m) s synced (entered pRetain)) ∧
    (st = pDoze ∨ st = pRetain → d.domWake m = true →
      (∃ u, ({ d with
          power := { d.power with edge := d.power.edge.filter (· ≠ m.val) }
          lwk := { d.lwk with
            held := d.lwk.held.filter (fun (p : Packet × HoldWhy) => p.2.domain != some m.val)
            flights := d.lwk.flights ++ out } }).Sets u
          [(ELP_DOM_STATE_STATE m, pRun)] [] ∧
        exec (.domainReturn m) s = .next ⟨u.schedule, s.pending⟩)) ∧
    ((st = pDoze ∨ st = pRetain) ∧ d.domWake m = true ∨ st = pOff ∧ d.mayBring m = true →
      ∃ u, d.Sets u [(ELP_DOM_STATE_STATE m, pFailed), (ELP_EV_CAUSE_WAKE_FAIL, 1)] [13] ∧
        exec (.wakeFail m) s =
          .next ⟨(u.fault (Sys2Proof.Machine.report 6 aSpare 12 m 0 noReq 0 13)).domFence m, s.pending⟩) ∧
    Sets (.domHoldWrite r hi v) s d [(⟨if hi then ELP_DOM_HOLD_HI else ELP_DOM_HOLD_LO, 31, 0⟩, v.toNat)]

/-- Temperature, voltage, regulators and the power domains: the claims above. -/
def Obligations.VoltageAndDomains : Prop := Claims.HeatAndVoltage ∧ Claims.PowerDomains

/-! ### Events, faults, sparing (R505 to R525) -/

/-- R499, R505, R506, R508, R538: a pulse of an event whose flag is 0 sets it, and sends vector n to each host that the route names
while its link is up and MSI-X is enabled; a masked vector is held in the pending bits and sent at its unmask. A flag that is
set sends nothing. EVF_FORCE pulses the event it names. A write of 1 clears a flag, but not EV32's while the fault queue holds
a record, nor one whose event comes in the same cycle. -/
def Obligations.EventFabric : Prop :=
  ∀ (s : State) (n : Fin 384) (w : Fin 12) (v same : Word) (h : Fin 2),
    let d := s.dev
    let routed := fun (h : Nat) =>
      (if h = 0 then d.get (EVF_ROUTE_HOST_A n) else d.get (EVF_ROUTE_HOST_B n)) = 1 ∧ (d.host h).linkUp = true ∧
        (d.msix h).enable = true
    let sent := fun (h : Nat) => if routed h ∧ (d.msix h).masked n = false then [Out.msix h n] else []
    let held := fun (h : Nat) => if routed h ∧ (d.msix h).masked n = true then tabSet (fun _ => false) (d.msix h).pend n true
      else (d.msix h).pend
    let m := d.msix h
    let mask := tabSet (fun _ => true) m.mask n false
    let ready := tabGet (fun _ => false) m.pend n = true ∧ m.fmask = false ∧ m.enable = true ∧ (d.host h).linkUp = true
    (d.get (pendFld n) = 1 → exec (.eventPulse n) s = .next ⟨d.fastWake n, s.pending⟩) ∧
    (d.get (pendFld n) = 0 → Does (.eventPulse n) s (fun t => d.Sets t [] [n.val] ∧ t.out = d.out ++ sent 0 ++ sent 1 ∧
      t.power = (d.fastWake n).power ∧
      ∀ k < 2, t.msix k = { d.msix k with pend := held k })) ∧
    (bits v.toNat 8 0 = n.val → exec (.eventForce v) s = exec (.eventPulse n) s) ∧
    (384 ≤ bits v.toNat 8 0 → exec (.eventForce v) s = .next s) ∧
    Does (.evfPendClear w v same) s (fun t => t = { d with regs := t.regs } ∧ (∀ r, r ≠ EVF_PEND w → t.word r = d.word r) ∧
      ∀ k < 32, t.get (pendFld (32 * w + k)) =
        if same.getLsbD k = true then 1 else if v.getLsbD k = true ∧ ¬ (w.val = 1 ∧ k = 0 ∧ d.flt.queue ≠ []) then 0 else d.get (pendFld (32 * w + k))) ∧
    (ready → exec (.msixUnmask h n) s = .next ⟨(d.setMsix h { m with
      mask := mask, pend := tabSet (fun _ => false) m.pend n false }).emit (.msix h n), s.pending⟩) ∧
    (¬ ready → exec (.msixUnmask h n) s = .next ⟨d.setMsix h { m with mask := mask }, s.pending⟩)

/-- R510, R511, R513, R536: an error that is no recurrence and only logs enters a queue with room, with the next SEQ and TICK, and
pulses EV32 and its class's event. A record whose KIND and INDEX a queued one has is a recurrence; in an escalating class with
ESC_EN its action is the greater of its first action and one level above the highest queued, at most SPARE, and it is
taken. A pop of a queued SEQ removes that record, and another sets POP_MISS. A write of FLT_UNFENCE asks for a fenced engine's
release, and at the next edge it is released unless a record of it is queued. -/
def Obligations.FaultRecords : Prop :=
  ∀ (s : State) (cls : Fin 8) (kind : Fin 17) (index i : BitVec 8) (core : Option (Fin 8)) (nested : Bool) (addr : BitVec 48)
      (req : BitVec 10) (detail : Word) (event : BitVec 9) (v : BitVec 16),
    let d := s.dev
    let cmd := Instr.faultRecordEntry cls kind index core nested addr req detail event
    let first := if cls.val = 5 then (if nested then aSpare else aFence) else if cls.val = 6 then aSpare
      else if cls.val = 7 then aTakeover else aLog
    let r : FaultRec := { Sys2Proof.Machine.report cls first kind index.toNat addr.toNat req.toNat detail.toNat event.toNat with
      core := core.elim 0 (·.val), coreV := core.isSome && kind.val == 1
      lc := if kind.val = 1 then d.lcField index.toNat else 0x1F }
    let valid := unitOk kind index.toNat = true ∧ kind.val ≠ 14 ∧ (cls.val = 5 → kind.val = 1 ∧ core ≠ none)
    let twins := d.flt.queue.filter (fun q => q.kind == kind.val && q.index == index.toNat)
    let top := twins.foldl (fun n (q : FaultRec) => max n q.action) 0
    let entered := { r with
      recurrence := !twins.isEmpty, seq := d.flt.seq % 65536, tick := d.time.tick
      action := if twins ≠ [] ∧ (cls.val = 0 ∨ cls.val = 3 ∨ cls.val = 4 ∨ cls.val = 5) ∧ d.get FLT_CTRL_ESC_EN = 1
        then max first (min aSpare (1 + top)) else first }
    let key := 256 * index.toNat + i.toNat
    let engine := 2 ≤ index.toNat ∧ index.toNat ≤ 6 ∧ unitOk index.toNat i.toNat = true ∧
      d.engFenced index.toNat i.toNat = true
    (valid → (d.record r).2 = entered ∧ exec cmd s = .next ⟨(d.record r).1.act entered, s.pending⟩) ∧
    (valid → twins = [] → cls.val < 5 → d.flt.queue.length < 64 →
      let cause := match cls.val with
        | 1 => some (FLT_EV_CAUSE_ACCESS, 39)
        | 2 => some (FLT_EV_CAUSE_DEADLINE, 38)
        | 3 => some (FLT_EV_CAUSE_BUS, 40)
        | _ => none
      Sets cmd s
        (({ d with flt := { d.flt with queue := d.flt.queue ++ [entered], seq := d.flt.seq + 1 } }).tally 0 1)
        (cause.toList.map (fun c => (c.1, 1))) (32 :: cause.toList.map (·.2))) ∧
    (v.toNat ∈ d.flt.queue.map (·.seq) → exec (.fltPop v) s = .next
      ⟨{ d with flt := { d.flt with queue := d.flt.queue.filter (fun q => q.seq != v.toNat) } }, s.pending⟩) ∧
    (v.toNat ∉ d.flt.queue.map (·.seq) → Sets (.fltPop v) s d [(FLT_STATUS_POP_MISS, 1)]) ∧
    (engine → key ∉ d.flt.unfence → exec (.unfence index i) s = .next
      ⟨{ d with flt := { d.flt with unfence := d.flt.unfence ++ [key] } }, s.pending⟩) ∧
    (¬ engine → exec (.unfence index i) s = .next s) ∧
    (key ∈ d.flt.unfence →
      let rest := { d.flt with unfence := d.flt.unfence.filter (· ≠ key) }
      let queued := ∃ q ∈ d.flt.queue, q.kind = index.toNat ∧ q.index = i.toNat
      let spared := tabGet (fun _ => false) d.flt.sparedEng key
      (queued ∨ spared = true → exec (.unfenceApply index i) s = .next ⟨{ d with flt := rest }, s.pending⟩) ∧
      (¬ queued → spared = false →
        let u := { d with flt := { rest with fencedEng := tabSet (fun _ => false) d.flt.fencedEng key false } }
        exec (.unfenceApply index i) s =
          .next ⟨(if index.toNat = 6 then u.dmaUnfence i.toNat else u).schedule, s.pending⟩))

/-- R514: a record that finds 64 queued takes the place of the newest, the 63 before it stay, and FLT_LOST counts; like every
record it has been checked against all 64, and its action is taken. -/
def Obligations.FullFaultQueue : Prop :=
  ∀ (d : Device) (r : FaultRec), d.flt.queue.length = 64 →
    let e := (d.record r).2
    (d.record r).1.flt.queue = d.flt.queue.take 63 ++ [e] ∧
    (d.record r).1.get FLT_LOST_COUNT = (d.get FLT_LOST_COUNT + 1) % 2 ^ 32 ∧
    (e.recurrence = true ↔ ∃ q ∈ d.flt.queue, q.kind = r.kind ∧ q.index = r.index) ∧
    d.fault r = (d.record r).1.act e

/-- R107, R517, R519, R522 to R525: a fenced cluster's swap takes place at its edge, or waits for the next with EV262 where the
epoch cannot flip. A fallow cluster that is READY and idle is tested; one that passes is READY again, its memories cleared, and
one that fails is FAILED, with EV41 and its record. A rotation that gets its energy copies the role image and the shared memory,
and at its edge exchanges the two clusters. A missing heartbeat makes the replica's promotion due, and at the next edge it
serves; a replica that fails before then is lost, and with a promotion due no always-on block is left, which is FATAL. -/
def Obligations.SparesAndReplica : Prop :=
  ∀ (s : State) (f : Fin 20) (errs : List (Fin 131072)) (q : Fin 4) (x : SwapPrep) (a c lc fal' : Nat) (u : Device)
      (cls : Fin 8) (index : BitVec 8) (core : Option (Fin 8)) (nested : Bool) (addr : BitVec 48) (req : BitVec 10) (detail : Word)
      (event : BitVec 9),
    let d := s.dev
    let goes := fun (cmd : Instr) (u : Device) => exec cmd s = .next ⟨u, s.pending⟩
    let defers := fun (cmd : Instr) => Sets cmd s d [(LWK_EPOCH_DEFERRED, satAdd 8 (d.get LWK_EPOCH_DEFERRED) 1)] [262]
    let st := d.get (FLT_FALLOW_STATE q)
    let fal := d.get (FLT_FALLOW_PHYS q)
    let copying := fun (u : Device) => ({ u with flt := { u.flt with rotTo := some a, rotAt := u.time.edges } }).put FLT_ROT_STATUS_STATE 2
    (d.flt.swap.find? (fun y => y.old == f.val) = some x →
      (d.canFlip = true → goes (.spareSwap f errs) (d.swapNow x (errs.map (·.val)))) ∧
      (d.canFlip = false → defers (.spareSwap f errs))) ∧
    (st = 0 → d.roleIdle q = true → Sets (.fallowTest q) s d [(FLT_FALLOW_STATE q, 1)]) ∧
    (st = 1 →
      (∃ y, (d.clearCluster fal).Sets y [(FLT_FALLOW_STATE q, 0),
          (FLT_FALLOW_PASSES q, satAdd 8 (d.get (FLT_FALLOW_PASSES q)) 1)] [] ∧
        goes (.fallowTestDone q true) y.schedule) ∧
      (∃ y, d.Sets y [(FLT_FALLOW_STATE q, 2), (FLT_EV_CAUSE_FALLOW_FAIL, 1)] [41] ∧
        goes (.fallowTestDone q false)
          (y.fault { Sys2Proof.Machine.report 4 aFence 1 fal 0 noReq 0 41 with lc := y.lcField fal }))) ∧
    (d.rotTarget q = some a → d.physOf (5 * q + 4) = some c → st = 0 → d.flt.rotTo = none → d.quadBusy q = false →
      d.flt.swap = [] → d.get FLT_ROT_PERIOD_H ≠ 0 ∨ a ∈ d.flt.early →
      let asks := d.askEnergy 4 ((d.lcPanel (d.lcField a)).getD 0) (1000 * 2 ^ d.get ELP_CTRL_MIG_ECLASS)
      let n := u.get FLT_ROT_STATUS_DEFERRED
      (asks = (true, u) → let w := (copying u).put FLT_ROT_STATUS_QUAD q
        goes (.rotationStart q) (((if w.get (ELP_DOM_STATE_STATE c) = 4 then w.put (ELP_DOM_STATE_STATE c) 0 else w).loadRole
          (d.lcField a) c).copyShared a c)) ∧
      (asks = (false, u) → n < 7 → Sets (.rotationStart q) s u
        [(FLT_ROT_STATUS_STATE, 1), (FLT_ROT_STATUS_QUAD, q.val), (FLT_ROT_STATUS_DEFERRED, n + 1)]) ∧
      (asks = (false, u) → 7 ≤ n → Sets (.rotationStart q) s u
        [(FLT_ROT_STATUS_STATE, 0), (FLT_ROT_STATUS_DEFERRED, 0), (FLT_EV_CAUSE_ROT_DEFER, 1)] [42])) ∧
    (a < 20 → d.dueRotation = some (a, c, lc, fal') →
      (d.canJoin = false → defers .rotationFlip) ∧
      (d.canJoin = true →
        let w := ((d.copyShared a c).mapLc lc c).mapLc fal' a
        let z := { w with flt := { w.flt with
          rotTo := none, early := w.flt.early.filter (· ≠ a)
          roleSince := tabSet (fun _ => 0) w.flt.roleSince c w.time.edges } }
        ∃ y, ((z.takeRoutes false).flip).Sets y
            [(FLT_ROT_STATUS_STATE, 0), (FLT_ROT_STATUS_DEFERRED, 0), (FLT_FALLOW_PHYS (a / 5), a % 32),
              (FLT_FALLOW_STATE (a / 5), 1)] [] ∧
          goes .rotationFlip (((y.redispatchAll (d.itemsOn a none)).cause FLT_EV_CAUSE_ROT_DONE 7).schedule))) ∧
    (d.dueRotation = none → exec .rotationFlip s = .next s) ∧
    exec .aonHeartbeat s = .next s ∧
    (d.flt.promoted = true → exec .heartbeatMissing s = .next s) ∧
    (d.flt.promoted = false →
      (d.flt.replicaLost = false → goes .heartbeatMissing { d with flt := { d.flt with promoteDue := true } }) ∧
      (d.flt.replicaLost = true → goes .heartbeatMissing (d.fatalRec 14 0 0 0 noEvent 0x1F))) ∧
    (cls.val ≠ 5 → index.toNat % 2 = 1 → d.flt.promoted = false → d.flt.replicaLost = false →
      let lost := { d with flt := { d.flt with replicaLost := true, promoteDue := false } }
      let w := if d.flt.promoteDue = true then lost.fatalRec 14 0 0 0 noEvent 0x1F else lost
      goes (.faultRecordEntry cls 14 index core nested addr req detail event)
        ((w.note (Sys2Proof.Machine.report 4 aSpare 14 1 0 noReq 0 2)).cause FLT_EV_CAUSE_REPLICA_LOST 2)) ∧
    (d.flt.promoteDue = false → exec .promotion s = .next s) ∧
    (d.flt.promoteDue = true →
      let w := ({ d with flt := { d.flt with promoteDue := false, promoted := true } }).failFlights (aonNode 0)
      goes .promotion ((w.restartMbx.note (Sys2Proof.Machine.report 4 aSpare 14 0 0 noReq 0 2)).cause
        FLT_EV_CAUSE_PROMOTED 2))

/-! ### The twin (R526 to R537) -/

/-- R530, R533 to R535, R537: a write of TWN_CTRL stores its fields; EN rising makes the device STANDBY, to be mirrored whole, and
falling DISABLED with nothing staged or sent; LINK_EN starts the twin lanes, except of a device that has tripped or is removed,
or stops them. TWIN_HB_OUT toggles, an edge of
TWIN_HB_IN counts as life, one silent path alone raises its cause, and both silent HB_LOST. A STANDBY device begins to take
over, and at the next edge is ACTIVE; an ACTIVE one that must steps down, and its partner's resynchronisation begins. -/
def Claims.TwinRoles : Prop :=
  ∀ (s : State) (r : Req) (v : Word),
    let d := s.dev
    let role := d.get TWN_STATUS_ROLE
    let on := d.get TWN_CTRL_EN = 1
    let rise := v.getLsbD 0 = true ∧ ¬ on
    let fall := v.getLsbD 0 = false ∧ on
    let dropped := { d.twin with stage := [], commits := [], bad := false }
    let paired := if rise then { d.twin with full := true }
      else if fall then { dropped with hbOut := false, sending := false, lines := [] } else d.twin
    let mode := if rise then roleStandby else if fall then 0 else role
    let takes := [(TWN_STATUS_ROLE, roleTaking), (TWN_EV_CAUSE_TAKING_OVER, 1)]
    (∃ u w, ({ d with twin := paired }).Sets u
        [(TWN_CTRL_LEVEL, bits v.toNat 2 1), (TWN_CTRL_SIDE, bits v.toNat 3 3), (TWN_CTRL_HB_TIMEOUT_US, bits v.toNat 15 8),
          (TWN_CTRL_SB_PCP, bits v.toNat 18 16), (TWN_CTRL_EN, bits v.toNat 0 0), (TWN_CTRL_LINK_EN, bits v.toNat 5 5),
          (TWN_STATUS_ROLE, mode)] [] ∧
      w =
        (if v.getLsbD 5 = true ∧ d.get TWN_CTRL_LINK_EN = 0 ∧ d.power.trip = false ∧ d.hwd.ready = false then
          (List.range 8).foldl (fun (u : Device) n => u.laneTrain (64 + n) lTraining false) u
        else if v.getLsbD 5 = false ∧ d.get TWN_CTRL_LINK_EN = 1 then
          (List.range 8).foldl (fun (u : Device) n => u.laneOff (64 + n)) u
        else u) ∧
      exec (.twinEnable r v) s = .next ⟨if v.getLsbD 4 = true then w.beginTakeover else w, s.pending⟩) ∧
    (role = roleStandby ∨ role = roleActive → d.power.trip = false → d.twin.fatal = false →
      exec .twinHbOutToggle s = .next ⟨{ d with twin := { d.twin with hbOut := !d.twin.hbOut } }, s.pending⟩) ∧
    Sets .twinHbInEdge s { d with twin := { d.twin with pinSilent := false } } [(TWN_STATUS_PIN_OK, 1)] ∧
    (on → d.twin.cellSilent = false → Sets (.silentPathTimeout true) s { d with twin := { d.twin with pinSilent := true } }
      [(TWN_STATUS_PIN_OK, 0), (TWN_EV_CAUSE_PIN_LOST, 1)] [129]) ∧
    (on → d.twin.pinSilent = false → Sets (.silentPathTimeout false) s { d with twin := { d.twin with cellSilent := true } }
      [(TWN_STATUS_HB_OK, 0), (TWN_EV_CAUSE_LINK_DOWN, 1)] [128]) ∧
    (on → Sets .heartbeatLoss s { d with twin := { d.twin with cellSilent := true, pinSilent := true } }
      ([(TWN_STATUS_PIN_OK, 0), (TWN_STATUS_HB_OK, 0), (TWN_EV_CAUSE_HB_LOST, 1)] ++ (if role = roleStandby then takes else []))
      (129 :: (if role = roleStandby then [130] else []))) ∧
    (role = roleStandby → Sets (.takeover r) s d takes [130]) ∧
    (role ≠ roleStandby → exec (.takeover r) s = .next s) ∧
    (role = roleTaking → Sets .takeoverEdge s { d with twin := { dropped with full := true } }
      [(TWN_STATUS_ROLE, roleActive), (TWN_ACTIVE_SINCE_LO_TICK, d.time.tick % 2 ^ 32),
        (TWN_ACTIVE_SINCE_HI_TICK, d.time.tick / 2 ^ 32 % 2 ^ 32), (TWN_EV_CAUSE_ACTIVE, 1)] [131]) ∧
    (role = roleActive → d.get TWN_STATUS_PEER_ROLE = roleActive →
      let since := d.get TWN_ACTIVE_SINCE_LO_TICK + 2 ^ 32 * d.get TWN_ACTIVE_SINCE_HI_TICK
      (d.twin.fatal = true ∨ d.hwd.removal = 2 ∨ d.twin.peerSince < since ∨
        (d.twin.peerSince = since ∧ d.get TWN_CTRL_SIDE = 1) →
        Sets .stepDown s { d with twin := { dropped with sending := false, lines := [] } }
          [(TWN_STATUS_ROLE, roleStandby), (TWN_STATUS_SYNC, 0), (TWN_EV_CAUSE_STEP_DOWN, 1)] [131]) ∧
      (d.twin.fatal = false → d.hwd.removal ≠ 2 → since < d.twin.peerSince ∨
        (d.twin.peerSince = since ∧ d.get TWN_CTRL_SIDE = 0) → exec .stepDown s = .next s))

/-- R526 to R529: a cell received is counted, and one of no known type as bad; while EN is 1 a HEARTBEAT, a MESSAGE and a
TAKEOVER act, and in STANDBY a MIRROR or SOFTBUF line is staged while staging has room, and a COMMIT applies or discards its
epoch. A heartbeat goes out with TICK, role and LEVEL. An ACTIVE device's epoch edge takes the marked lines, or every line of
every region, to send, and an epoch still being sent takes them in, with LAG. A message window pops received units and
pushes units to send. -/
def Claims.TwinCells : Prop :=
  ∀ (s : State) (g : Fin 2) (n : Nat) (cell : List Byte) (rest : List (Nat × List Byte)) (k : Fin 65) (bs : List Byte)
      (src : BitVec 10),
    let d := s.dev
    let on := d.get TWN_CTRL_EN = 1
    let h := leNat (cell.take 8)
    let ty := bits h 3 0
    let addr := bits h 47 6 * 64
    let data := cell.drop 8
    let took := { d with twin := { d.twin with rx := rest } }
    let rx := (TWN_CNT_RX_COUNT, (d.get TWN_CNT_RX_COUNT + 1) % 2 ^ 32)
    let bad := (TWN_CNT_BAD_COUNT, (d.get TWN_CNT_BAD_COUNT + 1) % 2 ^ 32)
    let room := 72 * ((d.staged 0).length + (d.staged 1).length + 1) ≤ 2 ^ 20 * max 8 (d.get TWN_STAGE_SIZE_MIB)
    let staged := fun (soft : Nat) => { took with twin := { took.twin with
      stage := tabSet (fun _ => []) d.twin.stage n (d.staged n ++ [(addr + soft, data)]) } }
    let spoilt := { took with twin := { took.twin with bad := true } }
    let q := tabGet (fun _ => []) d.twin.msgRx g
    let lines := unionOf (if d.twin.full then d.regionLines else d.marks) (if d.twin.level = 2 then d.twin.soft else [])
    let lag := d.twin.sending = true ∧ d.twin.lines ≠ []
    let epoch := { d with
      marks := []
      twin := { d.twin with
        lines := if lag then unionOf d.twin.lines lines else lines
        soft := [], sending := true, epochTick := d.time.tick, full := false
        fullAt := if d.twin.full then d.time.tick else d.twin.fullAt, level := min 2 (d.get TWN_CTRL_LEVEL) } }
    let tells := fun (u : Device) (r : Resp) => Host.Outcome.next ⟨u.emit (.resp src.toNat r), s.pending⟩
    let us := unitsOf bs
    (d.twin.rx = (n, cell) :: rest →
      (ty = 0 → exec .twinCellRx s = .next ⟨took, s.pending⟩) ∧
      (7 ≤ ty → Sets .twinCellRx s took [rx, bad, (TWN_EV_CAUSE_BAD_CELL, 1)] [133]) ∧
      (0 < ty → ty < 7 → ¬ on → Sets .twinCellRx s took [rx]) ∧
      (on → d.get TWN_STATUS_ROLE = roleStandby → ty = 2 ∨ ty = 6 →
        (room → Sets .twinCellRx s (staged (if ty = 6 then 1 else 0)) [rx]) ∧
        (¬ room → Sets .twinCellRx s spoilt [rx])) ∧
      (on → ∃ u, took.Sets u [rx] [] ∧
        (ty = 1 → exec .twinCellRx s = .next ⟨u.heartbeat data, s.pending⟩) ∧
        (ty = 3 → d.get TWN_STATUS_ROLE = roleStandby → exec .twinCellRx s = .next ⟨u.commitRx n data, s.pending⟩) ∧
        (ty = 4 → exec .twinCellRx s = .next ⟨u.msgRx n (bit h 4) data, s.pending⟩) ∧
        (ty = 5 → exec .twinCellRx s = .next ⟨u.beginTakeover, s.pending⟩))) ∧
    (on → exec (.twinHeartbeatTx g) s = .next ⟨d.sendCell g 1 false 0 (leBytes 8 d.time.tick ++
      leBytes 1 (d.get TWN_STATUS_ROLE) ++ leBytes 1 d.twin.level ++ leBytes 2 0 ++
      leBytes 8 (d.get TWN_ACTIVE_SINCE_LO_TICK + 2 ^ 32 * d.get TWN_ACTIVE_SINCE_HI_TICK) ++ leBytes 8 d.twin.applied),
      s.pending⟩) ∧
    (d.get TWN_STATUS_ROLE = roleActive → d.twin.level ≠ 0 ∨ d.onCarrierTick 80 = true →
      (¬ lag → Sets .mirrorEpoch s epoch [(TWN_STATUS_LAG_TICKS, 0)]) ∧
      (lag → Sets .mirrorEpoch s (epoch.tally 15 1)
        [(TWN_STATUS_LAG_TICKS, satAdd 8 (d.get TWN_STATUS_LAG_TICKS) 1), (TWN_EV_CAUSE_LAG, 1)] [132])) ∧
    (d.get TWN_STATUS_ROLE ≠ roleActive → d.twin.level ≠ 0 ∨ d.onCarrierTick 80 = true → exec .mirrorEpoch s =
      .next ⟨{ d with twin := { d.twin with level := min 2 (d.get TWN_CTRL_LEVEL) } }, s.pending⟩) ∧
    (d.twin.level = 0 → d.onCarrierTick 80 = false → exec .mirrorEpoch s = .next s) ∧
    (k.val ≤ q.length → ∃ last : Nat, (last = 1 ↔ ∃ u, (q.take k).getLast? = some (u, true)) ∧
      exec (.twnMsgPop g k src) s = tells
        { d with twin := { d.twin with msgRx := tabSet (fun _ => []) d.twin.msgRx g (q.drop k) } }
        { okInl last with data := (q.take k).flatMap (·.1) }) ∧
    (q.length < k.val → exec (.twnMsgPop g k src) s = tells d targetErr) ∧
    (let tx := tabGet (fun _ => []) d.twin.msgTx g
      let sent := tx ++ us.zipIdx.map (fun p => (p.1, p.2 + 1 == us.length))
      (msgCap < tx.length + us.length → exec (.twnMsgPush g bs src) s = tells d targetErr) ∧
      (tx.length + us.length ≤ msgCap → exec (.twnMsgPush g bs src) s = tells
        { d with twin := { d.twin with msgTx := tabSet (fun _ => []) d.twin.msgTx g sent } } ok))

/-- Twin roles, heartbeats, takeover, cells and epochs: the claims above. -/
def Obligations.TwinLink : Prop := Claims.TwinRoles ∧ Claims.TwinCells

/-! ### Hosts and the network ports (R540 to R552) -/

/-- R25, R26, R17, R540, R541: a memory request whose bytes lie in a BAR goes to its Lacework addresses; it is put off while one of
them is answered ASLEEP and retries are left, with EV269, and once where one is answered FENCED. Another request is recorded, and
reads 0. A request that was put off is tried again. A write of the MSI-X control stores it. With its link down a host's requests do
nothing. -/
def Claims.HostRequests : Prop :=
  ∀ (s : State) (h : Fin 2) (bar : Fin 3) (off : BitVec 37) (len : Fin 4097) (bs : List Byte) (en fm : Bool) (a : Nat)
      (q : HostReq) (rest : List HostReq) (t : Tlp),
    let d := s.dev
    let x := d.host h
    let goes := fun (cmd : Instr) (u : Device) => exec cmd s = .next ⟨u, s.pending⟩
    let inBar := fun (m : Nat) => barAddr bar off.toNat = some a ∧ barAddr bar (off.toNat + (m - 1)) = some (a + (m - 1))
    let outside := fun (m : Nat) => barAddr bar off.toNat = none ∨ barAddr bar (off.toNat + (m - 1)) = none
    let lost := d.accessRec ((if bar.val = 0 then 0x4800000000 else 0x4000000000) + off.toNat) (hostNode h) 2
    let left := d.setHost h { x with retry := rest }
    let asleep := left.hostAsleep h q.write q.addr q.len q.data
    let fenced := left.hostFenced h q.write q.addr q.len q.data
    (x.linkUp = false → exec (.hostTlp h t) s = .next s) ∧
    (x.linkUp = true →
      (0 < len.val → inBar len → goes (.hostTlp h (.memRd bar off len)) (d.hostTry h ⟨false, a, len, [], 0, false⟩)) ∧
      (0 < bs.length → inBar bs.length →
        goes (.hostTlp h (.memWr bar off bs)) (d.hostTry h ⟨true, a, bs.length, bs, 0, false⟩)) ∧
      (0 < len.val → outside len → goes (.hostTlp h (.memRd bar off len)) (lost.emit (.tlp h false (List.replicate len 0)))) ∧
      (0 < bs.length → outside bs.length → goes (.hostTlp h (.memWr bar off bs)) lost) ∧
      goes (.hostTlp h (.memRd bar off 0)) (d.emit (.tlp h false [])) ∧
      (en = false ∨ fm = true → goes (.hostTlp h (.msix en fm)) (d.setMsix h { d.msix h with enable := en, fmask := fm }))) ∧
    (x.retry = [] → exec (.hostAsleepRetry h) s = .next s) ∧
    (x.retry = q :: rest →
      goes (.hostAsleepRetry h) (left.hostTry h q) ∧
      (q.fenced = false → fenced = true →
        goes (.hostAsleepRetry h) (d.setHost h { x with retry := rest ++ [{ q with fenced := true }] })) ∧
      (q.fenced = true ∨ fenced = false → asleep = true → q.tries < d.get HWD_HOST_CTRL_ASLEEP_RETRY →
        Sets (.hostAsleepRetry h) s (d.setHost h { x with retry := rest ++ [{ q with tries := q.tries + 1 }] }) [] [269]) ∧
      (q.fenced = true ∨ fenced = false → asleep = false ∨ d.get HWD_HOST_CTRL_ASLEEP_RETRY ≤ q.tries →
        let r := left.hostRuns h q.write (hostRuns q.addr q.len) q.data
        (q.write = true → goes (.hostAsleepRetry h) r.1) ∧
        (q.write = false → goes (.hostAsleepRetry h) (r.1.emit (match r.2 with
          | some bs => Out.tlp h false bs
          | Option.none => Out.tlp h true [])))))

/-- R542 to R545: a Function Level Reset resets the endpoint's MSI-X table, its mailbox and its latches, releases its semaphores
and raises EV(144 + h), and a link going down or coming up raises it too. A read of a free semaphore takes it and answers 1, one of
its owner answers 1, another 0; the owner's write of 0 releases it, and 10 ms after a host's link went down all that it owns are. -/
def Claims.HostLinksAndSemaphores : Prop :=
  ∀ (s : State) (h : Fin 2) (n : Fin 128) (src : BitVec 10) (core : Fin 8) (v : Word),
    let d := s.dev
    let x := d.host h
    let goes := fun (cmd : Instr) (u : Device) => exec cmd s = .next ⟨u, s.pending⟩
    let owner := fun (n : Nat) => d.get (HWD_SEM_OWNER_OWNER n)
    let freed := fun (t : Device) => ∀ k < 128, t.get (HWD_SEM_OWNER_OWNER k) = (if owner k = h + 1 then 0 else owner k) ∧
      t.get (HWD_SEM_SEM k) = (if owner k = h + 1 then 0 else d.get (HWD_SEM_SEM k))
    let me := semOwner src.toNat core
    let answers := fun (u : Device) (r : Resp) => u.emit (.resp src.toNat r)
    let up := d.hwd.porN = true ∧ d.power.trip = false ∧ d.hwd.ready = false ∧ d.ballsTaken = false
    Does (.flr h) s (fun t => t.msix h = msix0 ∧ t.host h = { x with retry := [] } ∧ freed t ∧
      t.hwd = { d.hwd with mbx := d.hwd.mbx.map (fun c => if c.host = h.val then { c with drop := true } else c) } ∧
      tabGet (fun _ => 0) t.time.latchHi h = 0 ∧ tabGet (fun _ => 0) t.time.latchSec h = 0 ∧
      t.get ⟨HWD_EV_CAUSE, 9 + h, 9 + h⟩ = 1 ∧ t.get (pendFld (144 + h)) = 1 ∧
      t.mem = d.mem ∧ t.items = d.items ∧ t.cores = d.cores ∧ t.lwk = d.lwk) ∧
    (x.linkUp = false → exec (.pcieLinkDown h) s = .next s) ∧
    (x.linkUp = true → Sets (.pcieLinkDown h) s (d.setHost h { x with linkUp := false, retry := [] })
      [(⟨HWD_EV_CAUSE, 7 + h, 7 + h⟩, 1)] [144 + h]) ∧
    (x.linkUp = true ∨ ¬ up → exec (.pcieLinkUp h) s = .next s) ∧
    (x.linkUp = false → up → Sets (.pcieLinkUp h) s (d.setHost h { x with linkUp := true, txOn := true })
        [(⟨HWD_EV_CAUSE, 5 + h, 5 + h⟩, 1)] [144 + h]) ∧
    (me ≠ 0 →
      (owner n = 0 → Sets (.semAcquire n src core) s (answers d (okInl 1))
        [(HWD_SEM_OWNER_OWNER n, me), (HWD_SEM_SEM n, 1)]) ∧
      (owner n = me → goes (.semAcquire n src core) (answers d (okInl 1))) ∧
      (owner n ≠ 0 → owner n ≠ me → goes (.semAcquire n src core) (answers d (okInl 0))) ∧
      (v = 0 → owner n = me → Sets (.semRelease n src core v) s (answers d ok)
        [(HWD_SEM_OWNER_OWNER n, 0), (HWD_SEM_SEM n, 0)]) ∧
      (v ≠ 0 ∨ owner n ≠ me → goes (.semRelease n src core v) (answers d ok))) ∧
    (me = 0 → goes (.semAcquire n src core) (answers (d.accessRec (0x4800000000 + HWD_SEM n) src.toNat 0) (okInl 0))) ∧
    (x.linkUp = true → exec (.semLinkRelease h) s = .next s) ∧
    (x.linkUp = false → Does (.semLinkRelease h) s (fun t => freed t ∧ t.mem = d.mem ∧ t.items = d.items ∧
      ((∃ k < 128, owner k = h + 1) → t.get (pendFld (148 + h)) = 1)))

/-- Host requests, resets, links and semaphores: the claims above. -/
def Obligations.HostCommands : Prop := Claims.HostRequests ∧ Claims.HostLinksAndSemaphores

/-- R98, R546 to R552: a frame received on a port in use is counted, and goes whole behind its header unit to the queue that its
priority maps to, or is dropped with RX_DROP; PTP and ESMC frames go to Hayward, and bad ones are counted. A port sends the
frame at the front of its highest queue, or the test pattern in its place, with its stamp where it asks for one; a 17th stamp is
lost with TXTS_OVF. A port's link comes up once all its lanes are UP. A window pops the units asked for and pushes
those that fit. A queue with fewer than 16 units fills itself. A read of NET_TXTS_TAG pops a stamp. A link that goes down
discards its queues' frames. -/
def Obligations.NetworkPorts : Prop :=
  ∀ (s : State) (p : Fin 4) (tci : Option (BitVec 16)) (bs : List Byte) (ok' : Bool) (into : Nat) (q : Fin 16)
      (k : Fin 65) (src : BitVec 10) (r : Req) (st : TxStamp) (rest : List TxStamp) (b : Bool) (n w : Nat),
    let d := s.dev
    let goes := fun (cmd : Instr) (u : Device) => exec cmd s = .next ⟨u, s.pending⟩
    let up := d.get (NET_PORT_STATUS_LINK p) = 1
    let live := d.portOn p = true ∧ bit (d.get NET_CTRL_PORT_EN) p = true ∧ up
    let plus := fun (f : Fld) => (f, (d.get f + 1) % 2 ^ 32)
    let good := frameBad bs tci.isSome ok' = false
    let ptp := toHayward bs = true ∧ bit (d.get NET_CTRL_PTP_PORTS) p = true
    let pcp := tci.elim 0 (fun t => t.toNat / 2 ^ 13)
    let home := 8 * d.portDie p + bits (d.get (NET_RXQ_MAP p)) (3 * pcp + 2) (3 * pcp)
    let us := d.rxHeader p bs.length tci into :: unitsOf bs
    let room := (d.rxq home).length + us.length ≤ rxCap
    let rx := Instr.netFrameRx p tci bs ok' into
    let tx := d.txq w
    let head := tx.headD []
    let sent := (((tx.drop 1).take (n - 1)).flatMap (fun u => u)).take (hLen head)
    let tod := d.netStamp into
    let one := bit (wordAt head 0) 19
    let body := if one then oneStep sent (tod / 1000000000) (tod % 1000000000) else sent
    let frame := if (d.portLanes p).any (fun l => d.on (RLN_LANE_TEST_GEN l)) then Out.netPrbs p else Out.net p (if bit (wordAt head 0) 16 then some (wordAt head 1 % 65536) else none)
      (body ++ List.replicate (60 - body.length) 0) one
    let stamps := tabGet (fun _ => []) d.net.stamps p
    let tells := fun (u : Device) (x : Resp) => Host.Outcome.next ⟨u.emit (.resp src.toNat x), s.pending⟩
    (live →
      (¬ good → Sets rx s d [plus (NET_CNT_FCS_COUNT p)]) ∧
      (good → ptp → isEsmc bs = false → Sets rx s (d.emit (.hayward p (d.netStamp into) bs)) [plus (NET_CNT_RX_COUNT p)]) ∧
      (good → ptp → isEsmc bs = true → Sets rx s
        (({ d with hwd := { d.hwd with ssmRx := tabSet (fun _ => 0) d.hwd.ssmRx p (at_ bs 27 % 16) } }).emit (.hayward p (d.netStamp into) bs))
        [plus (NET_CNT_RX_COUNT p)]) ∧
      (good → ¬ ptp → ¬ room → Sets rx s d [plus (NET_CNT_RX_COUNT p), plus (NET_CNT_RX_DROP_COUNT p),
        (NET_PORT_EV_CAUSE_RX_DROP p, 1)] [136 + p]) ∧
      (good → ¬ ptp → room → ∃ u, (d.setRxq home (d.rxq home ++ us)).Sets u [plus (NET_CNT_RX_COUNT p)] [] ∧
        goes rx (u.rxCount home us.length)) ∧
      (((List.range 8).map (fun j => 8 * d.portDie p + (7 - j))).find? (fun j =>
          d.queuePort j == some p.val && (frontFrame (d.txq j)).isSome) = some w →
        frontFrame tx = some n →
        let gone := (d.setTxq w (tx.drop n)).txFree w n
        ∃ u, gone.Sets u [(NET_CNT_TX_COUNT p, (gone.get (NET_CNT_TX_COUNT p) + 1) % 2 ^ 32)] [] ∧
          (bit (wordAt head 0) 18 = false → goes (.netFrameTx p into) (u.emit frame)) ∧
          (bit (wordAt head 0) 18 = true → stamps.length < 16 →
            let all := stamps ++ [⟨wordAt head 5, tod / 1000000000, tod % 1000000000⟩]
            goes (.netFrameTx p into) (({ u.emit frame with net := { u.net with
              stamps := tabSet (fun _ => []) u.net.stamps p all } }).put (NET_PORT_STATUS_TXTS_COUNT p) (stamps.length + 1))) ∧
          (bit (wordAt head 0) 18 = true → 16 ≤ stamps.length →
            goes (.netFrameTx p into) ((u.emit frame).cause (NET_PORT_EV_CAUSE_TXTS_OVF p) (136 + p))))) ∧
    (k.val ≤ (d.rxq q).length → exec (.netQueuePop q k src) s =
      tells (d.setRxq q ((d.rxq q).drop k)) { ok with data := ((d.rxq q).take k).flatMap (fun u => u) }) ∧
    ((d.rxq q).length < k.val → exec (.netQueuePop q k src) s = tells d targetErr) ∧
    (exec (.netQueuePush q true bs src) s = tells (d.txRefuse q (unitsOf bs).length) targetErr) ∧
    ((d.txq q).length + (unitsOf bs).length ≤ txCap → exec (.netQueuePush q false bs src) s =
      tells (((unitsOf bs).foldl (fun (d : Device) u => d.txPush q u) d).txDiscard q txCap) ok) ∧
    (txCap < (d.txq q).length + (unitsOf bs).length → exec (.netQueuePush q false bs src) s = tells d targetErr) ∧
    (0 < (d.rxq q).length → (d.rxq q).length < 16 → goes (.rxqIdleFill q)
      ((d.setRxq q (d.rxq q ++ List.replicate (16 - (d.rxq q).length) idleUnit)).rxCount q (16 - (d.rxq q).length))) ∧
    (stamps = st :: rest → Sets (.txtsPop r p) s
      (({ d with net := { d.net with stamps := tabSet (fun _ => []) d.net.stamps p rest } }).emit
        (.regRead (reqNum r) (NET_TXTS_TAG p) st.tag))
      [(NET_PORT_STATUS_TXTS_COUNT p, rest.length % 32), (NET_TXTS_NS_NS p, st.ns % 2 ^ 32),
        (NET_TXTS_SEC_LO_SEC p, st.sec % 2 ^ 32), (NET_TXTS_SEC_HI_SEC p, st.sec / 2 ^ 32 % 2 ^ 16)]) ∧
    (stamps = [] → goes (.txtsPop r p) (d.emit (.regRead (reqNum r) (NET_TXTS_TAG p) 0))) ∧
    (up → ∃ u, d.Sets u [(NET_PORT_STATUS_LINK p, 0), (NET_PORT_EV_CAUSE_LINK_DOWN p, 1)] [136 + p] ∧
      goes (.netLinkDown p) ((List.range 16).foldl (fun (d : Device) j => d.txDiscard j txCap) u)) ∧
    (¬ up → d.portOn p = true → bit (d.get NET_CTRL_PORT_EN) p = true → d.power.trip = false → d.ballsTaken = false →
      (d.portLanes p).all d.laneUp = true → Sets (.netLinkUp p) s d [(NET_PORT_STATUS_LINK p, 1), (NET_PORT_EV_CAUSE_LINK_UP p, 1)] [136 + p]) ∧
    Sets (.hiBer p b) s d ((NET_PORT_STATUS_HI_BER p, if b then 1 else 0) ::
      (if b then [(NET_PORT_EV_CAUSE_HI_BER p, 1)] else [])) (if b then [136 + p] else [])

/-! ### Boot, keys, the mailbox, removal (R553 to R563, R583) -/

/-- R64, R553, R556, R557, R560, R583: when POR_N rises, BOOT_MODE is sampled, the key status, OPEN and the debug lock show
the fuses, and the device boots from its flash or waits for its host. Asserting it resets everything but the flash, the fuses and
the test port. The watchdog answers RESTARTED to the command in progress, with EV3. A record that is written holds what the
device holds, and one that is not raises FLASH_ERR. -/
def Claims.BootCommands : Prop :=
  ∀ (s : State) (m : Fin 4) (f : BootFacts),
    let d := s.dev
    let key := fun (k : Nat) => tabGet (fun _ => none) d.hwd.keys k
    let shows := fun (prog rev : Nat) => (∀ k < 4, bit prog k = (key k).isSome) ∧ prog < 16 ∧
      (∀ k < 4, bit rev k = d.hwd.revoked.contains k) ∧ rev < 16
    let open' := if d.pklOpen then 1 else 0
    let fuses := fun (prog rev : Nat) => [(PKL_KEY_STATUS_PROG, prog), (PKL_KEY_STATUS_REVOKED, rev),
      (PKL_KEY_STATUS_MIN_SEC_VER, d.hwd.minSec % 64), (PKL_STATUS_OPEN, open'), (HWD_DBG_LOCK, 1 - open')]
    let first : List MbxCmd → List MbxCmd := fun l => match l with
      | [] => []
      | c :: t => (if c.done = none then { c with done := some (7, []) } else c) :: t
    (d.hwd.porN = false → ∃ u prog rev, shows prog rev ∧ ({ d with hwd := { d.hwd with porN := true } }).Sets u
        (fuses prog rev ++ [(HWD_BOOT_MODE, m.val), (HWD_BOOT_STAGE, stgFwLoad)]) [] ∧
      exec (.porRelease m f) s =
        .next ⟨if m.val = 3 then u.put HWD_BOOT_HOST_WAIT 1 else u.bootFlash f, s.pending⟩) ∧
    (∃ prog rev, shows prog rev ∧ Sets .porAssert s
      { device0 with
        hwd := { hayward0 with
          setA := d.hwd.setA, setB := d.hwd.setB, record := d.hwd.record, keys := d.hwd.keys
          revoked := d.hwd.revoked, minSec := d.hwd.minSec }
        tap := d.tap, free := d.free, out := d.out } (fuses prog rev)) ∧
    Sets .haywardWatchdog s { d with hwd := { d.hwd with mbx := first d.hwd.mbx } } [(FLT_EV_CAUSE_WATCHDOG, 1)] [3] ∧
    (exec (.flashRecordWrite true) s = .next ⟨{ d with hwd := { d.hwd with
      dirty := false
      record := { banks := d.heath.retired, clusters := d.get FLT_SPARED_CL, engines := d.flt.sparedEng
                  repairs := d.hwd.repairs, wearOps := d.get ELP_WEAR_OPS_SEC, wearAbove := d.get ELP_WEAR_ABOVE_T10MS } } },
      s.pending⟩) ∧
    Sets (.flashRecordWrite false) s d [(HWD_EV_CAUSE_FLASH_ERR, 1)] [14]

/-- R556, R558 to R563: a host's command waits in its turn behind those already there, BUSY, with its arguments as they stand; one
written while BUSY is lost, and one that Hayward does not take in this stage of the boot is only stored. The command at the head
runs: GET_INFO answers the firmware, boot and part words; a key slot is programmed once and revoked while another stands; the
minimum version only rises; ESMC codes are read and set; a removal begins if the twin permits it. A command that is done
answers STATUS, SEQ and its data with DONE and EV(host); and after an FLR it answers nothing. A removal ends once Lacework is
empty, unless a trip overrides it. -/
def Claims.MailboxCommands : Prop :=
  ∀ (s : State) (h : Fin 2) (seq : BitVec 8) (y : Bool) (f : BootFacts) (c : MbxCmd) (st : Nat) (data : List Nat)
      (u : Device),
    let d := s.dev
    let said := fun (code : Nat) => [(HWD_MBX_CMD_CODE h, code), (HWD_MBX_CMD_SEQ h, seq.toNat)]
    let cmd := fun (code : Nat) (y : Bool) (f : BootFacts) => (⟨h, code, seq.toNat,
      (List.range 8).map (fun n => d.get (HWD_MBX_ARG_ARG h n)), y, f, false, none⟩ : MbxCmd)
    let posts := fun (i : Instr) (code : Nat) (y : Bool) (f : BootFacts) =>
      let takes := d.get HWD_BOOT_STAGE ≠ 0 ∧ ((d.get HWD_BOOT_STAGE ≠ stgFailed ∧ d.get HWD_BOOT_STAGE ≠ stgFwLoad) ∨
        code = 1 ∨ code = 2)
      (d.get (HWD_MBX_RSP_BUSY h) = 1 → Sets i s d [(HWD_MBX_RSP_LOST h, 1)]) ∧
      (d.get (HWD_MBX_RSP_BUSY h) = 0 → ¬ takes → Sets i s d (said code)) ∧
      (d.get (HWD_MBX_RSP_BUSY h) = 0 → takes → code ≠ cCancel ∨ d.hwd.removal < 2 ∨ 4 < d.hwd.removal → ∃ u,
        ({ d with hwd := { d.hwd with mbx := d.hwd.mbx ++ [cmd code y f] } }).Sets u
          (said code ++ [(HWD_MBX_RSP_BUSY h, 1)]) [] ∧
        (d.hwd.mbx = [] → exec i s = .next ⟨u.mbxRun, s.pending⟩) ∧
        (d.hwd.mbx ≠ [] → exec i s = .next ⟨u, s.pending⟩))
    let arg := fun (n : Nat) => c.args.getD n 0
    let runs := fun (code : Nat) (u : Device) (st : Nat) (data : List Nat) => c.code = code → c.done = none →
      d.hwd.mbx = [c] → d.mbxRun = u.mbxDone st data
    let key := fun (k : Nat) => tabGet (fun _ => none) d.hwd.keys k
    posts (.getInfo h seq) 1 true noBoot ∧ posts (.bootHost h seq f) 2 true f ∧ posts (.keyProgram h seq y) 3 y noBoot ∧
    posts (.keyRevoke h seq y) 4 y noBoot ∧ posts (.setMinSecVer h seq y) 5 y noBoot ∧
    posts (.flashSet h seq y) 6 y noBoot ∧ posts (.recordRead h seq y) 7 y noBoot ∧ posts (.esmcGet h seq) 8 true noBoot ∧
    posts (.esmcSet h seq) 9 true noBoot ∧ posts (.prepareRemoval h seq) 10 true noBoot ∧
    posts (.cancelRemoval h seq) 11 true noBoot ∧
    (d.get (HWD_MBX_RSP_BUSY h) = 0 → d.get HWD_BOOT_STAGE ≠ 0 → d.get HWD_BOOT_STAGE ≠ stgFailed →
      d.get HWD_BOOT_STAGE ≠ stgFwLoad → 2 ≤ d.hwd.removal → d.hwd.removal ≤ 4 → ∃ u w,
      d.Sets u (said 11 ++ [(HWD_MBX_RSP_BUSY h, 1)]) [] ∧ w = u.cancelNow ∧ exec (.cancelRemoval h seq) s =
        .next ⟨{ w with hwd := { w.hwd with mbx := w.hwd.mbx ++ [{ cmd 11 true noBoot with done := some (mOk, []) }] } },
          s.pending⟩) ∧
    (∃ v, runs 1 { d with free := d.free + 1 } mOk [(d.word HWD_FW_VER).toNat, (d.word HWD_BOOT).toNat, v]) ∧
    (4 ≤ arg 0 → runs 3 d mBadArg []) ∧
    (arg 0 < 4 → key (arg 0) ≠ none → runs 3 d mState []) ∧
    (arg 0 < 4 → key (arg 0) = none → c.ok = true → runs 3 (({ d with hwd := { d.hwd with
      keys := tabSet (fun _ => none) d.hwd.keys (arg 0) (some (d.stageBytes 48)) } }).keyShow) mOk []) ∧
    (4 ≤ arg 0 → runs 4 d mBadArg []) ∧
    (arg 0 < 4 → (∀ k < 4, key k = none ∨ k ∈ d.hwd.revoked ∨ k = arg 0) → runs 4 d mState []) ∧
    (arg 0 < 4 → (∃ k < 4, key k ≠ none ∧ k ∉ d.hwd.revoked ∧ k ≠ arg 0) → c.ok = true → arg 0 ∉ d.hwd.revoked →
      runs 4 (({ d with hwd := { d.hwd with revoked := d.hwd.revoked ++ [arg 0] } }).keyShow) mOk []) ∧
    (63 < arg 0 ∨ arg 0 < d.hwd.minSec → runs 5 d mBadArg []) ∧
    (arg 0 ≤ 63 → d.hwd.minSec ≤ arg 0 → c.ok = true →
      runs 5 (({ d with hwd := { d.hwd with minSec := arg 0 } }).keyShow) mOk []) ∧
    runs 9 { d with hwd := { d.hwd with ssmTx := arg 0 % 16, ssmMask := arg 1 % 16 } } mOk [] ∧
    runs 11 d mState [] ∧
    (d.hwd.mbx = [] → exec .mailboxResponse s = .next s) ∧
    (d.hwd.mbx = [c] → c.done = none → c.code = 10 →
      let last := d.hwd.removal = 4 ∧ d.power.trip = false ∧ d.lwk.flights = [] ∧ d.lwk.ready = [] ∧ d.lwk.outst = []
      (¬ last → exec .mailboxResponse s = .next s) ∧
      (last → d.drawBool = (y, u) → exec .mailboxResponse s =
        .next ⟨(((u.removeEnd y).mbxAnswer c [] mOk []).cause HWD_EV_CAUSE_REMOVAL_READY 15).pcieOff, s.pending⟩)) ∧
    (d.hwd.mbx = [{ c with done := some (st, data), drop := true }] → exec .mailboxResponse s =
      .next ⟨{ d with hwd := { d.hwd with mbx := [] } }, s.pending⟩) ∧
    (d.hwd.mbx = [{ c with done := some (st, data), drop := false, host := h.val }] → st < 8 → c.seq < 256 →
      Does .mailboxResponse s (fun t => t.get (HWD_MBX_RSP_STATUS h) = st ∧ t.get (HWD_MBX_RSP_SEQ h) = c.seq ∧
        t.get (HWD_MBX_RSP_BUSY h) = 0 ∧ t.get (HWD_MBX_RSP_DONE h) = 1 ∧
        (∀ n v, n < 8 → data[n]? = some v → t.get (HWD_MBX_DATA_DATA h n) = v % 2 ^ 32) ∧
        t.get ⟨HWD_EV_CAUSE, h.val, h.val⟩ = 1 ∧ t.get (pendFld h.val) = 1 ∧
        t.hwd = { d.hwd with mbx := [] } ∧ t.mem = d.mem ∧ t.items = d.items ∧ t.cores = d.cores))

/-- Power-on reset, boot, keys, the mailbox and its commands: the claims above. -/
def Obligations.BootAndMailbox : Prop := Claims.BootCommands ∧ Claims.MailboxCommands

/-! ### Counters, records, debug and the test port (R569 to R579, R593 to R595) -/

/-- R569, R571, R573, R576: CLR sets a counter of a core to 0, what the core has counted taken in. A cluster whose dump is off, whose EVERY does not divide TICK or
that is fenced takes no snapshot; one asleep counts it as skipped; one whose ring is full counts it as dropped; otherwise its
record goes to DRAM or cluster memory at WR, and WR advances. A telemetry record is written at WR the same way, and a full ring
counts it as lost. -/
def Obligations.CountersAndRecords : Prop :=
  ∀ (s : State) (c : Fin 20) (k n : Fin 8) (part : Bool) (bs : List Byte) (u : Device),
    let d := s.dev
    let goes := fun (cmd : Instr) (u : Device) => exec cmd s = .next ⟨u, s.pending⟩
    let every := max 1 (d.get (CLU_DUMP_CTRL_EVERY c))
    let size := max 8 (d.get (CLU_DUMP_SIZE_SIZE c))
    let wr := d.get (CLU_DUMP_WR_WR c)
    let x := d.dump c
    let next := (wr + 1) % size
    let ahead := if d.on (CLU_DUMP_CTRL_HEATH c) = true then x.fill + 1 else 1
    let full := (d.get (CLU_DUMP_RD_RD c) % size + size - wr - 1) % size < ahead
    let z := (List.range 8).foldl (fun (d : Device) k => d.syncCycles c k) d
    let y := d.syncCycles c k
    let st := d.domSt c
    let taken := d.on (CLU_DUMP_CTRL_EN c) = true ∧ d.time.tick % every = 0 ∧ d.cluFenced c = false
    let tsize := max 2 (d.get HWD_TLM_SIZE_SIZE)
    let twr := d.get HWD_TLM_WR_WR
    let tfull := (twr + 1) % tsize = d.get HWD_TLM_RD_RD % tsize
    let base := d.get (CLU_DUMP_BASE_LO_ADDR c) + 2 ^ 32 * d.get (CLU_DUMP_BASE_HI_ADDR c)
    let tbase := d.get HWD_TLM_BASE_LO_ADDR + 2 ^ 32 * d.get HWD_TLM_BASE_HI_ADDR
    goes (.hpmClr c k n) (y.setCore c k { y.core c k with hpm := tabSet (fun _ => 0) (y.core c k).hpm n 0 }) ∧
    (d.on (CLU_DUMP_CTRL_EN c) = false ∨ d.time.tick % every ≠ 0 ∨ d.cluFenced c = true → goes (.clusterDump c) d) ∧
    (taken → st ≠ pRun → st ≠ pDoze →
      goes (.clusterDump c) (d.setDump c { x with skipped := min (x.skipped + 1) 65535 })) ∧
    (taken → st = pRun ∨ st = pDoze →
      (full → Sets (.clusterDump c) s (z.setDump c { x with seq := (x.seq + 1) % 65536, drops := min (x.drops + 1) 65535 })
        [(CLU_DUMP_CNT_DROP_COUNT c, min (d.get (CLU_DUMP_CNT_DROP_COUNT c) + 1) (2 ^ 32 - 1))]) ∧
      (¬ full → d.on (CLU_DUMP_CTRL_HEATH c) = true → goes (.clusterDump c) (z.dumpHeath c base size wr)) ∧
      (¬ full → d.on (CLU_DUMP_CTRL_HEATH c) = false →
        goes (.clusterDump c) (((z.sendFrom (clusterNode c 0) (base + 512 * wr) (z.dumpBytes c)).dumpKept c).put
          (CLU_DUMP_WR_WR c) next))) ∧
    (d.dumpBytes c).length = 512 ∧
    (d.on HWD_TLM_CTRL_EN = false → goes (.telemetryRecord part) d) ∧
    (d.on HWD_TLM_CTRL_EN = true → tfull → Sets (.telemetryRecord part) s { d with tlm := { d.tlm with lost := d.tlm.lost + 1 } }
      [(HWD_TLM_LOST_COUNT, (d.get HWD_TLM_LOST_COUNT + 1) % 2 ^ 32)]) ∧
    (d.on HWD_TLM_CTRL_EN = true → ¬ tfull → d.rails (List.range 7) = (bs, u) →
      let w := u.sendFrom u.aon (tbase + 256 * twr) (u.tlmBytes part bs)
      goes (.telemetryRecord part)
        ({ w with tlm := { w.tlm with seq := (w.tlm.seq + 1) % 65536, lost := 0 } }.put HWD_TLM_WR_WR ((twr + 1) % tsize)))

/-- R578, R579, R593 to R595: while LOCK is 0, a HALT bit halts a core between bundles and its clearing resumes it, and a STEP
bit lets a halted core commit one bundle; while LOCK is 1 these writes are discarded and recorded. Setting LOCK resumes every
halted core. The test port loads IDCODE, the boundary register or bypass; the instructions that take the balls bring every link
down and enter a FATAL record while POR_N is high. DBG_LWK is bypass while LOCK is 1; otherwise its request is made, none while
one is outstanding, and the capture holds RESP, the data read and DONE; one answered FENCED is held and made again. -/
def Obligations.DebugAndTestPort : Prop :=
  ∀ (s : State) (r : Req) (c : Fin 20) (k : Fin 8) (v : BitVec 8) (cap pre : Nat) (dr : BitVec 96) (b : Bool) (code data : Nat),
    let d := s.dev
    let goes := fun (cmd : Instr) (u : Device) => exec cmd s = .next ⟨u, s.pending⟩
    let x := d.core c k
    let recorded := d.accessRec (0x4800000000 + CLU_DBG_CTRL c) (d.reqNode r) 0
    let tap := fun (ir dr : Nat) => { d with tap := { d.tap with ir := ir, dr := dr } }
    let held := d.tap.busy = true ∧ b = false
    let back := fun (ir : Nat) => if d.ballsTaken = true then [Out.balls ir d.tap.boundary] else []
    let loaded := fun (ir dr : Nat) => (back ir).foldl Device.emit (tap ir dr)
    let loads := fun (cmd : Instr) (ir dr : Nat) (out : List Out) => goes cmd (out.foldl Device.emit (loaded ir dr))
    let takes := fun (cmd : Instr) (ir : Nat) =>
      let u := (tap ir 0).emit (.balls ir d.tap.boundary)
      (d.hwd.porN = false → goes cmd u) ∧ (d.hwd.porN = true → goes cmd (u.linksDown.fatalRec 0 0 0 ir noEvent 0x1F))
    (d.on HWD_DBG_LOCK = true → goes (.debugHalt r c v) recorded ∧ goes (.debugStep r c v) recorded) ∧
    (d.on HWD_DBG_LOCK = false → (∀ j < 8, j ≠ k.val → (d.core c j).halted = false ∧ v.getLsbD j = false) →
      (v.getLsbD k = true → x.halted = false → x.between = true → ∃ u, d.Sets u [(CLU_DBG_CTRL_HALT c, v.toNat)] [] ∧
        goes (.debugHalt r c v) (u.haltCore c k)) ∧
      (v.getLsbD k = false → x.halted = true → ∃ u, d.Sets u [(CLU_DBG_CTRL_HALT c, v.toNat)] [] ∧
        goes (.debugHalt r c v) (u.resumeCore c k)) ∧
      (v.getLsbD k = false → x.halted = false → Sets (.debugHalt r c v) s d [(CLU_DBG_CTRL_HALT c, v.toNat)]) ∧
      (v.getLsbD k = true → x.halted = true →
        goes (.debugStep r c v) (d.setCore c k { x with step := true, pass := true })) ∧
      (v.getLsbD k = true → x.halted = false → goes (.debugStep r c v) d)) ∧
    (x.halted = true → x.waiting = false →
      d.resumeCore c k = (d.setCore c k { x with halted := false, step := false, pass := true }).schedule) ∧
    (∃ u, d.Sets u [(HWD_DBG_LOCK, 1)] [] ∧
      goes .debugLock ((List.range 160).foldl (fun (d : Device) n => d.resumeCore (n / 8) (n % 8)) u)) ∧
    goes .tapReset { loaded 0x01 0 with tap := tap0 } ∧
    loads .idcode 0x01 0x16192E35 [.tdo 0x16192E35] ∧
    goes (.samplePreload cap pre)
      ({ loaded 0x02 cap with tap := { d.tap with ir := 0x02, dr := cap, boundary := pre } }.emit (.tdo cap)) ∧
    loads .bypass 0xFF 0 [] ∧
    takes .extest 0x03 ∧ takes .clamp 0x04 ∧ takes .highz 0x05 ∧ takes .extestPulse 0x06 ∧ takes .extestTrain 0x07 ∧
    (d.on HWD_DBG_LOCK = true → loads (.dbgLwk dr b) 0x40 0 []) ∧
    (d.on HWD_DBG_LOCK = false → held ∨ d.hwd.porN = false → loads (.dbgLwk dr b) 0x40 dr.toNat []) ∧
    (d.on HWD_DBG_LOCK = false → ¬ held → d.hwd.porN = true →
      let a := (loaded 0x40 dr.toNat).access (tapAsk dr.toNat) false clean
      (a.2 = fencedErr → goes (.dbgLwk dr b)
        { a.1 with tap := { a.1.tap with busy := true, resp := none, held := some dr.toNat } }) ∧
      (a.2 ≠ fencedErr → goes (.dbgLwk dr b)
        { a.1 with tap := { a.1.tap with busy := true, resp := some (a.2.code, a.2.inl), held := none } })) ∧
    (d.tap.ir ≠ 0x40 ∨ d.on HWD_DBG_LOCK = true → goes (.dbgLwkCapture b) d) ∧
    (d.tap.ir = 0x40 → d.on HWD_DBG_LOCK = false → d.tap.held ≠ none →
      (b = false → d.tap.busy = true → let w := putBits d.tap.dr 84 84 0
        goes (.dbgLwkCapture b) ({ d with tap := { d.tap with dr := w } }.emit (.tdo w))) ∧
      (b = true → ∃ w, goes (.dbgLwkCapture b)
        ({ d.tapAgain with tap := { d.tapAgain.tap with dr := w, busy := false } }.emit (.tdo w)) ∧ bits w 84 84 = 1)) ∧
    (d.tap.ir = 0x40 → d.on HWD_DBG_LOCK = false → d.tap.held = none → d.tap.resp = some (code, data) → ∃ w,
      goes (.dbgLwkCapture b) ({ d with tap := { d.tap with dr := w, busy := d.tap.busy && !b } }.emit (.tdo w)) ∧
      bits w 47 0 = bits d.tap.dr 47 0 ∧
      (held → bits w 84 84 = 0) ∧
      (¬ held → bits w 84 84 = 1 ∧ bits w 83 81 = code % 8 ∧ (bit d.tap.dr 80 = false → bits w 79 48 = data % 2 ^ 32)))

/-- R6, R8, R26, R67, R506: a write that no register's offset takes is discarded and recorded with RESP 2 for a host, and
answered DECODE_ERR to another requester. A field that the pricking owns is not written, and the write is recorded with its
requester and address. RW fields take the value written, RO fields keep theirs, a 1 clears a W1C bit, but not one
that hardware sets in the same cycle, EVF_FORCE pulses the
event that it names, and a 1 in HWD_DBG.LOCK locks. -/
def Obligations.RegisterWrites : Prop :=
  ∀ (s : State) (r : Req) (h : Fin 2) (off : BitVec 26) (v same : Word) (row : RegRow),
    let d := s.dev
    let write := fun (off : BitVec 26) (v : Word) => Instr.registerWrite r off v same
    let at' := fun (n : Nat) => BitVec.ofNat 26 n
    let n := off.toNat
    let a := 0x4800000000 + n
    let bad := (r = .hostA → exec (write off v) s = .next ⟨d.accessRec a (hostNode 0) 2, s.pending⟩) ∧
      (r = .hostB → exec (write off v) s = .next ⟨d.accessRec a (hostNode 1) 2, s.pending⟩) ∧
      (r ≠ .hostA → r ≠ .hostB → exec (write off v) s = .next ⟨d.emit (.resp (d.reqNode r) decodeErr), s.pending⟩)
    let rsp := HWD_MBX_RSP h
    let kept := fun (f : Fld) => (f, if same.getLsbD f.lo then 1 else if v.getLsbD f.lo then 0 else d.get f)
    let ends := fun (u : Device) => u.setWord n (BitVec.ofNat 32 (row.same (u.word n).toNat same.toNat))
    (n % 4 ≠ 0 → bad) ∧
    (msixOff n = false → regRow n = none → bad) ∧
    (n % 4 = 0 → msixOff n = false → ¬ (0x40000 ≤ n ∧ n < 0x80000) → ¬ (0xC80000 ≤ n ∧ n < 0xD00000) →
      ¬ (0xD80000 ≤ n ∧ n < 0xE00000) → regRow n = some row → row.hitsOwned (d.word n).toNat v.toNat = true →
      exec (write off v) s = .next
        ⟨ends ((d.setWord n (BitVec.ofNat 32 (row.written (d.word n).toNat v.toNat))).accessRec a (d.reqNode r) 0), s.pending⟩ ∧
      ((∀ f ∈ row.fields, f.owned = true) → ∃ u w, d.Sets u [] [] ∧ (u.accessRec a (d.reqNode r) 0).Sets w [] [] ∧
        exec (write off v) s = .next ⟨w, s.pending⟩)) ∧
    Sets (write (at' TTB_STEP_NS) v) s d [(TTB_STEP_NS_NS, v.toNat)] ∧
    Sets (write (at' TTB_TICK_LO) v) s d [] ∧
    Sets (write (at' rsp) v) s d [kept (HWD_MBX_RSP_DONE h), kept (HWD_MBX_RSP_LOST h)] ∧
    (v.toNat < 384 → ∃ u, (d.pulse v.toNat).Sets u [] [] ∧ exec (write (at' EVF_FORCE) v) s = .next ⟨u, s.pending⟩) ∧
    (v.getLsbD 0 = false → Sets (write (at' HWD_DBG) v) s d []) ∧
    (v.getLsbD 0 = true → ∃ w u, d.Sets w [(HWD_DBG_LOCK, 1)] [] ∧
      ((List.range 160).foldl (fun (d : Device) n => d.resumeCore (n / 8) (n % 8)) w).Sets u [] [] ∧
      exec (write (at' HWD_DBG) v) s = .next ⟨u, s.pending⟩)
end

