-- ==== Sys2Proof/Laws/Tab.lean ====
section
/-! SUPPORT. Sparse tables: a read after a write, and the canonical form that every write keeps. -/

namespace Sys2Proof.Machine

variable {α : Type}

theorem tabAbove_mono {t : Tab α} {a b : Nat} (h : a ≤ b) (hb : tabAbove t b = true) : tabAbove t a = true := by
  cases t with
  | nil => rfl
  | cons e t =>
    simp only [tabAbove, Bool.and_eq_true, decide_eq_true_eq] at *
    exact ⟨by omega, hb.2⟩

/-- Keys above a bound rise. -/
theorem tabSorted_of_above {t : Tab α} {a : Nat} (h : tabAbove t a = true) : tabSorted t = true := by
  cases t with
  | nil => rfl
  | cons e t =>
    simp only [tabAbove, Bool.and_eq_true] at h
    exact h.2

/-- A key at or below the bound of a table is not listed. -/
theorem tabGet_of_above (dflt : Nat → α) {t : Tab α} {k : Nat} (h : tabAbove t k = true) :
    tabGet dflt t k = dflt k := by
  induction t with
  | nil => rfl
  | cons e t ih =>
    obtain ⟨j, v⟩ := e
    simp only [tabAbove, Bool.and_eq_true, decide_eq_true_eq] at h
    have hj : j ≠ k := by omega
    simp only [tabGet, if_neg hj]
    exact ih (tabAbove_mono (by omega) h.2)

theorem tabGet_tabIns_same (dflt : Nat → α) (t : Tab α) (k : Nat) (v : α) : tabGet dflt (tabIns t k v) k = v := by
  induction t with
  | nil => simp [tabIns, tabGet]
  | cons e t ih =>
    obtain ⟨j, w⟩ := e
    by_cases h1 : k < j
    · simp [tabIns, h1, tabGet]
    · by_cases h2 : k = j
      · simp [tabIns, h2, tabGet]
      · simp [tabIns, h1, h2, tabGet, Ne.symm h2, ih]

theorem tabGet_tabIns_ne (dflt : Nat → α) (t : Tab α) {k j : Nat} (v : α) (h : j ≠ k) :
    tabGet dflt (tabIns t k v) j = tabGet dflt t j := by
  induction t with
  | nil => simp [tabIns, tabGet, Ne.symm h]
  | cons e t ih =>
    obtain ⟨i, w⟩ := e
    by_cases h1 : k < i
    · simp [tabIns, h1, tabGet, Ne.symm h]
    · by_cases h2 : k = i
      · subst h2; simp [tabIns, tabGet, Ne.symm h]
      · simp [tabIns, h1, h2, tabGet, ih]

theorem tabGet_tabDel_ne (dflt : Nat → α) (t : Tab α) {k j : Nat} (h : j ≠ k) :
    tabGet dflt (tabDel t k) j = tabGet dflt t j := by
  induction t with
  | nil => rfl
  | cons e t ih =>
    obtain ⟨i, w⟩ := e
    by_cases h2 : i = k
    · subst h2; simp [tabDel, tabGet, Ne.symm h, ih]
    · simp [tabDel, h2, tabGet, ih]

theorem tabGet_tabDel_same (dflt : Nat → α) (t : Tab α) (k : Nat) : tabGet dflt (tabDel t k) k = dflt k := by
  induction t with
  | nil => rfl
  | cons e t ih =>
    obtain ⟨j, v⟩ := e
    by_cases h2 : j = k
    · simp [tabDel, h2, ih]
    · simp [tabDel, h2, tabGet, ih]

/-- A write is read back. -/
theorem tabGet_tabSet_same [DecidableEq α] (dflt : Nat → α) (t : Tab α) (k : Nat) (v : α) :
    tabGet dflt (tabSet dflt t k v) k = v := by
  unfold tabSet
  split
  · next he => rw [tabGet_tabDel_same dflt t k, he]
  · exact tabGet_tabIns_same dflt _ k v

/-- A write leaves every other key alone. -/
theorem tabGet_tabSet_ne [DecidableEq α] (dflt : Nat → α) (t : Tab α) {k j : Nat} (v : α) (h : j ≠ k) :
    tabGet dflt (tabSet dflt t k v) j = tabGet dflt t j := by
  unfold tabSet
  split
  · exact tabGet_tabDel_ne dflt t h
  · rw [tabGet_tabIns_ne dflt _ v h, tabGet_tabDel_ne dflt t h]

theorem tabDel_tabDel (t : Tab α) (k : Nat) : tabDel (tabDel t k) k = tabDel t k := by
  induction t with
  | nil => rfl
  | cons e t ih =>
    obtain ⟨j, v⟩ := e
    by_cases h : j = k
    · simp only [tabDel, if_pos h, ih]
    · simp only [tabDel, if_neg h, ih]

theorem tabDel_tabIns (t : Tab α) (k : Nat) (v : α) : tabDel (tabIns t k v) k = tabDel t k := by
  induction t with
  | nil => simp [tabIns, tabDel]
  | cons e t ih =>
    obtain ⟨j, w⟩ := e
    by_cases h1 : k < j
    · simp [tabIns, h1, tabDel]
    · by_cases h2 : k = j
      · simp [tabIns, h2, tabDel]
      · simp [tabIns, h1, h2, tabDel, Ne.symm h2, ih]

/-- A second write at a key stands for both. -/
theorem tabSet_tabSet [DecidableEq α] (dflt : Nat → α) (t : Tab α) (k : Nat) (u v : α) :
    tabSet dflt (tabSet dflt t k u) k v = tabSet dflt t k v := by
  have h : tabDel (tabSet dflt t k u) k = tabDel t k := by
    unfold tabSet
    split
    · exact tabDel_tabDel t k
    · rw [tabDel_tabIns, tabDel_tabDel]
  unfold tabSet at h ⊢
  rw [h]

theorem tabAbove_tabDel {t : Tab α} {k a : Nat} (h : tabAbove t a = true) : tabAbove (tabDel t k) a = true := by
  induction t generalizing a with
  | nil => rfl
  | cons e t ih =>
    obtain ⟨j, v⟩ := e
    simp only [tabAbove, Bool.and_eq_true, decide_eq_true_eq] at h
    by_cases h2 : j = k
    · simp only [tabDel, if_pos h2]; exact ih (tabAbove_mono (by omega) h.2)
    · simp only [tabDel, if_neg h2, tabAbove, Bool.and_eq_true, decide_eq_true_eq]; exact ⟨h.1, ih h.2⟩

theorem tabAbove_tabIns {t : Tab α} {k a : Nat} {v : α} (h : tabAbove t a = true) (hk : a < k) :
    tabAbove (tabIns t k v) a = true := by
  induction t generalizing a with
  | nil => simp [tabIns, tabAbove, hk]
  | cons e t ih =>
    obtain ⟨j, w⟩ := e
    simp only [tabAbove, Bool.and_eq_true, decide_eq_true_eq] at h
    by_cases h1 : k < j
    · simp [tabIns, h1, tabAbove, hk, h.2]
    · by_cases h2 : k = j
      · subst h2; simp [tabIns, tabAbove, hk, h.2]
      · have h3 : j < k := by omega
        simp [tabIns, h1, h2, tabAbove, h.1, ih h.2 h3]

theorem tabSorted_tabDel {t : Tab α} {k : Nat} (h : tabSorted t = true) : tabSorted (tabDel t k) = true := by
  cases t with
  | nil => rfl
  | cons e t =>
    obtain ⟨j, v⟩ := e
    have hb : tabAbove t j = true := h
    by_cases h2 : j = k
    · simp only [tabDel, if_pos h2]; exact tabSorted_of_above (tabAbove_tabDel hb)
    · simp only [tabDel, if_neg h2]; exact tabAbove_tabDel hb

theorem tabSorted_tabIns {t : Tab α} {k : Nat} {v : α} (h : tabSorted t = true) :
    tabSorted (tabIns t k v) = true := by
  cases t with
  | nil => rfl
  | cons e t =>
    obtain ⟨j, w⟩ := e
    have hb : tabAbove t j = true := h
    by_cases h1 : k < j
    · simp [tabIns, h1, tabSorted, tabAbove, hb]
    · by_cases h2 : k = j
      · subst h2; simp [tabIns, tabSorted, hb]
      · simp only [tabIns, h1, h2, if_false]; exact tabAbove_tabIns hb (by omega)

theorem tabTrim_tabDel [DecidableEq α] {dflt : Nat → α} {t : Tab α} {k : Nat} (h : tabTrim dflt t = true) :
    tabTrim dflt (tabDel t k) = true := by
  induction t with
  | nil => rfl
  | cons e t ih =>
    obtain ⟨j, v⟩ := e
    simp only [tabTrim, Bool.and_eq_true] at h
    by_cases h2 : j = k
    · simp only [tabDel, if_pos h2]; exact ih h.2
    · simp only [tabDel, if_neg h2, tabTrim, Bool.and_eq_true]; exact ⟨h.1, ih h.2⟩

theorem tabTrim_tabIns [DecidableEq α] {dflt : Nat → α} {t : Tab α} {k : Nat} {v : α}
    (h : tabTrim dflt t = true) (hv : v ≠ dflt k) : tabTrim dflt (tabIns t k v) = true := by
  induction t with
  | nil => simp [tabIns, tabTrim, hv]
  | cons e t ih =>
    obtain ⟨j, w⟩ := e
    simp only [tabTrim, Bool.and_eq_true] at h
    by_cases h1 : k < j
    · simp only [tabIns, h1, if_true, tabTrim, Bool.and_eq_true]; exact ⟨by simp [hv], h.1, h.2⟩
    · by_cases h2 : k = j
      · subst h2; simp only [tabIns, h1, if_true, if_false, tabTrim, Bool.and_eq_true]; exact ⟨by simp [hv], h.2⟩
      · simp only [tabIns, h1, h2, if_false, tabTrim, Bool.and_eq_true]; exact ⟨h.1, ih h.2⟩

theorem tabSorted_of_wf [DecidableEq α] {dflt : Nat → α} {t : Tab α} (h : tabWf dflt t = true) :
    tabSorted t = true := by
  simp only [tabWf, Bool.and_eq_true] at h; exact h.1

/-- Every write keeps the canonical form. -/
theorem tabWf_tabSet [DecidableEq α] {dflt : Nat → α} {t : Tab α} {k : Nat} {v : α} (h : tabWf dflt t = true) :
    tabWf dflt (tabSet dflt t k v) = true := by
  simp only [tabWf, Bool.and_eq_true] at *
  unfold tabSet
  split
  · exact ⟨tabSorted_tabDel h.1, tabTrim_tabDel h.2⟩
  · next hv => exact ⟨tabSorted_tabIns (tabSorted_tabDel h.1), tabTrim_tabIns (tabTrim_tabDel h.2) hv⟩

theorem tabAbove_filter (p : Nat × α → Bool) {t : Tab α} {a : Nat} (h : tabAbove t a = true) :
    tabAbove (t.filter p) a = true := by
  induction t generalizing a with
  | nil => rfl
  | cons e t ih =>
    obtain ⟨j, v⟩ := e
    simp only [tabAbove, Bool.and_eq_true, decide_eq_true_eq] at h
    simp only [List.filter]
    split
    · simp only [tabAbove, Bool.and_eq_true, decide_eq_true_eq]; exact ⟨h.1, ih h.2⟩
    · exact ih (tabAbove_mono (by omega) h.2)

/-- Dropping entries keeps the canonical form. -/
theorem tabWf_filter [DecidableEq α] {dflt : Nat → α} (p : Nat × α → Bool) {t : Tab α} (h : tabWf dflt t = true) :
    tabWf dflt (t.filter p) = true := by
  simp only [tabWf, Bool.and_eq_true] at *
  refine ⟨?_, ?_⟩
  · cases t with
    | nil => rfl
    | cons e t =>
      obtain ⟨j, v⟩ := e
      have hb : tabAbove t j = true := h.1
      simp only [List.filter]
      split
      · exact tabAbove_filter p hb
      · exact tabSorted_of_above (tabAbove_filter p hb)
  · have h2 := h.2
    clear h
    induction t with
    | nil => rfl
    | cons e t ih =>
      obtain ⟨j, v⟩ := e
      simp only [tabTrim, Bool.and_eq_true] at h2
      simp only [List.filter]
      split
      · simp only [tabTrim, Bool.and_eq_true]; exact ⟨h2.1, ih h2.2⟩
      · exact ih h2.2

end Sys2Proof.Machine
end

