-- ==== Sys2Proof/Laws/Regs.lean ====
section
/-! SUPPORT. Registers and their fields: a field reads back what was put into it, a write of one
field leaves every other field alone, and memory writes keep the canonical form. -/

namespace Sys2Proof

theorem bits_lt (n hi lo : Nat) : bits n hi lo < 2 ^ (hi + 1 - lo) := Nat.mod_lt _ (Nat.two_pow_pos _)

/-- Bits below 2^k are those of the number below 2^k. -/
theorem bits_mod_two_pow (n hi lo k : Nat) (h : hi < k) : bits (n % 2 ^ k) hi lo = bits n hi lo := by
  by_cases hl : lo ≤ hi
  · unfold bits
    have e1 : k = lo + (k - lo) := by omega
    have e2 : k - lo = (hi + 1 - lo) + (k - (hi + 1)) := by omega
    rw [e1, Nat.pow_add, Nat.mod_mul_right_div_self, e2, Nat.pow_add, Nat.mod_mul_right_mod]
  · unfold bits
    have e : hi + 1 - lo = 0 := by omega
    rw [e]; omega

/-- The bits of a field read back what was put there. -/
theorem bits_putBits_same (n hi lo v : Nat) (h : lo ≤ hi) : bits (putBits n hi lo v) hi lo = v % 2 ^ (hi + 1 - lo) := by
  unfold bits putBits
  have e : hi + 1 = lo + (hi + 1 - lo) := by omega
  generalize hw : hi + 1 - lo = w at *
  rw [e, Nat.pow_add]
  have hp : 0 < 2 ^ lo := Nat.two_pow_pos _
  have : n % 2 ^ lo + v % 2 ^ w * 2 ^ lo + n / (2 ^ lo * 2 ^ w) * (2 ^ lo * 2 ^ w)
      = n % 2 ^ lo + 2 ^ lo * (v % 2 ^ w + 2 ^ w * (n / (2 ^ lo * 2 ^ w))) := by
    rw [Nat.mul_add, Nat.mul_comm (v % 2 ^ w), Nat.add_assoc, Nat.mul_comm (n / (2 ^ lo * 2 ^ w)), Nat.mul_assoc]
  rw [this, Nat.add_mul_div_left _ _ hp, Nat.div_eq_of_lt (Nat.mod_lt _ hp), Nat.zero_add,
    Nat.add_mul_mod_self_left, Nat.mod_mod]

theorem putBits_mod_low (n hi lo v k : Nat) (h : k ≤ lo) (hl : lo ≤ hi) : putBits n hi lo v % 2 ^ k = n % 2 ^ k := by
  unfold putBits
  have e : lo = k + (lo - k) := by omega
  have e2 : hi + 1 = k + (hi + 1 - k) := by omega
  generalize hi + 1 - lo = w
  have d1 : (2 ^ k) ∣ v % 2 ^ w * 2 ^ lo := ⟨v % 2 ^ w * 2 ^ (lo - k), by
    rw [e, Nat.pow_add, ← e]; ac_rfl⟩
  have d2 : (2 ^ k) ∣ n / 2 ^ (hi + 1) * 2 ^ (hi + 1) := ⟨n / 2 ^ (hi + 1) * 2 ^ (hi + 1 - k), by
    rw [Nat.mul_left_comm, ← Nat.pow_add, ← e2]⟩
  rw [Nat.add_mod, Nat.mod_eq_zero_of_dvd d2, Nat.add_zero, Nat.mod_mod, Nat.add_mod, Nat.mod_eq_zero_of_dvd d1,
    Nat.add_zero, Nat.mod_mod]
  exact Nat.mod_mod_of_dvd n (Nat.pow_dvd_pow 2 h)

theorem putBits_div_high (n hi lo v : Nat) (h : lo ≤ hi) : putBits n hi lo v / 2 ^ (hi + 1) = n / 2 ^ (hi + 1) := by
  unfold putBits
  have e : hi + 1 = lo + (hi + 1 - lo) := by omega
  have hlt : n % 2 ^ lo + v % 2 ^ (hi + 1 - lo) * 2 ^ lo < 2 ^ (hi + 1) := by
    have h1 : n % 2 ^ lo < 2 ^ lo := Nat.mod_lt _ (Nat.two_pow_pos _)
    have h2 : v % 2 ^ (hi + 1 - lo) < 2 ^ (hi + 1 - lo) := Nat.mod_lt _ (Nat.two_pow_pos _)
    calc n % 2 ^ lo + v % 2 ^ (hi + 1 - lo) * 2 ^ lo
        < 2 ^ lo + v % 2 ^ (hi + 1 - lo) * 2 ^ lo := by omega
      _ = (v % 2 ^ (hi + 1 - lo) + 1) * 2 ^ lo := by rw [Nat.add_mul, Nat.one_mul, Nat.add_comm]
      _ ≤ 2 ^ (hi + 1 - lo) * 2 ^ lo := Nat.mul_le_mul_right _ h2
      _ = 2 ^ (hi + 1) := by rw [← Nat.pow_add]; congr 1; omega
  rw [Nat.add_mul_div_right _ _ (Nat.two_pow_pos _), Nat.div_eq_of_lt hlt, Nat.zero_add]

theorem bits_eq_of_mod_eq {n m hi lo k : Nat} (h : hi < k) (he : n % 2 ^ k = m % 2 ^ k) : bits n hi lo = bits m hi lo := by
  rw [← bits_mod_two_pow n hi lo k h, he, bits_mod_two_pow m hi lo k h]

/-- The bits of a field that lies apart from the one written stand. -/
theorem bits_putBits_ne (n hi lo v hi' lo' : Nat) (hl : lo ≤ hi) (h : hi' < lo ∨ hi < lo') :
    bits (putBits n hi lo v) hi' lo' = bits n hi' lo' := by
  rcases h with h | h
  · exact bits_eq_of_mod_eq (k := hi' + 1) (by omega) (putBits_mod_low n hi lo v (hi' + 1) (by omega) hl)
  · unfold bits
    have e : lo' = (hi + 1) + (lo' - (hi + 1)) := by omega
    rw [e, Nat.pow_add, ← Nat.div_div_eq_div_mul, putBits_div_high n hi lo v hl, Nat.div_div_eq_div_mul]

namespace Machine

theorem Device.word_setWord_same (d : Device) (r : Nat) (w : Word) : (d.setWord r w).word r = w :=
  tabGet_tabSet_same regReset d.regs r w

theorem Device.word_setWord_ne (d : Device) {r q : Nat} (w : Word) (h : q ≠ r) : (d.setWord r w).word q = d.word q :=
  tabGet_tabSet_ne regReset d.regs w h

theorem Device.get_setWord_ne (d : Device) {r : Nat} (w : Word) {f : Fld} (h : f.reg ≠ r) :
    (d.setWord r w).get f = d.get f := by
  unfold Device.get; rw [d.word_setWord_ne w h]

/-- A field reads back what was put into it. -/
theorem Device.get_put_same (d : Device) (f : Fld) (v : Nat) (hf : f.lo ≤ f.hi ∧ f.hi < 32) :
    (d.put f v).get f = v % 2 ^ (f.hi + 1 - f.lo) := by
  unfold Device.get Device.put
  rw [d.word_setWord_same, BitVec.toNat_ofNat, bits_mod_two_pow _ _ _ _ hf.2, bits_putBits_same _ _ _ _ hf.1]

/-- A put leaves a field apart from it alone. -/
theorem Device.get_put_apart (d : Device) (f g : Fld) (v : Nat) (hf : f.lo ≤ f.hi ∧ f.hi < 32)
    (hg : g.hi < 32) (ha : g.reg ≠ f.reg ∨ g.hi < f.lo ∨ f.hi < g.lo) : (d.put f v).get g = d.get g := by
  by_cases hr : g.reg = f.reg
  · unfold Device.get Device.put
    rw [hr, d.word_setWord_same, BitVec.toNat_ofNat, bits_mod_two_pow _ _ _ _ hg,
      bits_putBits_ne _ _ _ _ _ _ hf.1 (by rcases ha with ha | ha | ha; exact absurd hr ha; exact Or.inl ha; exact Or.inr ha)]
  · exact d.get_setWord_ne _ hr

theorem Device.get_put_ne (d : Device) {f g : Fld} (v : Nat) (h : g.reg ≠ f.reg) : (d.put f v).get g = d.get g :=
  d.get_setWord_ne _ h

theorem Device.word_put_ne (d : Device) {f : Fld} (v : Nat) {r : Nat} (h : r ≠ f.reg) : (d.put f v).word r = d.word r :=
  d.word_setWord_ne _ h

theorem Device.get_lt (d : Device) (f : Fld) : d.get f < 2 ^ (f.hi + 1 - f.lo) := bits_lt _ _ _

/-! ### Memory -/

theorem memory_wf_memSet {m : List Host.Cell} {a : Nat} {b : Byte} (h : Memory.wf m = true) :
    Memory.wf (memSet m a b) = true := tabWf_tabSet h

/-- A write of bytes keeps memory's canonical form. -/
theorem memory_wf_memSets {m : List Host.Cell} {a : Nat} {bs : List Byte} (h : Memory.wf m = true) :
    Memory.wf (memSets m a bs) = true := by
  induction bs generalizing m a with
  | nil => exact h
  | cons b bs ih => exact ih (memory_wf_memSet h)

/-- Dropping bytes keeps memory's canonical form. -/
theorem memory_wf_filter {m : List Host.Cell} (p : Host.Cell → Bool) (h : Memory.wf m = true) :
    Memory.wf (m.filter p) = true := tabWf_filter p h

/-- Bytes outside those written read as before. -/
theorem tabGet_memSets_outside {m : List Host.Cell} {a : Nat} {bs : List Byte} {k : Nat}
    (h : k < a ∨ a + bs.length ≤ k) : tabGet memDflt (memSets m a bs) k = tabGet memDflt m k := by
  induction bs generalizing m a with
  | nil => rfl
  | cons b bs ih =>
    simp only [List.length_cons] at h
    rw [memSets, ih (by omega), memSet, tabGet_tabSet_ne _ _ _ (by omega)]

/-- A byte written reads as written. -/
theorem tabGet_memSets_inside {m : List Host.Cell} {a : Nat} {bs : List Byte} {i : Nat}
    (h : i < bs.length) : tabGet memDflt (memSets m a bs) (a + i) = bs[i] := by
  induction bs generalizing m a i with
  | nil => simp at h
  | cons b bs ih =>
    cases i with
    | zero =>
      rw [memSets, tabGet_memSets_outside (by omega)]
      exact tabGet_tabSet_same memDflt m a b
    | succ i =>
      have := ih (m := memSet m a b) (a := a + 1) (i := i) (by simpa using h)
      rw [memSets, show a + (i + 1) = a + 1 + i by omega, this]
      rfl

end Machine
end Sys2Proof
end

