-- ==== Sys2Proof/Laws/Cores.lean ====
section
/-! SUPPORT. Signal cores: what counting an occurrence leaves alone, and the commit of a bundle of one
instruction. -/

namespace Sys2Proof.Machine
open R

@[simp] theorem Device.core_setCore_same (d : Device) (c k : Nat) (x : Core) : (d.setCore c k x).core c k = x :=
  tabGet_tabSet_same _ _ _ _

theorem Device.cores_setCore_ne (d : Device) {c k n : Nat} (x : Core) (h : n ≠ 8 * c + k) :
    tabGet (fun _ => core0) (d.setCore c k x).cores n = tabGet (fun _ => core0) d.cores n :=
  tabGet_tabSet_ne _ _ _ h

@[simp] theorem Device.core_put (d : Device) (f : Fld) (v c k : Nat) : (d.put f v).core c k = d.core c k := rfl
@[simp] theorem Device.word_setCore (d : Device) (c k : Nat) (x : Core) (r : Nat) : (d.setCore c k x).word r = d.word r := rfl
@[simp] theorem Device.get_setCore (d : Device) (c k : Nat) (x : Core) (f : Fld) : (d.setCore c k x).get f = d.get f := rfl

/-- What touches only a core's counters: the core but for them, other cores, the registers but the counters' control
registers, and everything else stand. -/
structure Device.CountsOnly (d t : Device) (c k : Nat) : Prop where
  core : ∃ h, t.core c k = { d.core c k with hpm := h }
  others : ∀ n, n ≠ 8 * c + k → tabGet (fun _ => core0) t.cores n = tabGet (fun _ => core0) d.cores n
  words : ∀ r, (∀ n < 8, r ≠ CX_HPM_CTL c k n) → t.word r = d.word r
  rest : t = { d with regs := t.regs, cores := t.cores }

theorem Device.CountsOnly.refl (d : Device) (c k : Nat) : d.CountsOnly d c k :=
  ⟨⟨(d.core c k).hpm, rfl⟩, fun _ _ => rfl, fun _ _ => rfl, rfl⟩

theorem Device.CountsOnly.trans {d e t : Device} {c k : Nat} (h : d.CountsOnly e c k) (g : e.CountsOnly t c k) :
    d.CountsOnly t c k := by
  obtain ⟨⟨h1, hc⟩, ho, hw, hr⟩ := h
  obtain ⟨⟨g1, gc⟩, go, gw, gr⟩ := g
  refine ⟨⟨g1, by rw [gc, hc]⟩, fun n hn => (go n hn).trans (ho n hn), fun r hr => (gw r hr).trans (hw r hr), ?_⟩
  rw [gr, hr]

theorem Device.hpmStep_countsOnly (d : Device) (c k n j : Nat) (hn : n < 8) : d.CountsOnly (d.hpmStep c k n j) c k := by
  unfold Device.hpmStep
  dsimp only
  split
  · refine ⟨⟨_, Device.core_setCore_same _ _ _ _⟩, fun m hm => Device.cores_setCore_ne _ _ hm, fun r hr => ?_, rfl⟩
    rw [Device.word_setCore]
    exact Device.word_put_ne _ _ (hr n hn)
  · exact ⟨⟨_, Device.core_setCore_same _ _ _ _⟩, fun m hm => Device.cores_setCore_ne _ _ hm, fun r hr => rfl, rfl⟩

/-- Counting an occurrence changes a core's counters alone (R567, R568). -/
theorem Device.hpm_countsOnly (d : Device) (c k ev j : Nat) : d.CountsOnly (d.hpm c k ev j) c k := by
  unfold Device.hpm
  split
  · exact .refl d c k
  · suffices h : ∀ (l : List Nat) (e : Device), (∀ n ∈ l, n < 8) → d.CountsOnly e c k →
        d.CountsOnly (l.foldl (fun (d : Device) n =>
          if d.get (CX_HPM_CTL_EVENT c k n) = ev && d.hpmMode c k n (d.get (CX_STATUS_PRIV c k)) then d.hpmStep c k n j
          else d) e) c k by
      refine (h _ d (fun n hn => List.mem_range.mp hn) (.refl d c k)).trans ?_
      dsimp only
      split
      · exact ⟨⟨_, Device.core_setCore_same _ _ _ _⟩, fun m hm => Device.cores_setCore_ne _ _ hm, fun _ _ => rfl, rfl⟩
      · exact .refl _ c k
    intro l
    induction l with
    | nil => intro e _ he; exact he
    | cons n l ih =>
      intro e hl he
      simp only [List.foldl_cons]
      refine ih _ (fun m hm => hl m (List.mem_cons_of_mem _ hm)) ?_
      split
      · exact he.trans (Device.hpmStep_countsOnly e c k n j (hl n List.mem_cons_self))
      · exact he

/-! ### Stores -/

/-- Nothing but registers changes, and of them only those that p allows. -/
structure Device.RegsOnly (d t : Device) (p : Nat → Prop) : Prop where
  words : ∀ r, ¬ p r → t.word r = d.word r
  rest : t = { d with regs := t.regs }

theorem Device.RegsOnly.refl (d : Device) (p : Nat → Prop) : d.RegsOnly d p := ⟨fun _ _ => rfl, rfl⟩

theorem Device.RegsOnly.trans {d e t : Device} {p : Nat → Prop} (h : d.RegsOnly e p) (g : e.RegsOnly t p) : d.RegsOnly t p :=
  ⟨fun r hr => (g.words r hr).trans (h.words r hr), by rw [g.rest, h.rest]⟩

theorem Device.put_regsOnly (d : Device) (f : Fld) (v : Nat) {p : Nat → Prop} (h : p f.reg) : d.RegsOnly (d.put f v) p :=
  ⟨fun _ hr => Device.word_put_ne _ _ (fun e => hr (e ▸ h)), rfl⟩

theorem Device.foldl_regsOnly {α : Type} (f : Device → α → Device) (p : Nat → Prop) (l : List α) (d : Device)
    (h : ∀ (e : Device) (a : α), a ∈ l → e.RegsOnly (f e a) p) : d.RegsOnly (l.foldl f d) p := by
  induction l generalizing d with
  | nil => exact .refl d p
  | cons a l ih =>
    exact (h d a List.mem_cons_self).trans (ih (f d a) (fun e b hb => h e b (List.mem_cons_of_mem _ hb)))

theorem Device.ctWritten_regsOnly (d : Device) (a n : Nat) : d.RegsOnly (d.ctWritten a n) entryReg := by
  unfold Device.ctWritten
  split
  · refine Device.foldl_regsOnly _ _ _ _ (fun e i _ => ?_)
    dsimp only
    split
    · exact Device.put_regsOnly _ _ _ (.inl ⟨i, rfl⟩)
    · exact .refl e _
  · split
    · refine Device.foldl_regsOnly _ _ _ _ (fun e i _ => ?_)
      dsimp only
      split
      · exact Device.put_regsOnly _ _ _ (.inr ⟨_, i, rfl⟩)
      · exact .refl e _
    · exact .refl d _

/-- What a write marks: registers of correction entries, mirrored lines, readable bursts. -/
theorem Device.touched_eq (d : Device) (a n : Nat) : (∀ r, ¬ entryReg r → (d.touched a n).word r = d.word r) ∧
    d.touched a n = { d with
      regs := (d.touched a n).regs, marks := (d.touched a n).marks, dram := (d.touched a n).dram } := by
  unfold Device.touched
  dsimp only
  generalize (d.marks ++ _) = ms
  generalize ({ d.dram with unread := _ } : Dram) = dr
  obtain ⟨w, r⟩ := Device.ctWritten_regsOnly { d with marks := ms, dram := dr } a n
  refine ⟨w, ?_⟩
  generalize Device.ctWritten _ a n = t at r ⊢
  have hm : t.marks = ms := congrArg Device.marks r
  have hd : t.dram = dr := congrArg Device.dram r
  rw [hm, hd]
  exact r

/-- A store of bytes: memory holds them, correction entries, mirror marks and readable bursts are marked, and nothing
else changes (R470, R475, R528). -/
theorem Device.store_eq (d : Device) (a : Nat) (bs : List Byte) :
    (d.store a bs).mem = memSets d.mem a bs ∧ (∀ r, ¬ entryReg r → (d.store a bs).word r = d.word r) ∧
    d.store a bs = { d with
      regs := (d.store a bs).regs, mem := (d.store a bs).mem, marks := (d.store a bs).marks, dram := (d.store a bs).dram } := by
  unfold Device.store
  split
  · next h => simp only [List.isEmpty_iff] at h; subst h; exact ⟨rfl, fun _ _ => rfl, rfl⟩
  · obtain ⟨w, r⟩ := Device.touched_eq { d with mem := memSets d.mem a bs } a bs.length
    generalize Device.touched _ a bs.length = t at w r ⊢
    have hm : t.mem = memSets d.mem a bs := congrArg Device.mem r
    exact ⟨hm, w, by rw [hm]; exact r⟩

/-- Nothing but registers that p allows, memory, mirror marks and the record of unreadable bursts changes; memory is m. -/
structure Device.StoresOnly (d t : Device) (p : Nat → Prop) (m : List Host.Cell) : Prop where
  mem : t.mem = m
  words : ∀ r, ¬ p r → t.word r = d.word r
  rest : t = { d with regs := t.regs, mem := t.mem, marks := t.marks, dram := t.dram }

theorem Device.StoresOnly.trans {d e t : Device} {p : Nat → Prop} {m n : List Host.Cell} (h : d.StoresOnly e p m)
    (g : e.StoresOnly t p n) : d.StoresOnly t p n :=
  ⟨g.mem, fun r hr => (g.words r hr).trans (h.words r hr), by rw [g.rest, h.rest]⟩

theorem Device.stores_eq (d : Device) (ws : List (Nat × List Byte)) :
    d.StoresOnly (ws.foldl (fun (d : Device) w => d.store w.1 w.2) d) entryReg (memAll d.mem ws) := by
  induction ws generalizing d with
  | nil => exact ⟨rfl, fun _ _ => rfl, rfl⟩
  | cons w ws ih =>
    obtain ⟨hm, hw, hr⟩ := d.store_eq w.1 w.2
    have h1 : d.StoresOnly (d.store w.1 w.2) entryReg (memSets d.mem w.1 w.2) := ⟨hm, hw, hr⟩
    have h2 := ih (d.store w.1 w.2)
    rw [hm] at h2
    exact h1.trans h2

theorem memAll_outside (m : List Host.Cell) (ws : List (Nat × List Byte)) (a : Nat)
    (h : ∀ w ∈ ws, a < w.1 ∨ w.1 + w.2.length ≤ a) : tabGet memDflt (memAll m ws) a = tabGet memDflt m a := by
  induction ws generalizing m with
  | nil => rfl
  | cons w ws ih =>
    have := ih (memSets m w.1 w.2) (fun v hv => h v (List.mem_cons_of_mem _ hv))
    exact this.trans (tabGet_memSets_outside (h w List.mem_cons_self))

/-! ### The commit of a bundle that meets nothing outside its core and cluster -/

/-- An effect whose access, if any, is to the cluster's own memories and meets no fault, and that reads no CSR. -/
def CEff.still : CEff → Bool
  | .load _ a _ _ _ _ ue => cspace a != .far && !ue
  | .store _ a _ _ => cspace a != .far
  | .vmem slot _ w els _ ue => (vmemFault slot w els ue).isNone
  | .trap _ _ _ _ => false
  | .ce _ _ _ => false
  | .csrRead _ _ => false
  | _ => true

/-- An effect that does nothing once the registers are written. -/
def CEff.early : CEff → Bool
  | .csrWrite _ _ => false
  | .eret => false
  | .clrProv => false
  | .claim _ _ => false
  | .vector _ => false
  | .cp _ => false
  | .wait _ => false
  | _ => true

/-- The bytes that still effects store: where, and what. -/
def effBytes (c k : Nat) (es : List CEff) : List (Nat × List Byte) :=
  es.flatMap (fun e => match e with
    | .store _ a bs _ => [(corePlace c k a, bs)]
    | .vmem _ true _ els _ _ => els.map (fun q => (corePlace c k q.2.1, q.2.2))
    | _ => [])

theorem Device.effStore_still (d : Device) (c k : Nat) (es : List CEff) (h : ∀ e ∈ es, e.still = true) :
    es.foldl (fun (d : Device) e => d.effStore c k e) d =
      (effBytes c k es).foldl (fun (d : Device) w => d.store w.1 w.2) d := by
  induction es generalizing d with
  | nil => rfl
  | cons e es ih =>
    have he := h e List.mem_cons_self
    simp only [List.foldl_cons]
    rw [ih _ (fun e' h' => h e' (List.mem_cons_of_mem _ h'))]
    unfold effBytes
    rw [List.flatMap_cons, List.foldl_append]
    congr 1
    clear ih h
    cases e with
    | vmem slot st w els dst ue =>
      cases st
      · rfl
      · simp only [Device.effStore, Device.vstore, List.foldl_map]
    | store slot a bs b =>
      have hf : (cspace a == .far) = false := by simpa [CEff.still, bne] using he
      simp [Device.effStore, hf]
    | ce a pos rmw => cases he
    | _ => rfl

theorem Device.effCe_still (d : Device) (c k : Nat) (es : List CEff) (h : ∀ e ∈ es, e.still = true) :
    es.foldl (fun (d : Device) e => d.effCe c k e) d = d := by
  induction es with
  | nil => rfl
  | cons e es ih =>
    have he := h e List.mem_cons_self
    simp only [List.foldl_cons]
    have : d.effCe c k e = d := by
      cases e with
      | ce a pos rmw => cases he
      | _ => rfl
    rw [this]; exact ih (fun e' h' => h e' (List.mem_cons_of_mem _ h'))

theorem Device.csrReads_still (d : Device) (c k : Nat) (es : List CEff) (h : ∀ e ∈ es, e.still = true) :
    d.csrReads c k es = (d, []) := by
  induction es with
  | nil => rfl
  | cons e es ih =>
    have he := h e List.mem_cons_self
    have := ih (fun e' h' => h e' (List.mem_cons_of_mem _ h'))
    cases e <;> simp_all [CEff.still, Device.csrReads]

theorem Device.farLoads_still (d : Device) (c k : Nat) (es : List CEff) (h : ∀ e ∈ es, e.still = true) :
    d.farLoads c k es = d := by
  induction es with
  | nil => rfl
  | cons e es ih =>
    have he := h e List.mem_cons_self
    have := ih (fun e' h' => h e' (List.mem_cons_of_mem _ h'))
    cases e <;> simp_all [CEff.still, Device.farLoads]

theorem Device.memFaults_still (d : Device) (c k : Nat) (es : List CEff) (h : ∀ e ∈ es, e.still = true) :
    d.memFaults c k es = none := by
  induction es with
  | nil => rfl
  | cons e es ih =>
    have he := h e List.mem_cons_self
    have := ih (fun e' h' => h e' (List.mem_cons_of_mem _ h'))
    cases e <;> simp_all [CEff.still, Device.memFaults]

theorem Device.effLast_early (d : Device) (c k : Nat) (es : List CEff) (h : ∀ e ∈ es, e.early = true) :
    es.foldl (fun (d : Device) e => d.effLast c k e) d = d := by
  induction es with
  | nil => rfl
  | cons e es ih =>
    have he := h e List.mem_cons_self
    simp only [List.foldl_cons]
    have : d.effLast c k e = d := by cases e <;> simp_all [CEff.early, Device.effLast]
    rw [this]; exact ih (fun e' h' => h e' (List.mem_cons_of_mem _ h'))

theorem Core.loopEnd_hpm (x : Core) (h : Tab Nat) (e : Nat) (ls : List Loop) :
    { x with hpm := h }.loopEnd e ls = { x.loopEnd e ls with hpm := h } := by
  induction ls with
  | nil => rfl
  | cons l t ih =>
    unfold Core.loopEnd
    split
    · rfl
    · split
      · rfl
      · exact ih

theorem Core.advance_hpm (x : Core) (h : Tab Nat) (es : List CEff) :
    { x with hpm := h }.advance es = { x.advance es with hpm := h } := by
  unfold Core.advance
  dsimp only
  split
  · split
    · rfl
    · split
      · rfl
      · exact Core.loopEnd_hpm { x with branch := none } h _ _
  · split
    · rfl
    · split
      · exact Core.loopEnd_hpm x h _ _
      · rfl
    · exact Core.loopEnd_hpm x h _ _

theorem Core.retire_hpm (x : Core) (h : Tab Nat) (ws : List (Nat × CWrite)) (es : List CEff) :
    { x with hpm := h }.retire ws es = { x.retire ws es with hpm := h } := by
  have e := Core.advance_hpm { x.aged with
    regs := x.aged.regs.writes ((ws.filter (fun w => decide (w.1 ≤ 1))).map Prod.snd)
    flight := x.aged.flight ++ (ws.filter (fun w => decide (1 < w.1))).map (fun w => (w.1 - 1, w.2)) } h es
  simp only [Core.retire, Core.aged] at e ⊢
  rw [e]
  rfl

/-- The commit of still effects up to their register writes: the core is one bundle on, but for its counters; memory
holds what they store; nothing else changes but registers a commit may write, mirror marks and readable bursts. -/
theorem Device.commitRegs_still (d : Device) (i : SlotOp) (es : List CEff) (hs : (d.core i.c.val i.k.val).staged = es)
    (hq : ∀ e ∈ es, e.still = true) (hg : (d.core i.c.val i.k.val).got = []) :
    (∃ h, (d.commitRegs i.c.val i.k.val).core i.c.val i.k.val = { (d.core i.c.val i.k.val).retire (es.flatMap (d.effWrites i.c.val i.k.val)) es with hpm := h }) ∧
    (∀ n, n ≠ 8 * i.c.val + i.k.val → tabGet (fun _ => core0) (d.commitRegs i.c.val i.k.val).cores n = tabGet (fun _ => core0) d.cores n) ∧
    (∀ r, ¬ commitReg i (effBytes i.c.val i.k.val es) r → (d.commitRegs i.c.val i.k.val).word r = d.word r) ∧
    (d.commitRegs i.c.val i.k.val).mem = memAll d.mem (effBytes i.c.val i.k.val es) ∧
    (effBytes i.c.val i.k.val es = [] → (d.commitRegs i.c.val i.k.val).marks = d.marks ∧ (d.commitRegs i.c.val i.k.val).dram = d.dram) ∧
    d.commitRegs i.c.val i.k.val = { d with
      regs := (d.commitRegs i.c.val i.k.val).regs, cores := (d.commitRegs i.c.val i.k.val).cores, mem := (d.commitRegs i.c.val i.k.val).mem
      marks := (d.commitRegs i.c.val i.k.val).marks, dram := (d.commitRegs i.c.val i.k.val).dram } := by
  revert hs hg
  generalize hcc : i.c.val = c
  generalize hkk : i.k.val = k
  intro hs hg
  have hc1 := d.hpm_countsOnly c k 2 1
  generalize hd1 : d.hpm c k 2 1 = d1 at hc1
  obtain ⟨⟨h1, c1⟩, o1, w1, r1⟩ := hc1
  have hst := Device.stores_eq d1 (effBytes c k es)
  rw [← Device.effStore_still d1 c k es hq] at hst
  generalize hd2 : es.foldl (fun (d : Device) e => d.effStore c k e) d1 = d2 at hst
  obtain ⟨m2, w2, r2⟩ := hst
  have hid : effBytes c k es = [] → d2 = d1 := by
    intro hn; rw [← hd2, Device.effStore_still d1 c k es hq, hn]; rfl
  have cs2 : d2.cores = d1.cores := by have h := congrArg Device.cores r2; exact h
  have c2 : d2.core c k = { d.core c k with hpm := h1 } := by
    rw [← c1]; unfold Device.core; rw [cs2]
  have hl : d2.loadMarks c k = d2 := by unfold Device.loadMarks; rw [c2]; simp [hg]
  generalize hx : (d2.core c k).retire (es.flatMap (d.effWrites c k)) es = x3
  have ex : x3 = { (d.core c k).retire (es.flatMap (d.effWrites c k)) es with hpm := h1 } := by
    rw [← hx, c2]; exact Core.retire_hpm _ _ _ _
  generalize hd3 : (if (d2.core c k).resumed then (d2.setCore c k x3).put (CX_VRESUME_ARMED c k) 0 else d2.setCore c k x3) = d3
  have e : d.commitRegs c k = d3 := by
    unfold Device.commitRegs
    simp only [hs, hd1, Device.effCe_still _ _ _ _ hq, hd2, hl, Device.csrReads_still _ _ _ _ hq, List.append_nil, hx, hd3]
  have e3 : (d3.core c k = x3) ∧ (∀ n, n ≠ 8 * c + k → tabGet (fun _ => core0) d3.cores n = tabGet (fun _ => core0) d2.cores n) ∧
      (∀ r, r ≠ CX_VRESUME c k → d3.word r = d2.word r) ∧ d3 = { d2 with regs := d3.regs, cores := d3.cores } := by
    rw [← hd3]
    split
    · exact ⟨Device.core_setCore_same _ _ _ _, fun n hn => Device.cores_setCore_ne _ _ hn,
        fun r hr => Device.word_put_ne _ _ hr, rfl⟩
    · exact ⟨Device.core_setCore_same _ _ _ _, fun n hn => Device.cores_setCore_ne _ _ hn, fun _ _ => rfl, rfl⟩
  obtain ⟨c3, o3, w3, r3⟩ := e3
  rw [e]
  have m3 : d3.mem = d2.mem := by have h := congrArg Device.mem r3; exact h
  have m1 : d1.mem = d.mem := by have h := congrArg Device.mem r1; exact h
  have km : d3.marks = d2.marks := by have h := congrArg Device.marks r3; exact h
  have kd : d3.dram = d2.dram := by have h := congrArg Device.dram r3; exact h
  have jm : d1.marks = d.marks := by have h := congrArg Device.marks r1; exact h
  have jd : d1.dram = d.dram := by have h := congrArg Device.dram r1; exact h
  refine ⟨⟨h1, by rw [c3, ex]⟩, fun n hn => ?_, fun r hr => ?_, by rw [m3, m2, m1], fun hn => ?_, ?_⟩
  · rw [o3 n hn, cs2]; exact o1 n hn
  · unfold commitReg at hr
    rw [hcc, hkk] at hr
    have e2 : d2.word r = d1.word r := by
      by_cases hn : effBytes c k es = []
      · rw [hid hn]
      · exact w2 r (fun h => hr (.inr (.inr ⟨hn, h⟩)))
    rw [w3 r (fun h => hr (.inr (.inl h))), e2]
    exact w1 r (fun n hn h => hr (.inl ⟨n, hn, h⟩))
  · rw [km, kd, hid hn]; exact ⟨jm, jd⟩
  · rw [m3, km, kd, r3, r2, r1]

end Sys2Proof.Machine
end

