-- ==== Sys2Proof/Laws/Bundle.lean ====
section
/-! SUPPORT. A bundle of one instruction: what issuing it comes to. -/

namespace Sys2Proof.Machine
open R

/-- The core as an instruction alone in its bundle finds it. -/
def Core.opening (x : Core) : Core := { x with opened := true, slots := [], staged := [], got := [] }

/-- The device as an instruction alone in its bundle finds it. -/
def Device.opening (d : Device) (i : SlotOp) : Device := d.setCore i.c.val i.k.val (d.coreOf i).opening

/-- The device with an instruction's effects staged, its bundle whole. -/
def Device.whole (d : Device) (i : SlotOp) (use : Nat) (es : List CEff) : Device :=
  { d.opening i with free := d.free + use }.setCore i.c.val i.k.val
    { (d.coreOf i).opening with slots := [i.slot.val], staged := es, whole := true }

theorem Device.Alone.bundleOpen {d : Device} {i : SlotOp} {slots : List Nat} (h : d.Alone i slots) :
    d.bundleOpen i.c.val i.k.val i.fetchUe = d.opening i := by
  have hp := h.inRange
  have ha := h.aligned
  simp only [Device.coreOf] at hp ha
  unfold Device.bundleOpen Device.opening Device.coreOf Core.opening
  have h1 : ¬ 0x17FE0 < (d.core i.c.val i.k.val).pc := by omega
  simp [h.issues, h.noBreak, h.fetched, h1, ha]

theorem Device.issue_alone {d : Device} {i : SlotOp} {slots : List Nat} (h : d.Alone i slots) (use : Nat)
    (eff : Device → Core → List CEff) :
    d.issue i slots use eff = (d.whole i use (eff (d.opening i) (d.coreOf i).opening)).bundleGo i.c.val i.k.val := by
  have hi := h.issues
  have hw : (d.core i.c.val i.k.val).whole = false := by
    unfold Device.issues at hi; simp at hi; exact hi.1.1.1.1.1.1.1.1.2
  unfold Device.issue
  simp only [h.first, if_true, h.bundleOpen, h.last, h.slot]
  have hc : (d.opening i).core i.c.val i.k.val = (d.coreOf i).opening := Device.core_setCore_same _ _ _ _
  have hs : (d.coreOf i).opening.whole = false := hw
  rw [hc, hs]
  rfl

theorem Core.retire_opened (x : Core) (ws : List (Nat × CWrite)) (es : List CEff) (ss : List Nat) (st : List CEff) (w : Bool)
    (hb : x.branch = none) (hl : x.loops = []) :
    { x.opening with slots := ss, staged := st, whole := w }.retire ws es = x.retire ws es := by
  unfold Core.retire Core.advance Core.opening Core.aged
  simp only [hb, hl]
  split
  · rfl
  · split <;> rfl
  · rfl

theorem Device.commitEnd_runs {d : Device} {c k : Nat} (h : (d.core c k).halted = false)
    (hb : bit (d.get (CLU_DBG_CTRL_HALT c)) k = false) : d.commitEnd c k = d := by
  simp [Device.commitEnd, Device.dbgTry, h, hb]

theorem Core.retire_regs (x : Core) (ws : List (Nat × CWrite)) (es : List CEff) (hb : x.branch = none) (hl : x.loops = []) :
    (x.retire ws es).regs = x.aged.regs.writes ((ws.filter (fun w => decide (w.1 ≤ 1))).map (·.2)) ∧
    (x.retire ws es).flight = x.aged.flight ++ (ws.filter (fun w => decide (1 < w.1))).map (fun w => (w.1 - 1, w.2)) ∧
    (x.retire ws es).halted = x.halted := by
  unfold Core.retire Core.advance Core.aged
  simp only [hb, hl]
  split
  · exact ⟨rfl, rfl, rfl⟩
  · split <;> exact ⟨rfl, rfl, rfl⟩
  · exact ⟨rfl, rfl, rfl⟩

theorem Core.retire_next (x : Core) (ws : List (Nat × CWrite)) (es : List CEff) (hb : x.branch = none) (hl : x.loops = [])
    (h1 : branchOf es = none) (h2 : loopOf es = none) :
    (x.retire ws es).pc = x.pc + 32 ∧ (x.retire ws es).branch = none ∧ (x.retire ws es).loops = [] := by
  unfold Core.retire Core.advance Core.aged
  simp only [hb, hl, h1, h2]
  exact ⟨rfl, rfl, rfl⟩

/-- No register that a commit writes on the way holds HALT requests. -/
theorem commitReg_dbg (i : SlotOp) (st : List (Nat × List Byte)) : ¬ commitReg i st (CLU_DBG_CTRL i.c.val) := by
  have hc := i.c.isLt
  have hk := i.k.isLt
  unfold commitReg entryReg CLU_DBG_CTRL CX_HPM_CTL CX_VRESUME DRC_CT_W2 DRC_CLCT_W2
  rintro (⟨n, hn, h⟩ | h | ⟨_, ⟨n, h⟩ | ⟨c, n, h⟩⟩) <;> omega

/-- An instruction alone in its bundle whose effects are still: what commits, and what its slot does last. -/
theorem Device.issue_still {d : Device} {i : SlotOp} {slots : List Nat} (h : d.Alone i slots) (use : Nat)
    (eff : Device → Core → List CEff) (es : List CEff) (he : eff (d.opening i) (d.coreOf i).opening = es)
    (hq : ∀ e ∈ es, e.still = true) (ht : trapOf es = none)
    (hst : (d.whole i use es).bundleStall i.c.val i.k.val = false) :
    ∃ t : Device, d.issue i slots use eff =
      (es.foldl (fun (d : Device) e => d.effLast i.c.val i.k.val e) t).commitEnd i.c.val i.k.val ∧
    d.Committed t i (es.flatMap ((d.whole i use es).effWrites i.c.val i.k.val)) (effBytes i.c.val i.k.val es) [] ∧
    ∃ x : Tab Nat, t.coreOf i =
      { (d.coreOf i).retire (es.flatMap ((d.whole i use es).effWrites i.c.val i.k.val)) es with hpm := x } := by
  have hi := h.issues
  have hx : (d.core i.c.val i.k.val).load = none := by
    unfold Device.issues at hi; simp at hi; exact hi.1.1.1.2
  have hcore : (d.whole i use es).core i.c.val i.k.val =
      { (d.coreOf i).opening with slots := [i.slot.val], staged := es, whole := true } := Device.core_setCore_same _ _ _ _
  refine ⟨(d.whole i use es).commitRegs i.c.val i.k.val, ?_, ?_⟩
  · rw [Device.issue_alone h, he]
    unfold Device.bundleGo
    simp only [hcore, ht, hst, Device.memFaults_still _ _ _ _ hq, Device.farLoads_still _ _ _ _ hq]
    simp [Core.opening, Device.coreOf, hx, Device.commit, hcore]
  · obtain ⟨⟨x, hc⟩, ho, hw, hm, hn, hr⟩ :=
      Device.commitRegs_still (d.whole i use es) i es (by rw [hcore]) hq (by rw [hcore]; rfl)
    rw [hcore, Core.retire_opened _ _ _ _ _ _ h.noBranch h.noLoop] at hc
    generalize (d.whole i use es).commitRegs i.c.val i.k.val = t at *
    generalize es.flatMap ((d.whole i use es).effWrites i.c.val i.k.val) = ws at *
    obtain ⟨e1, e2, _⟩ := Core.retire_regs (d.coreOf i) ws es h.noBranch h.noLoop
    refine ⟨⟨?_, ?_, hm, ?_, ?_, ?_, hn, ?_⟩, x, hc⟩
    · exact (congrArg Core.regs hc).trans e1
    · exact (congrArg Core.flight hc).trans e2
    · intro a ha
      unfold Device.byte
      rw [hm]
      exact memAll_outside _ _ _ ha
    · intro r h8 _
      rw [hw r h8]
      rfl
    · intro n hne
      rw [ho n hne]
      unfold Device.whole Device.opening
      rw [Device.cores_setCore_ne _ _ hne]
      exact Device.cores_setCore_ne _ _ hne
    · have hf : t.free = d.free + use := by have g := congrArg Device.free hr; exact g
      rw [hf]
      exact hr

/-- The same, of effects that do nothing last: the commit is the whole of it. -/
theorem Device.issue_early {d : Device} {i : SlotOp} {slots : List Nat} (h : d.Alone i slots) (use : Nat)
    (eff : Device → Core → List CEff) (es : List CEff) (he : eff (d.opening i) (d.coreOf i).opening = es)
    (hq : ∀ e ∈ es, e.still = true) (hl : ∀ e ∈ es, e.early = true) (ht : trapOf es = none)
    (hst : (d.whole i use es).bundleStall i.c.val i.k.val = false) :
    d.Committed (d.issue i slots use eff) i (es.flatMap ((d.whole i use es).effWrites i.c.val i.k.val))
      (effBytes i.c.val i.k.val es) [] ∧
    ∃ x : Tab Nat, (d.issue i slots use eff).coreOf i =
      { (d.coreOf i).retire (es.flatMap ((d.whole i use es).effWrites i.c.val i.k.val)) es with hpm := x } := by
  obtain ⟨t, e, hc, x, hx⟩ := Device.issue_still h use eff es he hq ht hst
  have hh : (t.core i.c.val i.k.val).halted = false := by
    have := congrArg Core.halted hx
    exact (this.trans (Core.retire_regs _ _ _ h.noBranch h.noLoop).2.2).trans h.runs
  have hb : bit (t.get (CLU_DBG_CTRL_HALT i.c.val)) i.k.val = false := by
    have : t.word (CLU_DBG_CTRL i.c.val) = d.word (CLU_DBG_CTRL i.c.val) :=
      hc.words _ (commitReg_dbg i _) (List.not_mem_nil)
    have hn := h.noHalt
    unfold Device.get at hn ⊢
    simp only [CLU_DBG_CTRL_HALT] at hn ⊢
    rw [this]; exact hn
  rw [e, Device.effLast_early _ _ _ _ hl, Device.commitEnd_runs hh hb]
  exact ⟨hc, x, hx⟩

/-- An instruction alone in its bundle whose effects are still, do nothing last, and neither branch nor repeat: it makes
its register writes and stores and goes on to the next bundle. -/
theorem retires_of_issue {c : Instr} {s : State} {i : SlotOp} {slots : List Nat} {use : Nat}
    {eff : Device → Core → List CEff} (es : List CEff) (hx : exec c s = s.run (fun d => d.issue i slots use eff))
    (h : s.dev.Alone i slots) (he : eff (s.dev.opening i) (s.dev.coreOf i).opening = es)
    (hq : ∀ e ∈ es, e.still = true) (hl : ∀ e ∈ es, e.early = true)
    (ht : trapOf es = none) (hst : (s.dev.whole i use es).bundleStall i.c.val i.k.val = false)
    (hb : branchOf es = none) (hl2 : loopOf es = none) :
    Retires c i s (es.flatMap ((s.dev.whole i use es).effWrites i.c.val i.k.val)) (effBytes i.c.val i.k.val es) := by
  obtain ⟨hc, x, hcore⟩ := Device.issue_early h use eff es he hq hl ht hst
  refine ⟨s.dev.issue i slots use eff, hx, hc, ?_⟩
  unfold Device.NextBundle
  rw [hcore]
  exact Core.retire_next _ _ _ h.noBranch h.noLoop hb hl2

end Sys2Proof.Machine
end

