-- ==== Sys2Proof/Laws/State.lean ====
section
/-! SUPPORT. What the shared updates of the device leave alone: one lemma per field per update. -/

namespace Sys2Proof.Machine

/-! ### setWord -/

@[simp] theorem Device.setWord_mem (d : Device) (r : Nat) (w : Word) : (d.setWord r w).mem = d.mem := rfl
@[simp] theorem Device.setWord_tiles (d : Device) (r : Nat) (w : Word) : (d.setWord r w).tiles = d.tiles := rfl
@[simp] theorem Device.setWord_time (d : Device) (r : Nat) (w : Word) : (d.setWord r w).time = d.time := rfl
@[simp] theorem Device.setWord_pkl (d : Device) (r : Nat) (w : Word) : (d.setWord r w).pkl = d.pkl := rfl
@[simp] theorem Device.setWord_lwk (d : Device) (r : Nat) (w : Word) : (d.setWord r w).lwk = d.lwk := rfl
@[simp] theorem Device.setWord_heath (d : Device) (r : Nat) (w : Word) : (d.setWord r w).heath = d.heath := rfl
@[simp] theorem Device.setWord_items (d : Device) (r : Nat) (w : Word) : (d.setWord r w).items = d.items := rfl
@[simp] theorem Device.setWord_dsp (d : Device) (r : Nat) (w : Word) : (d.setWord r w).dsp = d.dsp := rfl
@[simp] theorem Device.setWord_flt (d : Device) (r : Nat) (w : Word) : (d.setWord r w).flt = d.flt := rfl
@[simp] theorem Device.setWord_msixA (d : Device) (r : Nat) (w : Word) : (d.setWord r w).msixA = d.msixA := rfl
@[simp] theorem Device.setWord_msixB (d : Device) (r : Nat) (w : Word) : (d.setWord r w).msixB = d.msixB := rfl
@[simp] theorem Device.setWord_hostA (d : Device) (r : Nat) (w : Word) : (d.setWord r w).hostA = d.hostA := rfl
@[simp] theorem Device.setWord_hostB (d : Device) (r : Nat) (w : Word) : (d.setWord r w).hostB = d.hostB := rfl
@[simp] theorem Device.setWord_hwd (d : Device) (r : Nat) (w : Word) : (d.setWord r w).hwd = d.hwd := rfl
@[simp] theorem Device.setWord_net (d : Device) (r : Nat) (w : Word) : (d.setWord r w).net = d.net := rfl
@[simp] theorem Device.setWord_ledger (d : Device) (r : Nat) (w : Word) : (d.setWord r w).ledger = d.ledger := rfl
@[simp] theorem Device.setWord_power (d : Device) (r : Nat) (w : Word) : (d.setWord r w).power = d.power := rfl
@[simp] theorem Device.setWord_dram (d : Device) (r : Nat) (w : Word) : (d.setWord r w).dram = d.dram := rfl
@[simp] theorem Device.setWord_cores (d : Device) (r : Nat) (w : Word) : (d.setWord r w).cores = d.cores := rfl
@[simp] theorem Device.setWord_engines (d : Device) (r : Nat) (w : Word) : (d.setWord r w).engines = d.engines := rfl
@[simp] theorem Device.setWord_agc (d : Device) (r : Nat) (w : Word) : (d.setWord r w).agc = d.agc := rfl
@[simp] theorem Device.setWord_sched (d : Device) (r : Nat) (w : Word) : (d.setWord r w).sched = d.sched := rfl
@[simp] theorem Device.setWord_clipSlot (d : Device) (r : Nat) (w : Word) : (d.setWord r w).clipSlot = d.clipSlot := rfl
@[simp] theorem Device.setWord_occs (d : Device) (r : Nat) (w : Word) : (d.setWord r w).occs = d.occs := rfl
@[simp] theorem Device.setWord_bells (d : Device) (r : Nat) (w : Word) : (d.setWord r w).bells = d.bells := rfl
@[simp] theorem Device.setWord_loops (d : Device) (r : Nat) (w : Word) : (d.setWord r w).loops = d.loops := rfl
@[simp] theorem Device.setWord_fec (d : Device) (r : Nat) (w : Word) : (d.setWord r w).fec = d.fec := rfl
@[simp] theorem Device.setWord_tbcp (d : Device) (r : Nat) (w : Word) : (d.setWord r w).tbcp = d.tbcp := rfl
@[simp] theorem Device.setWord_dmas (d : Device) (r : Nat) (w : Word) : (d.setWord r w).dmas = d.dmas := rfl
@[simp] theorem Device.setWord_lanes (d : Device) (r : Nat) (w : Word) : (d.setWord r w).lanes = d.lanes := rfl
@[simp] theorem Device.setWord_ctrs (d : Device) (r : Nat) (w : Word) : (d.setWord r w).ctrs = d.ctrs := rfl
@[simp] theorem Device.setWord_groups (d : Device) (r : Nat) (w : Word) : (d.setWord r w).groups = d.groups := rfl
@[simp] theorem Device.setWord_twin (d : Device) (r : Nat) (w : Word) : (d.setWord r w).twin = d.twin := rfl
@[simp] theorem Device.setWord_marks (d : Device) (r : Nat) (w : Word) : (d.setWord r w).marks = d.marks := rfl
@[simp] theorem Device.setWord_dumps (d : Device) (r : Nat) (w : Word) : (d.setWord r w).dumps = d.dumps := rfl
@[simp] theorem Device.setWord_csrLatch (d : Device) (r : Nat) (w : Word) : (d.setWord r w).csrLatch = d.csrLatch := rfl
@[simp] theorem Device.setWord_tlm (d : Device) (r : Nat) (w : Word) : (d.setWord r w).tlm = d.tlm := rfl
@[simp] theorem Device.setWord_tap (d : Device) (r : Nat) (w : Word) : (d.setWord r w).tap = d.tap := rfl
@[simp] theorem Device.setWord_free (d : Device) (r : Nat) (w : Word) : (d.setWord r w).free = d.free := rfl
@[simp] theorem Device.setWord_out (d : Device) (r : Nat) (w : Word) : (d.setWord r w).out = d.out := rfl

/-! ### put -/

@[simp] theorem Device.put_mem (d : Device) (f : Fld) (v : Nat) : (d.put f v).mem = d.mem := rfl
@[simp] theorem Device.put_tiles (d : Device) (f : Fld) (v : Nat) : (d.put f v).tiles = d.tiles := rfl
@[simp] theorem Device.put_time (d : Device) (f : Fld) (v : Nat) : (d.put f v).time = d.time := rfl
@[simp] theorem Device.put_pkl (d : Device) (f : Fld) (v : Nat) : (d.put f v).pkl = d.pkl := rfl
@[simp] theorem Device.put_lwk (d : Device) (f : Fld) (v : Nat) : (d.put f v).lwk = d.lwk := rfl
@[simp] theorem Device.put_heath (d : Device) (f : Fld) (v : Nat) : (d.put f v).heath = d.heath := rfl
@[simp] theorem Device.put_items (d : Device) (f : Fld) (v : Nat) : (d.put f v).items = d.items := rfl
@[simp] theorem Device.put_dsp (d : Device) (f : Fld) (v : Nat) : (d.put f v).dsp = d.dsp := rfl
@[simp] theorem Device.put_flt (d : Device) (f : Fld) (v : Nat) : (d.put f v).flt = d.flt := rfl
@[simp] theorem Device.put_msixA (d : Device) (f : Fld) (v : Nat) : (d.put f v).msixA = d.msixA := rfl
@[simp] theorem Device.put_msixB (d : Device) (f : Fld) (v : Nat) : (d.put f v).msixB = d.msixB := rfl
@[simp] theorem Device.put_hostA (d : Device) (f : Fld) (v : Nat) : (d.put f v).hostA = d.hostA := rfl
@[simp] theorem Device.put_hostB (d : Device) (f : Fld) (v : Nat) : (d.put f v).hostB = d.hostB := rfl
@[simp] theorem Device.put_hwd (d : Device) (f : Fld) (v : Nat) : (d.put f v).hwd = d.hwd := rfl
@[simp] theorem Device.put_net (d : Device) (f : Fld) (v : Nat) : (d.put f v).net = d.net := rfl
@[simp] theorem Device.put_ledger (d : Device) (f : Fld) (v : Nat) : (d.put f v).ledger = d.ledger := rfl
@[simp] theorem Device.put_power (d : Device) (f : Fld) (v : Nat) : (d.put f v).power = d.power := rfl
@[simp] theorem Device.put_dram (d : Device) (f : Fld) (v : Nat) : (d.put f v).dram = d.dram := rfl
@[simp] theorem Device.put_cores (d : Device) (f : Fld) (v : Nat) : (d.put f v).cores = d.cores := rfl
@[simp] theorem Device.put_engines (d : Device) (f : Fld) (v : Nat) : (d.put f v).engines = d.engines := rfl
@[simp] theorem Device.put_agc (d : Device) (f : Fld) (v : Nat) : (d.put f v).agc = d.agc := rfl
@[simp] theorem Device.put_sched (d : Device) (f : Fld) (v : Nat) : (d.put f v).sched = d.sched := rfl
@[simp] theorem Device.put_clipSlot (d : Device) (f : Fld) (v : Nat) : (d.put f v).clipSlot = d.clipSlot := rfl
@[simp] theorem Device.put_occs (d : Device) (f : Fld) (v : Nat) : (d.put f v).occs = d.occs := rfl
@[simp] theorem Device.put_bells (d : Device) (f : Fld) (v : Nat) : (d.put f v).bells = d.bells := rfl
@[simp] theorem Device.put_loops (d : Device) (f : Fld) (v : Nat) : (d.put f v).loops = d.loops := rfl
@[simp] theorem Device.put_fec (d : Device) (f : Fld) (v : Nat) : (d.put f v).fec = d.fec := rfl
@[simp] theorem Device.put_tbcp (d : Device) (f : Fld) (v : Nat) : (d.put f v).tbcp = d.tbcp := rfl
@[simp] theorem Device.put_dmas (d : Device) (f : Fld) (v : Nat) : (d.put f v).dmas = d.dmas := rfl
@[simp] theorem Device.put_lanes (d : Device) (f : Fld) (v : Nat) : (d.put f v).lanes = d.lanes := rfl
@[simp] theorem Device.put_ctrs (d : Device) (f : Fld) (v : Nat) : (d.put f v).ctrs = d.ctrs := rfl
@[simp] theorem Device.put_groups (d : Device) (f : Fld) (v : Nat) : (d.put f v).groups = d.groups := rfl
@[simp] theorem Device.put_twin (d : Device) (f : Fld) (v : Nat) : (d.put f v).twin = d.twin := rfl
@[simp] theorem Device.put_marks (d : Device) (f : Fld) (v : Nat) : (d.put f v).marks = d.marks := rfl
@[simp] theorem Device.put_dumps (d : Device) (f : Fld) (v : Nat) : (d.put f v).dumps = d.dumps := rfl
@[simp] theorem Device.put_csrLatch (d : Device) (f : Fld) (v : Nat) : (d.put f v).csrLatch = d.csrLatch := rfl
@[simp] theorem Device.put_tlm (d : Device) (f : Fld) (v : Nat) : (d.put f v).tlm = d.tlm := rfl
@[simp] theorem Device.put_tap (d : Device) (f : Fld) (v : Nat) : (d.put f v).tap = d.tap := rfl
@[simp] theorem Device.put_free (d : Device) (f : Fld) (v : Nat) : (d.put f v).free = d.free := rfl
@[simp] theorem Device.put_out (d : Device) (f : Fld) (v : Nat) : (d.put f v).out = d.out := rfl

/-! ### bump -/

@[simp] theorem Device.bump_mem (d : Device) (f : Fld) (k : Nat) : (d.bump f k).mem = d.mem := rfl
@[simp] theorem Device.bump_tiles (d : Device) (f : Fld) (k : Nat) : (d.bump f k).tiles = d.tiles := rfl
@[simp] theorem Device.bump_time (d : Device) (f : Fld) (k : Nat) : (d.bump f k).time = d.time := rfl
@[simp] theorem Device.bump_pkl (d : Device) (f : Fld) (k : Nat) : (d.bump f k).pkl = d.pkl := rfl
@[simp] theorem Device.bump_lwk (d : Device) (f : Fld) (k : Nat) : (d.bump f k).lwk = d.lwk := rfl
@[simp] theorem Device.bump_heath (d : Device) (f : Fld) (k : Nat) : (d.bump f k).heath = d.heath := rfl
@[simp] theorem Device.bump_items (d : Device) (f : Fld) (k : Nat) : (d.bump f k).items = d.items := rfl
@[simp] theorem Device.bump_dsp (d : Device) (f : Fld) (k : Nat) : (d.bump f k).dsp = d.dsp := rfl
@[simp] theorem Device.bump_flt (d : Device) (f : Fld) (k : Nat) : (d.bump f k).flt = d.flt := rfl
@[simp] theorem Device.bump_msixA (d : Device) (f : Fld) (k : Nat) : (d.bump f k).msixA = d.msixA := rfl
@[simp] theorem Device.bump_msixB (d : Device) (f : Fld) (k : Nat) : (d.bump f k).msixB = d.msixB := rfl
@[simp] theorem Device.bump_hostA (d : Device) (f : Fld) (k : Nat) : (d.bump f k).hostA = d.hostA := rfl
@[simp] theorem Device.bump_hostB (d : Device) (f : Fld) (k : Nat) : (d.bump f k).hostB = d.hostB := rfl
@[simp] theorem Device.bump_hwd (d : Device) (f : Fld) (k : Nat) : (d.bump f k).hwd = d.hwd := rfl
@[simp] theorem Device.bump_net (d : Device) (f : Fld) (k : Nat) : (d.bump f k).net = d.net := rfl
@[simp] theorem Device.bump_ledger (d : Device) (f : Fld) (k : Nat) : (d.bump f k).ledger = d.ledger := rfl
@[simp] theorem Device.bump_power (d : Device) (f : Fld) (k : Nat) : (d.bump f k).power = d.power := rfl
@[simp] theorem Device.bump_dram (d : Device) (f : Fld) (k : Nat) : (d.bump f k).dram = d.dram := rfl
@[simp] theorem Device.bump_cores (d : Device) (f : Fld) (k : Nat) : (d.bump f k).cores = d.cores := rfl
@[simp] theorem Device.bump_engines (d : Device) (f : Fld) (k : Nat) : (d.bump f k).engines = d.engines := rfl
@[simp] theorem Device.bump_agc (d : Device) (f : Fld) (k : Nat) : (d.bump f k).agc = d.agc := rfl
@[simp] theorem Device.bump_sched (d : Device) (f : Fld) (k : Nat) : (d.bump f k).sched = d.sched := rfl
@[simp] theorem Device.bump_clipSlot (d : Device) (f : Fld) (k : Nat) : (d.bump f k).clipSlot = d.clipSlot := rfl
@[simp] theorem Device.bump_occs (d : Device) (f : Fld) (k : Nat) : (d.bump f k).occs = d.occs := rfl
@[simp] theorem Device.bump_bells (d : Device) (f : Fld) (k : Nat) : (d.bump f k).bells = d.bells := rfl
@[simp] theorem Device.bump_loops (d : Device) (f : Fld) (k : Nat) : (d.bump f k).loops = d.loops := rfl
@[simp] theorem Device.bump_fec (d : Device) (f : Fld) (k : Nat) : (d.bump f k).fec = d.fec := rfl
@[simp] theorem Device.bump_tbcp (d : Device) (f : Fld) (k : Nat) : (d.bump f k).tbcp = d.tbcp := rfl
@[simp] theorem Device.bump_dmas (d : Device) (f : Fld) (k : Nat) : (d.bump f k).dmas = d.dmas := rfl
@[simp] theorem Device.bump_lanes (d : Device) (f : Fld) (k : Nat) : (d.bump f k).lanes = d.lanes := rfl
@[simp] theorem Device.bump_ctrs (d : Device) (f : Fld) (k : Nat) : (d.bump f k).ctrs = d.ctrs := rfl
@[simp] theorem Device.bump_groups (d : Device) (f : Fld) (k : Nat) : (d.bump f k).groups = d.groups := rfl
@[simp] theorem Device.bump_twin (d : Device) (f : Fld) (k : Nat) : (d.bump f k).twin = d.twin := rfl
@[simp] theorem Device.bump_marks (d : Device) (f : Fld) (k : Nat) : (d.bump f k).marks = d.marks := rfl
@[simp] theorem Device.bump_dumps (d : Device) (f : Fld) (k : Nat) : (d.bump f k).dumps = d.dumps := rfl
@[simp] theorem Device.bump_csrLatch (d : Device) (f : Fld) (k : Nat) : (d.bump f k).csrLatch = d.csrLatch := rfl
@[simp] theorem Device.bump_tlm (d : Device) (f : Fld) (k : Nat) : (d.bump f k).tlm = d.tlm := rfl
@[simp] theorem Device.bump_tap (d : Device) (f : Fld) (k : Nat) : (d.bump f k).tap = d.tap := rfl
@[simp] theorem Device.bump_free (d : Device) (f : Fld) (k : Nat) : (d.bump f k).free = d.free := rfl
@[simp] theorem Device.bump_out (d : Device) (f : Fld) (k : Nat) : (d.bump f k).out = d.out := rfl

/-! ### count -/

@[simp] theorem Device.count_mem (d : Device) (f : Fld) (k : Nat) : (d.count f k).mem = d.mem := rfl
@[simp] theorem Device.count_tiles (d : Device) (f : Fld) (k : Nat) : (d.count f k).tiles = d.tiles := rfl
@[simp] theorem Device.count_time (d : Device) (f : Fld) (k : Nat) : (d.count f k).time = d.time := rfl
@[simp] theorem Device.count_pkl (d : Device) (f : Fld) (k : Nat) : (d.count f k).pkl = d.pkl := rfl
@[simp] theorem Device.count_lwk (d : Device) (f : Fld) (k : Nat) : (d.count f k).lwk = d.lwk := rfl
@[simp] theorem Device.count_heath (d : Device) (f : Fld) (k : Nat) : (d.count f k).heath = d.heath := rfl
@[simp] theorem Device.count_items (d : Device) (f : Fld) (k : Nat) : (d.count f k).items = d.items := rfl
@[simp] theorem Device.count_dsp (d : Device) (f : Fld) (k : Nat) : (d.count f k).dsp = d.dsp := rfl
@[simp] theorem Device.count_flt (d : Device) (f : Fld) (k : Nat) : (d.count f k).flt = d.flt := rfl
@[simp] theorem Device.count_msixA (d : Device) (f : Fld) (k : Nat) : (d.count f k).msixA = d.msixA := rfl
@[simp] theorem Device.count_msixB (d : Device) (f : Fld) (k : Nat) : (d.count f k).msixB = d.msixB := rfl
@[simp] theorem Device.count_hostA (d : Device) (f : Fld) (k : Nat) : (d.count f k).hostA = d.hostA := rfl
@[simp] theorem Device.count_hostB (d : Device) (f : Fld) (k : Nat) : (d.count f k).hostB = d.hostB := rfl
@[simp] theorem Device.count_hwd (d : Device) (f : Fld) (k : Nat) : (d.count f k).hwd = d.hwd := rfl
@[simp] theorem Device.count_net (d : Device) (f : Fld) (k : Nat) : (d.count f k).net = d.net := rfl
@[simp] theorem Device.count_ledger (d : Device) (f : Fld) (k : Nat) : (d.count f k).ledger = d.ledger := rfl
@[simp] theorem Device.count_power (d : Device) (f : Fld) (k : Nat) : (d.count f k).power = d.power := rfl
@[simp] theorem Device.count_dram (d : Device) (f : Fld) (k : Nat) : (d.count f k).dram = d.dram := rfl
@[simp] theorem Device.count_cores (d : Device) (f : Fld) (k : Nat) : (d.count f k).cores = d.cores := rfl
@[simp] theorem Device.count_engines (d : Device) (f : Fld) (k : Nat) : (d.count f k).engines = d.engines := rfl
@[simp] theorem Device.count_agc (d : Device) (f : Fld) (k : Nat) : (d.count f k).agc = d.agc := rfl
@[simp] theorem Device.count_sched (d : Device) (f : Fld) (k : Nat) : (d.count f k).sched = d.sched := rfl
@[simp] theorem Device.count_clipSlot (d : Device) (f : Fld) (k : Nat) : (d.count f k).clipSlot = d.clipSlot := rfl
@[simp] theorem Device.count_occs (d : Device) (f : Fld) (k : Nat) : (d.count f k).occs = d.occs := rfl
@[simp] theorem Device.count_bells (d : Device) (f : Fld) (k : Nat) : (d.count f k).bells = d.bells := rfl
@[simp] theorem Device.count_loops (d : Device) (f : Fld) (k : Nat) : (d.count f k).loops = d.loops := rfl
@[simp] theorem Device.count_fec (d : Device) (f : Fld) (k : Nat) : (d.count f k).fec = d.fec := rfl
@[simp] theorem Device.count_tbcp (d : Device) (f : Fld) (k : Nat) : (d.count f k).tbcp = d.tbcp := rfl
@[simp] theorem Device.count_dmas (d : Device) (f : Fld) (k : Nat) : (d.count f k).dmas = d.dmas := rfl
@[simp] theorem Device.count_lanes (d : Device) (f : Fld) (k : Nat) : (d.count f k).lanes = d.lanes := rfl
@[simp] theorem Device.count_ctrs (d : Device) (f : Fld) (k : Nat) : (d.count f k).ctrs = d.ctrs := rfl
@[simp] theorem Device.count_groups (d : Device) (f : Fld) (k : Nat) : (d.count f k).groups = d.groups := rfl
@[simp] theorem Device.count_twin (d : Device) (f : Fld) (k : Nat) : (d.count f k).twin = d.twin := rfl
@[simp] theorem Device.count_marks (d : Device) (f : Fld) (k : Nat) : (d.count f k).marks = d.marks := rfl
@[simp] theorem Device.count_dumps (d : Device) (f : Fld) (k : Nat) : (d.count f k).dumps = d.dumps := rfl
@[simp] theorem Device.count_csrLatch (d : Device) (f : Fld) (k : Nat) : (d.count f k).csrLatch = d.csrLatch := rfl
@[simp] theorem Device.count_tlm (d : Device) (f : Fld) (k : Nat) : (d.count f k).tlm = d.tlm := rfl
@[simp] theorem Device.count_tap (d : Device) (f : Fld) (k : Nat) : (d.count f k).tap = d.tap := rfl
@[simp] theorem Device.count_free (d : Device) (f : Fld) (k : Nat) : (d.count f k).free = d.free := rfl
@[simp] theorem Device.count_out (d : Device) (f : Fld) (k : Nat) : (d.count f k).out = d.out := rfl

/-! ### tally -/

@[simp] theorem Device.tally_regs (d : Device) (i k : Nat) : (d.tally i k).regs = d.regs := rfl
@[simp] theorem Device.tally_mem (d : Device) (i k : Nat) : (d.tally i k).mem = d.mem := rfl
@[simp] theorem Device.tally_tiles (d : Device) (i k : Nat) : (d.tally i k).tiles = d.tiles := rfl
@[simp] theorem Device.tally_time (d : Device) (i k : Nat) : (d.tally i k).time = d.time := rfl
@[simp] theorem Device.tally_pkl (d : Device) (i k : Nat) : (d.tally i k).pkl = d.pkl := rfl
@[simp] theorem Device.tally_lwk (d : Device) (i k : Nat) : (d.tally i k).lwk = d.lwk := rfl
@[simp] theorem Device.tally_heath (d : Device) (i k : Nat) : (d.tally i k).heath = d.heath := rfl
@[simp] theorem Device.tally_items (d : Device) (i k : Nat) : (d.tally i k).items = d.items := rfl
@[simp] theorem Device.tally_dsp (d : Device) (i k : Nat) : (d.tally i k).dsp = d.dsp := rfl
@[simp] theorem Device.tally_flt (d : Device) (i k : Nat) : (d.tally i k).flt = d.flt := rfl
@[simp] theorem Device.tally_msixA (d : Device) (i k : Nat) : (d.tally i k).msixA = d.msixA := rfl
@[simp] theorem Device.tally_msixB (d : Device) (i k : Nat) : (d.tally i k).msixB = d.msixB := rfl
@[simp] theorem Device.tally_hostA (d : Device) (i k : Nat) : (d.tally i k).hostA = d.hostA := rfl
@[simp] theorem Device.tally_hostB (d : Device) (i k : Nat) : (d.tally i k).hostB = d.hostB := rfl
@[simp] theorem Device.tally_hwd (d : Device) (i k : Nat) : (d.tally i k).hwd = d.hwd := rfl
@[simp] theorem Device.tally_net (d : Device) (i k : Nat) : (d.tally i k).net = d.net := rfl
@[simp] theorem Device.tally_ledger (d : Device) (i k : Nat) : (d.tally i k).ledger = d.ledger := rfl
@[simp] theorem Device.tally_power (d : Device) (i k : Nat) : (d.tally i k).power = d.power := rfl
@[simp] theorem Device.tally_dram (d : Device) (i k : Nat) : (d.tally i k).dram = d.dram := rfl
@[simp] theorem Device.tally_cores (d : Device) (i k : Nat) : (d.tally i k).cores = d.cores := rfl
@[simp] theorem Device.tally_engines (d : Device) (i k : Nat) : (d.tally i k).engines = d.engines := rfl
@[simp] theorem Device.tally_agc (d : Device) (i k : Nat) : (d.tally i k).agc = d.agc := rfl
@[simp] theorem Device.tally_sched (d : Device) (i k : Nat) : (d.tally i k).sched = d.sched := rfl
@[simp] theorem Device.tally_clipSlot (d : Device) (i k : Nat) : (d.tally i k).clipSlot = d.clipSlot := rfl
@[simp] theorem Device.tally_occs (d : Device) (i k : Nat) : (d.tally i k).occs = d.occs := rfl
@[simp] theorem Device.tally_bells (d : Device) (i k : Nat) : (d.tally i k).bells = d.bells := rfl
@[simp] theorem Device.tally_loops (d : Device) (i k : Nat) : (d.tally i k).loops = d.loops := rfl
@[simp] theorem Device.tally_fec (d : Device) (i k : Nat) : (d.tally i k).fec = d.fec := rfl
@[simp] theorem Device.tally_tbcp (d : Device) (i k : Nat) : (d.tally i k).tbcp = d.tbcp := rfl
@[simp] theorem Device.tally_dmas (d : Device) (i k : Nat) : (d.tally i k).dmas = d.dmas := rfl
@[simp] theorem Device.tally_lanes (d : Device) (i k : Nat) : (d.tally i k).lanes = d.lanes := rfl
@[simp] theorem Device.tally_ctrs (d : Device) (i k : Nat) : (d.tally i k).ctrs = d.ctrs := rfl
@[simp] theorem Device.tally_groups (d : Device) (i k : Nat) : (d.tally i k).groups = d.groups := rfl
@[simp] theorem Device.tally_twin (d : Device) (i k : Nat) : (d.tally i k).twin = d.twin := rfl
@[simp] theorem Device.tally_marks (d : Device) (i k : Nat) : (d.tally i k).marks = d.marks := rfl
@[simp] theorem Device.tally_dumps (d : Device) (i k : Nat) : (d.tally i k).dumps = d.dumps := rfl
@[simp] theorem Device.tally_csrLatch (d : Device) (i k : Nat) : (d.tally i k).csrLatch = d.csrLatch := rfl
@[simp] theorem Device.tally_tap (d : Device) (i k : Nat) : (d.tally i k).tap = d.tap := rfl
@[simp] theorem Device.tally_free (d : Device) (i k : Nat) : (d.tally i k).free = d.free := rfl
@[simp] theorem Device.tally_out (d : Device) (i k : Nat) : (d.tally i k).out = d.out := rfl

/-! ### emit -/

@[simp] theorem Device.emit_regs (d : Device) (o : Out) : (d.emit o).regs = d.regs := rfl
@[simp] theorem Device.emit_mem (d : Device) (o : Out) : (d.emit o).mem = d.mem := rfl
@[simp] theorem Device.emit_tiles (d : Device) (o : Out) : (d.emit o).tiles = d.tiles := rfl
@[simp] theorem Device.emit_time (d : Device) (o : Out) : (d.emit o).time = d.time := rfl
@[simp] theorem Device.emit_pkl (d : Device) (o : Out) : (d.emit o).pkl = d.pkl := rfl
@[simp] theorem Device.emit_lwk (d : Device) (o : Out) : (d.emit o).lwk = d.lwk := rfl
@[simp] theorem Device.emit_heath (d : Device) (o : Out) : (d.emit o).heath = d.heath := rfl
@[simp] theorem Device.emit_items (d : Device) (o : Out) : (d.emit o).items = d.items := rfl
@[simp] theorem Device.emit_dsp (d : Device) (o : Out) : (d.emit o).dsp = d.dsp := rfl
@[simp] theorem Device.emit_flt (d : Device) (o : Out) : (d.emit o).flt = d.flt := rfl
@[simp] theorem Device.emit_msixA (d : Device) (o : Out) : (d.emit o).msixA = d.msixA := rfl
@[simp] theorem Device.emit_msixB (d : Device) (o : Out) : (d.emit o).msixB = d.msixB := rfl
@[simp] theorem Device.emit_hostA (d : Device) (o : Out) : (d.emit o).hostA = d.hostA := rfl
@[simp] theorem Device.emit_hostB (d : Device) (o : Out) : (d.emit o).hostB = d.hostB := rfl
@[simp] theorem Device.emit_hwd (d : Device) (o : Out) : (d.emit o).hwd = d.hwd := rfl
@[simp] theorem Device.emit_net (d : Device) (o : Out) : (d.emit o).net = d.net := rfl
@[simp] theorem Device.emit_ledger (d : Device) (o : Out) : (d.emit o).ledger = d.ledger := rfl
@[simp] theorem Device.emit_power (d : Device) (o : Out) : (d.emit o).power = d.power := rfl
@[simp] theorem Device.emit_dram (d : Device) (o : Out) : (d.emit o).dram = d.dram := rfl
@[simp] theorem Device.emit_cores (d : Device) (o : Out) : (d.emit o).cores = d.cores := rfl
@[simp] theorem Device.emit_engines (d : Device) (o : Out) : (d.emit o).engines = d.engines := rfl
@[simp] theorem Device.emit_agc (d : Device) (o : Out) : (d.emit o).agc = d.agc := rfl
@[simp] theorem Device.emit_sched (d : Device) (o : Out) : (d.emit o).sched = d.sched := rfl
@[simp] theorem Device.emit_clipSlot (d : Device) (o : Out) : (d.emit o).clipSlot = d.clipSlot := rfl
@[simp] theorem Device.emit_occs (d : Device) (o : Out) : (d.emit o).occs = d.occs := rfl
@[simp] theorem Device.emit_bells (d : Device) (o : Out) : (d.emit o).bells = d.bells := rfl
@[simp] theorem Device.emit_loops (d : Device) (o : Out) : (d.emit o).loops = d.loops := rfl
@[simp] theorem Device.emit_fec (d : Device) (o : Out) : (d.emit o).fec = d.fec := rfl
@[simp] theorem Device.emit_tbcp (d : Device) (o : Out) : (d.emit o).tbcp = d.tbcp := rfl
@[simp] theorem Device.emit_dmas (d : Device) (o : Out) : (d.emit o).dmas = d.dmas := rfl
@[simp] theorem Device.emit_lanes (d : Device) (o : Out) : (d.emit o).lanes = d.lanes := rfl
@[simp] theorem Device.emit_ctrs (d : Device) (o : Out) : (d.emit o).ctrs = d.ctrs := rfl
@[simp] theorem Device.emit_groups (d : Device) (o : Out) : (d.emit o).groups = d.groups := rfl
@[simp] theorem Device.emit_twin (d : Device) (o : Out) : (d.emit o).twin = d.twin := rfl
@[simp] theorem Device.emit_marks (d : Device) (o : Out) : (d.emit o).marks = d.marks := rfl
@[simp] theorem Device.emit_dumps (d : Device) (o : Out) : (d.emit o).dumps = d.dumps := rfl
@[simp] theorem Device.emit_csrLatch (d : Device) (o : Out) : (d.emit o).csrLatch = d.csrLatch := rfl
@[simp] theorem Device.emit_tlm (d : Device) (o : Out) : (d.emit o).tlm = d.tlm := rfl
@[simp] theorem Device.emit_tap (d : Device) (o : Out) : (d.emit o).tap = d.tap := rfl
@[simp] theorem Device.emit_free (d : Device) (o : Out) : (d.emit o).free = d.free := rfl

/-! ### setTime -/

@[simp] theorem Device.setTime_regs (d : Device) (x : TimeBase) : (d.setTime x).regs = d.regs := rfl
@[simp] theorem Device.setTime_mem (d : Device) (x : TimeBase) : (d.setTime x).mem = d.mem := rfl
@[simp] theorem Device.setTime_tiles (d : Device) (x : TimeBase) : (d.setTime x).tiles = d.tiles := rfl
@[simp] theorem Device.setTime_pkl (d : Device) (x : TimeBase) : (d.setTime x).pkl = d.pkl := rfl
@[simp] theorem Device.setTime_lwk (d : Device) (x : TimeBase) : (d.setTime x).lwk = d.lwk := rfl
@[simp] theorem Device.setTime_heath (d : Device) (x : TimeBase) : (d.setTime x).heath = d.heath := rfl
@[simp] theorem Device.setTime_items (d : Device) (x : TimeBase) : (d.setTime x).items = d.items := rfl
@[simp] theorem Device.setTime_dsp (d : Device) (x : TimeBase) : (d.setTime x).dsp = d.dsp := rfl
@[simp] theorem Device.setTime_flt (d : Device) (x : TimeBase) : (d.setTime x).flt = d.flt := rfl
@[simp] theorem Device.setTime_msixA (d : Device) (x : TimeBase) : (d.setTime x).msixA = d.msixA := rfl
@[simp] theorem Device.setTime_msixB (d : Device) (x : TimeBase) : (d.setTime x).msixB = d.msixB := rfl
@[simp] theorem Device.setTime_hostA (d : Device) (x : TimeBase) : (d.setTime x).hostA = d.hostA := rfl
@[simp] theorem Device.setTime_hostB (d : Device) (x : TimeBase) : (d.setTime x).hostB = d.hostB := rfl
@[simp] theorem Device.setTime_hwd (d : Device) (x : TimeBase) : (d.setTime x).hwd = d.hwd := rfl
@[simp] theorem Device.setTime_net (d : Device) (x : TimeBase) : (d.setTime x).net = d.net := rfl
@[simp] theorem Device.setTime_ledger (d : Device) (x : TimeBase) : (d.setTime x).ledger = d.ledger := rfl
@[simp] theorem Device.setTime_power (d : Device) (x : TimeBase) : (d.setTime x).power = d.power := rfl
@[simp] theorem Device.setTime_dram (d : Device) (x : TimeBase) : (d.setTime x).dram = d.dram := rfl
@[simp] theorem Device.setTime_cores (d : Device) (x : TimeBase) : (d.setTime x).cores = d.cores := rfl
@[simp] theorem Device.setTime_engines (d : Device) (x : TimeBase) : (d.setTime x).engines = d.engines := rfl
@[simp] theorem Device.setTime_agc (d : Device) (x : TimeBase) : (d.setTime x).agc = d.agc := rfl
@[simp] theorem Device.setTime_sched (d : Device) (x : TimeBase) : (d.setTime x).sched = d.sched := rfl
@[simp] theorem Device.setTime_clipSlot (d : Device) (x : TimeBase) : (d.setTime x).clipSlot = d.clipSlot := rfl
@[simp] theorem Device.setTime_occs (d : Device) (x : TimeBase) : (d.setTime x).occs = d.occs := rfl
@[simp] theorem Device.setTime_bells (d : Device) (x : TimeBase) : (d.setTime x).bells = d.bells := rfl
@[simp] theorem Device.setTime_loops (d : Device) (x : TimeBase) : (d.setTime x).loops = d.loops := rfl
@[simp] theorem Device.setTime_fec (d : Device) (x : TimeBase) : (d.setTime x).fec = d.fec := rfl
@[simp] theorem Device.setTime_tbcp (d : Device) (x : TimeBase) : (d.setTime x).tbcp = d.tbcp := rfl
@[simp] theorem Device.setTime_dmas (d : Device) (x : TimeBase) : (d.setTime x).dmas = d.dmas := rfl
@[simp] theorem Device.setTime_lanes (d : Device) (x : TimeBase) : (d.setTime x).lanes = d.lanes := rfl
@[simp] theorem Device.setTime_ctrs (d : Device) (x : TimeBase) : (d.setTime x).ctrs = d.ctrs := rfl
@[simp] theorem Device.setTime_groups (d : Device) (x : TimeBase) : (d.setTime x).groups = d.groups := rfl
@[simp] theorem Device.setTime_twin (d : Device) (x : TimeBase) : (d.setTime x).twin = d.twin := rfl
@[simp] theorem Device.setTime_marks (d : Device) (x : TimeBase) : (d.setTime x).marks = d.marks := rfl
@[simp] theorem Device.setTime_dumps (d : Device) (x : TimeBase) : (d.setTime x).dumps = d.dumps := rfl
@[simp] theorem Device.setTime_csrLatch (d : Device) (x : TimeBase) : (d.setTime x).csrLatch = d.csrLatch := rfl
@[simp] theorem Device.setTime_tlm (d : Device) (x : TimeBase) : (d.setTime x).tlm = d.tlm := rfl
@[simp] theorem Device.setTime_tap (d : Device) (x : TimeBase) : (d.setTime x).tap = d.tap := rfl
@[simp] theorem Device.setTime_free (d : Device) (x : TimeBase) : (d.setTime x).free = d.free := rfl
@[simp] theorem Device.setTime_out (d : Device) (x : TimeBase) : (d.setTime x).out = d.out := rfl

/-! ### setTile -/

@[simp] theorem Device.setTile_regs (d : Device) (n : Nat) (x : Tile) : (d.setTile n x).regs = d.regs := rfl
@[simp] theorem Device.setTile_mem (d : Device) (n : Nat) (x : Tile) : (d.setTile n x).mem = d.mem := rfl
@[simp] theorem Device.setTile_time (d : Device) (n : Nat) (x : Tile) : (d.setTile n x).time = d.time := rfl
@[simp] theorem Device.setTile_pkl (d : Device) (n : Nat) (x : Tile) : (d.setTile n x).pkl = d.pkl := rfl
@[simp] theorem Device.setTile_lwk (d : Device) (n : Nat) (x : Tile) : (d.setTile n x).lwk = d.lwk := rfl
@[simp] theorem Device.setTile_heath (d : Device) (n : Nat) (x : Tile) : (d.setTile n x).heath = d.heath := rfl
@[simp] theorem Device.setTile_items (d : Device) (n : Nat) (x : Tile) : (d.setTile n x).items = d.items := rfl
@[simp] theorem Device.setTile_dsp (d : Device) (n : Nat) (x : Tile) : (d.setTile n x).dsp = d.dsp := rfl
@[simp] theorem Device.setTile_flt (d : Device) (n : Nat) (x : Tile) : (d.setTile n x).flt = d.flt := rfl
@[simp] theorem Device.setTile_msixA (d : Device) (n : Nat) (x : Tile) : (d.setTile n x).msixA = d.msixA := rfl
@[simp] theorem Device.setTile_msixB (d : Device) (n : Nat) (x : Tile) : (d.setTile n x).msixB = d.msixB := rfl
@[simp] theorem Device.setTile_hostA (d : Device) (n : Nat) (x : Tile) : (d.setTile n x).hostA = d.hostA := rfl
@[simp] theorem Device.setTile_hostB (d : Device) (n : Nat) (x : Tile) : (d.setTile n x).hostB = d.hostB := rfl
@[simp] theorem Device.setTile_hwd (d : Device) (n : Nat) (x : Tile) : (d.setTile n x).hwd = d.hwd := rfl
@[simp] theorem Device.setTile_net (d : Device) (n : Nat) (x : Tile) : (d.setTile n x).net = d.net := rfl
@[simp] theorem Device.setTile_ledger (d : Device) (n : Nat) (x : Tile) : (d.setTile n x).ledger = d.ledger := rfl
@[simp] theorem Device.setTile_power (d : Device) (n : Nat) (x : Tile) : (d.setTile n x).power = d.power := rfl
@[simp] theorem Device.setTile_dram (d : Device) (n : Nat) (x : Tile) : (d.setTile n x).dram = d.dram := rfl
@[simp] theorem Device.setTile_cores (d : Device) (n : Nat) (x : Tile) : (d.setTile n x).cores = d.cores := rfl
@[simp] theorem Device.setTile_engines (d : Device) (n : Nat) (x : Tile) : (d.setTile n x).engines = d.engines := rfl
@[simp] theorem Device.setTile_agc (d : Device) (n : Nat) (x : Tile) : (d.setTile n x).agc = d.agc := rfl
@[simp] theorem Device.setTile_sched (d : Device) (n : Nat) (x : Tile) : (d.setTile n x).sched = d.sched := rfl
@[simp] theorem Device.setTile_clipSlot (d : Device) (n : Nat) (x : Tile) : (d.setTile n x).clipSlot = d.clipSlot := rfl
@[simp] theorem Device.setTile_occs (d : Device) (n : Nat) (x : Tile) : (d.setTile n x).occs = d.occs := rfl
@[simp] theorem Device.setTile_bells (d : Device) (n : Nat) (x : Tile) : (d.setTile n x).bells = d.bells := rfl
@[simp] theorem Device.setTile_loops (d : Device) (n : Nat) (x : Tile) : (d.setTile n x).loops = d.loops := rfl
@[simp] theorem Device.setTile_fec (d : Device) (n : Nat) (x : Tile) : (d.setTile n x).fec = d.fec := rfl
@[simp] theorem Device.setTile_tbcp (d : Device) (n : Nat) (x : Tile) : (d.setTile n x).tbcp = d.tbcp := rfl
@[simp] theorem Device.setTile_dmas (d : Device) (n : Nat) (x : Tile) : (d.setTile n x).dmas = d.dmas := rfl
@[simp] theorem Device.setTile_lanes (d : Device) (n : Nat) (x : Tile) : (d.setTile n x).lanes = d.lanes := rfl
@[simp] theorem Device.setTile_ctrs (d : Device) (n : Nat) (x : Tile) : (d.setTile n x).ctrs = d.ctrs := rfl
@[simp] theorem Device.setTile_groups (d : Device) (n : Nat) (x : Tile) : (d.setTile n x).groups = d.groups := rfl
@[simp] theorem Device.setTile_twin (d : Device) (n : Nat) (x : Tile) : (d.setTile n x).twin = d.twin := rfl
@[simp] theorem Device.setTile_marks (d : Device) (n : Nat) (x : Tile) : (d.setTile n x).marks = d.marks := rfl
@[simp] theorem Device.setTile_dumps (d : Device) (n : Nat) (x : Tile) : (d.setTile n x).dumps = d.dumps := rfl
@[simp] theorem Device.setTile_csrLatch (d : Device) (n : Nat) (x : Tile) : (d.setTile n x).csrLatch = d.csrLatch := rfl
@[simp] theorem Device.setTile_tlm (d : Device) (n : Nat) (x : Tile) : (d.setTile n x).tlm = d.tlm := rfl
@[simp] theorem Device.setTile_tap (d : Device) (n : Nat) (x : Tile) : (d.setTile n x).tap = d.tap := rfl
@[simp] theorem Device.setTile_free (d : Device) (n : Nat) (x : Tile) : (d.setTile n x).free = d.free := rfl
@[simp] theorem Device.setTile_out (d : Device) (n : Nat) (x : Tile) : (d.setTile n x).out = d.out := rfl

/-! ### setItem -/

@[simp] theorem Device.setItem_regs (d : Device) (n : Nat) (x : Item) : (d.setItem n x).regs = d.regs := rfl
@[simp] theorem Device.setItem_mem (d : Device) (n : Nat) (x : Item) : (d.setItem n x).mem = d.mem := rfl
@[simp] theorem Device.setItem_tiles (d : Device) (n : Nat) (x : Item) : (d.setItem n x).tiles = d.tiles := rfl
@[simp] theorem Device.setItem_time (d : Device) (n : Nat) (x : Item) : (d.setItem n x).time = d.time := rfl
@[simp] theorem Device.setItem_pkl (d : Device) (n : Nat) (x : Item) : (d.setItem n x).pkl = d.pkl := rfl
@[simp] theorem Device.setItem_lwk (d : Device) (n : Nat) (x : Item) : (d.setItem n x).lwk = d.lwk := rfl
@[simp] theorem Device.setItem_heath (d : Device) (n : Nat) (x : Item) : (d.setItem n x).heath = d.heath := rfl
@[simp] theorem Device.setItem_dsp (d : Device) (n : Nat) (x : Item) : (d.setItem n x).dsp = d.dsp := rfl
@[simp] theorem Device.setItem_flt (d : Device) (n : Nat) (x : Item) : (d.setItem n x).flt = d.flt := rfl
@[simp] theorem Device.setItem_msixA (d : Device) (n : Nat) (x : Item) : (d.setItem n x).msixA = d.msixA := rfl
@[simp] theorem Device.setItem_msixB (d : Device) (n : Nat) (x : Item) : (d.setItem n x).msixB = d.msixB := rfl
@[simp] theorem Device.setItem_hostA (d : Device) (n : Nat) (x : Item) : (d.setItem n x).hostA = d.hostA := rfl
@[simp] theorem Device.setItem_hostB (d : Device) (n : Nat) (x : Item) : (d.setItem n x).hostB = d.hostB := rfl
@[simp] theorem Device.setItem_hwd (d : Device) (n : Nat) (x : Item) : (d.setItem n x).hwd = d.hwd := rfl
@[simp] theorem Device.setItem_net (d : Device) (n : Nat) (x : Item) : (d.setItem n x).net = d.net := rfl
@[simp] theorem Device.setItem_ledger (d : Device) (n : Nat) (x : Item) : (d.setItem n x).ledger = d.ledger := rfl
@[simp] theorem Device.setItem_power (d : Device) (n : Nat) (x : Item) : (d.setItem n x).power = d.power := rfl
@[simp] theorem Device.setItem_dram (d : Device) (n : Nat) (x : Item) : (d.setItem n x).dram = d.dram := rfl
@[simp] theorem Device.setItem_cores (d : Device) (n : Nat) (x : Item) : (d.setItem n x).cores = d.cores := rfl
@[simp] theorem Device.setItem_engines (d : Device) (n : Nat) (x : Item) : (d.setItem n x).engines = d.engines := rfl
@[simp] theorem Device.setItem_agc (d : Device) (n : Nat) (x : Item) : (d.setItem n x).agc = d.agc := rfl
@[simp] theorem Device.setItem_sched (d : Device) (n : Nat) (x : Item) : (d.setItem n x).sched = d.sched := rfl
@[simp] theorem Device.setItem_clipSlot (d : Device) (n : Nat) (x : Item) : (d.setItem n x).clipSlot = d.clipSlot := rfl
@[simp] theorem Device.setItem_occs (d : Device) (n : Nat) (x : Item) : (d.setItem n x).occs = d.occs := rfl
@[simp] theorem Device.setItem_bells (d : Device) (n : Nat) (x : Item) : (d.setItem n x).bells = d.bells := rfl
@[simp] theorem Device.setItem_loops (d : Device) (n : Nat) (x : Item) : (d.setItem n x).loops = d.loops := rfl
@[simp] theorem Device.setItem_fec (d : Device) (n : Nat) (x : Item) : (d.setItem n x).fec = d.fec := rfl
@[simp] theorem Device.setItem_tbcp (d : Device) (n : Nat) (x : Item) : (d.setItem n x).tbcp = d.tbcp := rfl
@[simp] theorem Device.setItem_dmas (d : Device) (n : Nat) (x : Item) : (d.setItem n x).dmas = d.dmas := rfl
@[simp] theorem Device.setItem_lanes (d : Device) (n : Nat) (x : Item) : (d.setItem n x).lanes = d.lanes := rfl
@[simp] theorem Device.setItem_ctrs (d : Device) (n : Nat) (x : Item) : (d.setItem n x).ctrs = d.ctrs := rfl
@[simp] theorem Device.setItem_groups (d : Device) (n : Nat) (x : Item) : (d.setItem n x).groups = d.groups := rfl
@[simp] theorem Device.setItem_twin (d : Device) (n : Nat) (x : Item) : (d.setItem n x).twin = d.twin := rfl
@[simp] theorem Device.setItem_marks (d : Device) (n : Nat) (x : Item) : (d.setItem n x).marks = d.marks := rfl
@[simp] theorem Device.setItem_dumps (d : Device) (n : Nat) (x : Item) : (d.setItem n x).dumps = d.dumps := rfl
@[simp] theorem Device.setItem_csrLatch (d : Device) (n : Nat) (x : Item) : (d.setItem n x).csrLatch = d.csrLatch := rfl
@[simp] theorem Device.setItem_tlm (d : Device) (n : Nat) (x : Item) : (d.setItem n x).tlm = d.tlm := rfl
@[simp] theorem Device.setItem_tap (d : Device) (n : Nat) (x : Item) : (d.setItem n x).tap = d.tap := rfl
@[simp] theorem Device.setItem_free (d : Device) (n : Nat) (x : Item) : (d.setItem n x).free = d.free := rfl
@[simp] theorem Device.setItem_out (d : Device) (n : Nat) (x : Item) : (d.setItem n x).out = d.out := rfl

/-! ### setCore -/

@[simp] theorem Device.setCore_regs (d : Device) (c k : Nat) (x : Core) : (d.setCore c k x).regs = d.regs := rfl
@[simp] theorem Device.setCore_mem (d : Device) (c k : Nat) (x : Core) : (d.setCore c k x).mem = d.mem := rfl
@[simp] theorem Device.setCore_tiles (d : Device) (c k : Nat) (x : Core) : (d.setCore c k x).tiles = d.tiles := rfl
@[simp] theorem Device.setCore_time (d : Device) (c k : Nat) (x : Core) : (d.setCore c k x).time = d.time := rfl
@[simp] theorem Device.setCore_pkl (d : Device) (c k : Nat) (x : Core) : (d.setCore c k x).pkl = d.pkl := rfl
@[simp] theorem Device.setCore_lwk (d : Device) (c k : Nat) (x : Core) : (d.setCore c k x).lwk = d.lwk := rfl
@[simp] theorem Device.setCore_heath (d : Device) (c k : Nat) (x : Core) : (d.setCore c k x).heath = d.heath := rfl
@[simp] theorem Device.setCore_items (d : Device) (c k : Nat) (x : Core) : (d.setCore c k x).items = d.items := rfl
@[simp] theorem Device.setCore_dsp (d : Device) (c k : Nat) (x : Core) : (d.setCore c k x).dsp = d.dsp := rfl
@[simp] theorem Device.setCore_flt (d : Device) (c k : Nat) (x : Core) : (d.setCore c k x).flt = d.flt := rfl
@[simp] theorem Device.setCore_msixA (d : Device) (c k : Nat) (x : Core) : (d.setCore c k x).msixA = d.msixA := rfl
@[simp] theorem Device.setCore_msixB (d : Device) (c k : Nat) (x : Core) : (d.setCore c k x).msixB = d.msixB := rfl
@[simp] theorem Device.setCore_hostA (d : Device) (c k : Nat) (x : Core) : (d.setCore c k x).hostA = d.hostA := rfl
@[simp] theorem Device.setCore_hostB (d : Device) (c k : Nat) (x : Core) : (d.setCore c k x).hostB = d.hostB := rfl
@[simp] theorem Device.setCore_hwd (d : Device) (c k : Nat) (x : Core) : (d.setCore c k x).hwd = d.hwd := rfl
@[simp] theorem Device.setCore_net (d : Device) (c k : Nat) (x : Core) : (d.setCore c k x).net = d.net := rfl
@[simp] theorem Device.setCore_ledger (d : Device) (c k : Nat) (x : Core) : (d.setCore c k x).ledger = d.ledger := rfl
@[simp] theorem Device.setCore_power (d : Device) (c k : Nat) (x : Core) : (d.setCore c k x).power = d.power := rfl
@[simp] theorem Device.setCore_dram (d : Device) (c k : Nat) (x : Core) : (d.setCore c k x).dram = d.dram := rfl
@[simp] theorem Device.setCore_engines (d : Device) (c k : Nat) (x : Core) : (d.setCore c k x).engines = d.engines := rfl
@[simp] theorem Device.setCore_agc (d : Device) (c k : Nat) (x : Core) : (d.setCore c k x).agc = d.agc := rfl
@[simp] theorem Device.setCore_sched (d : Device) (c k : Nat) (x : Core) : (d.setCore c k x).sched = d.sched := rfl
@[simp] theorem Device.setCore_clipSlot (d : Device) (c k : Nat) (x : Core) : (d.setCore c k x).clipSlot = d.clipSlot := rfl
@[simp] theorem Device.setCore_occs (d : Device) (c k : Nat) (x : Core) : (d.setCore c k x).occs = d.occs := rfl
@[simp] theorem Device.setCore_bells (d : Device) (c k : Nat) (x : Core) : (d.setCore c k x).bells = d.bells := rfl
@[simp] theorem Device.setCore_loops (d : Device) (c k : Nat) (x : Core) : (d.setCore c k x).loops = d.loops := rfl
@[simp] theorem Device.setCore_fec (d : Device) (c k : Nat) (x : Core) : (d.setCore c k x).fec = d.fec := rfl
@[simp] theorem Device.setCore_tbcp (d : Device) (c k : Nat) (x : Core) : (d.setCore c k x).tbcp = d.tbcp := rfl
@[simp] theorem Device.setCore_dmas (d : Device) (c k : Nat) (x : Core) : (d.setCore c k x).dmas = d.dmas := rfl
@[simp] theorem Device.setCore_lanes (d : Device) (c k : Nat) (x : Core) : (d.setCore c k x).lanes = d.lanes := rfl
@[simp] theorem Device.setCore_ctrs (d : Device) (c k : Nat) (x : Core) : (d.setCore c k x).ctrs = d.ctrs := rfl
@[simp] theorem Device.setCore_groups (d : Device) (c k : Nat) (x : Core) : (d.setCore c k x).groups = d.groups := rfl
@[simp] theorem Device.setCore_twin (d : Device) (c k : Nat) (x : Core) : (d.setCore c k x).twin = d.twin := rfl
@[simp] theorem Device.setCore_marks (d : Device) (c k : Nat) (x : Core) : (d.setCore c k x).marks = d.marks := rfl
@[simp] theorem Device.setCore_dumps (d : Device) (c k : Nat) (x : Core) : (d.setCore c k x).dumps = d.dumps := rfl
@[simp] theorem Device.setCore_csrLatch (d : Device) (c k : Nat) (x : Core) : (d.setCore c k x).csrLatch = d.csrLatch := rfl
@[simp] theorem Device.setCore_tlm (d : Device) (c k : Nat) (x : Core) : (d.setCore c k x).tlm = d.tlm := rfl
@[simp] theorem Device.setCore_tap (d : Device) (c k : Nat) (x : Core) : (d.setCore c k x).tap = d.tap := rfl
@[simp] theorem Device.setCore_free (d : Device) (c k : Nat) (x : Core) : (d.setCore c k x).free = d.free := rfl
@[simp] theorem Device.setCore_out (d : Device) (c k : Nat) (x : Core) : (d.setCore c k x).out = d.out := rfl

/-! ### setEngine -/

@[simp] theorem Device.setEngine_regs (d : Device) (n : Nat) (x : Engine) : (d.setEngine n x).regs = d.regs := rfl
@[simp] theorem Device.setEngine_mem (d : Device) (n : Nat) (x : Engine) : (d.setEngine n x).mem = d.mem := rfl
@[simp] theorem Device.setEngine_tiles (d : Device) (n : Nat) (x : Engine) : (d.setEngine n x).tiles = d.tiles := rfl
@[simp] theorem Device.setEngine_time (d : Device) (n : Nat) (x : Engine) : (d.setEngine n x).time = d.time := rfl
@[simp] theorem Device.setEngine_pkl (d : Device) (n : Nat) (x : Engine) : (d.setEngine n x).pkl = d.pkl := rfl
@[simp] theorem Device.setEngine_lwk (d : Device) (n : Nat) (x : Engine) : (d.setEngine n x).lwk = d.lwk := rfl
@[simp] theorem Device.setEngine_heath (d : Device) (n : Nat) (x : Engine) : (d.setEngine n x).heath = d.heath := rfl
@[simp] theorem Device.setEngine_items (d : Device) (n : Nat) (x : Engine) : (d.setEngine n x).items = d.items := rfl
@[simp] theorem Device.setEngine_dsp (d : Device) (n : Nat) (x : Engine) : (d.setEngine n x).dsp = d.dsp := rfl
@[simp] theorem Device.setEngine_flt (d : Device) (n : Nat) (x : Engine) : (d.setEngine n x).flt = d.flt := rfl
@[simp] theorem Device.setEngine_msixA (d : Device) (n : Nat) (x : Engine) : (d.setEngine n x).msixA = d.msixA := rfl
@[simp] theorem Device.setEngine_msixB (d : Device) (n : Nat) (x : Engine) : (d.setEngine n x).msixB = d.msixB := rfl
@[simp] theorem Device.setEngine_hostA (d : Device) (n : Nat) (x : Engine) : (d.setEngine n x).hostA = d.hostA := rfl
@[simp] theorem Device.setEngine_hostB (d : Device) (n : Nat) (x : Engine) : (d.setEngine n x).hostB = d.hostB := rfl
@[simp] theorem Device.setEngine_hwd (d : Device) (n : Nat) (x : Engine) : (d.setEngine n x).hwd = d.hwd := rfl
@[simp] theorem Device.setEngine_net (d : Device) (n : Nat) (x : Engine) : (d.setEngine n x).net = d.net := rfl
@[simp] theorem Device.setEngine_ledger (d : Device) (n : Nat) (x : Engine) : (d.setEngine n x).ledger = d.ledger := rfl
@[simp] theorem Device.setEngine_power (d : Device) (n : Nat) (x : Engine) : (d.setEngine n x).power = d.power := rfl
@[simp] theorem Device.setEngine_dram (d : Device) (n : Nat) (x : Engine) : (d.setEngine n x).dram = d.dram := rfl
@[simp] theorem Device.setEngine_cores (d : Device) (n : Nat) (x : Engine) : (d.setEngine n x).cores = d.cores := rfl
@[simp] theorem Device.setEngine_agc (d : Device) (n : Nat) (x : Engine) : (d.setEngine n x).agc = d.agc := rfl
@[simp] theorem Device.setEngine_sched (d : Device) (n : Nat) (x : Engine) : (d.setEngine n x).sched = d.sched := rfl
@[simp] theorem Device.setEngine_clipSlot (d : Device) (n : Nat) (x : Engine) : (d.setEngine n x).clipSlot = d.clipSlot := rfl
@[simp] theorem Device.setEngine_occs (d : Device) (n : Nat) (x : Engine) : (d.setEngine n x).occs = d.occs := rfl
@[simp] theorem Device.setEngine_bells (d : Device) (n : Nat) (x : Engine) : (d.setEngine n x).bells = d.bells := rfl
@[simp] theorem Device.setEngine_loops (d : Device) (n : Nat) (x : Engine) : (d.setEngine n x).loops = d.loops := rfl
@[simp] theorem Device.setEngine_fec (d : Device) (n : Nat) (x : Engine) : (d.setEngine n x).fec = d.fec := rfl
@[simp] theorem Device.setEngine_tbcp (d : Device) (n : Nat) (x : Engine) : (d.setEngine n x).tbcp = d.tbcp := rfl
@[simp] theorem Device.setEngine_dmas (d : Device) (n : Nat) (x : Engine) : (d.setEngine n x).dmas = d.dmas := rfl
@[simp] theorem Device.setEngine_lanes (d : Device) (n : Nat) (x : Engine) : (d.setEngine n x).lanes = d.lanes := rfl
@[simp] theorem Device.setEngine_ctrs (d : Device) (n : Nat) (x : Engine) : (d.setEngine n x).ctrs = d.ctrs := rfl
@[simp] theorem Device.setEngine_groups (d : Device) (n : Nat) (x : Engine) : (d.setEngine n x).groups = d.groups := rfl
@[simp] theorem Device.setEngine_twin (d : Device) (n : Nat) (x : Engine) : (d.setEngine n x).twin = d.twin := rfl
@[simp] theorem Device.setEngine_marks (d : Device) (n : Nat) (x : Engine) : (d.setEngine n x).marks = d.marks := rfl
@[simp] theorem Device.setEngine_dumps (d : Device) (n : Nat) (x : Engine) : (d.setEngine n x).dumps = d.dumps := rfl
@[simp] theorem Device.setEngine_csrLatch (d : Device) (n : Nat) (x : Engine) : (d.setEngine n x).csrLatch = d.csrLatch := rfl
@[simp] theorem Device.setEngine_tlm (d : Device) (n : Nat) (x : Engine) : (d.setEngine n x).tlm = d.tlm := rfl
@[simp] theorem Device.setEngine_tap (d : Device) (n : Nat) (x : Engine) : (d.setEngine n x).tap = d.tap := rfl
@[simp] theorem Device.setEngine_free (d : Device) (n : Nat) (x : Engine) : (d.setEngine n x).free = d.free := rfl
@[simp] theorem Device.setEngine_out (d : Device) (n : Nat) (x : Engine) : (d.setEngine n x).out = d.out := rfl

/-! ### setLane -/

@[simp] theorem Device.setLane_regs (d : Device) (n : Nat) (x : Lane) : (d.setLane n x).regs = d.regs := rfl
@[simp] theorem Device.setLane_mem (d : Device) (n : Nat) (x : Lane) : (d.setLane n x).mem = d.mem := rfl
@[simp] theorem Device.setLane_tiles (d : Device) (n : Nat) (x : Lane) : (d.setLane n x).tiles = d.tiles := rfl
@[simp] theorem Device.setLane_time (d : Device) (n : Nat) (x : Lane) : (d.setLane n x).time = d.time := rfl
@[simp] theorem Device.setLane_pkl (d : Device) (n : Nat) (x : Lane) : (d.setLane n x).pkl = d.pkl := rfl
@[simp] theorem Device.setLane_lwk (d : Device) (n : Nat) (x : Lane) : (d.setLane n x).lwk = d.lwk := rfl
@[simp] theorem Device.setLane_heath (d : Device) (n : Nat) (x : Lane) : (d.setLane n x).heath = d.heath := rfl
@[simp] theorem Device.setLane_items (d : Device) (n : Nat) (x : Lane) : (d.setLane n x).items = d.items := rfl
@[simp] theorem Device.setLane_dsp (d : Device) (n : Nat) (x : Lane) : (d.setLane n x).dsp = d.dsp := rfl
@[simp] theorem Device.setLane_flt (d : Device) (n : Nat) (x : Lane) : (d.setLane n x).flt = d.flt := rfl
@[simp] theorem Device.setLane_msixA (d : Device) (n : Nat) (x : Lane) : (d.setLane n x).msixA = d.msixA := rfl
@[simp] theorem Device.setLane_msixB (d : Device) (n : Nat) (x : Lane) : (d.setLane n x).msixB = d.msixB := rfl
@[simp] theorem Device.setLane_hostA (d : Device) (n : Nat) (x : Lane) : (d.setLane n x).hostA = d.hostA := rfl
@[simp] theorem Device.setLane_hostB (d : Device) (n : Nat) (x : Lane) : (d.setLane n x).hostB = d.hostB := rfl
@[simp] theorem Device.setLane_hwd (d : Device) (n : Nat) (x : Lane) : (d.setLane n x).hwd = d.hwd := rfl
@[simp] theorem Device.setLane_net (d : Device) (n : Nat) (x : Lane) : (d.setLane n x).net = d.net := rfl
@[simp] theorem Device.setLane_ledger (d : Device) (n : Nat) (x : Lane) : (d.setLane n x).ledger = d.ledger := rfl
@[simp] theorem Device.setLane_power (d : Device) (n : Nat) (x : Lane) : (d.setLane n x).power = d.power := rfl
@[simp] theorem Device.setLane_dram (d : Device) (n : Nat) (x : Lane) : (d.setLane n x).dram = d.dram := rfl
@[simp] theorem Device.setLane_cores (d : Device) (n : Nat) (x : Lane) : (d.setLane n x).cores = d.cores := rfl
@[simp] theorem Device.setLane_engines (d : Device) (n : Nat) (x : Lane) : (d.setLane n x).engines = d.engines := rfl
@[simp] theorem Device.setLane_agc (d : Device) (n : Nat) (x : Lane) : (d.setLane n x).agc = d.agc := rfl
@[simp] theorem Device.setLane_sched (d : Device) (n : Nat) (x : Lane) : (d.setLane n x).sched = d.sched := rfl
@[simp] theorem Device.setLane_clipSlot (d : Device) (n : Nat) (x : Lane) : (d.setLane n x).clipSlot = d.clipSlot := rfl
@[simp] theorem Device.setLane_occs (d : Device) (n : Nat) (x : Lane) : (d.setLane n x).occs = d.occs := rfl
@[simp] theorem Device.setLane_bells (d : Device) (n : Nat) (x : Lane) : (d.setLane n x).bells = d.bells := rfl
@[simp] theorem Device.setLane_loops (d : Device) (n : Nat) (x : Lane) : (d.setLane n x).loops = d.loops := rfl
@[simp] theorem Device.setLane_fec (d : Device) (n : Nat) (x : Lane) : (d.setLane n x).fec = d.fec := rfl
@[simp] theorem Device.setLane_tbcp (d : Device) (n : Nat) (x : Lane) : (d.setLane n x).tbcp = d.tbcp := rfl
@[simp] theorem Device.setLane_dmas (d : Device) (n : Nat) (x : Lane) : (d.setLane n x).dmas = d.dmas := rfl
@[simp] theorem Device.setLane_ctrs (d : Device) (n : Nat) (x : Lane) : (d.setLane n x).ctrs = d.ctrs := rfl
@[simp] theorem Device.setLane_groups (d : Device) (n : Nat) (x : Lane) : (d.setLane n x).groups = d.groups := rfl
@[simp] theorem Device.setLane_twin (d : Device) (n : Nat) (x : Lane) : (d.setLane n x).twin = d.twin := rfl
@[simp] theorem Device.setLane_marks (d : Device) (n : Nat) (x : Lane) : (d.setLane n x).marks = d.marks := rfl
@[simp] theorem Device.setLane_dumps (d : Device) (n : Nat) (x : Lane) : (d.setLane n x).dumps = d.dumps := rfl
@[simp] theorem Device.setLane_csrLatch (d : Device) (n : Nat) (x : Lane) : (d.setLane n x).csrLatch = d.csrLatch := rfl
@[simp] theorem Device.setLane_tlm (d : Device) (n : Nat) (x : Lane) : (d.setLane n x).tlm = d.tlm := rfl
@[simp] theorem Device.setLane_tap (d : Device) (n : Nat) (x : Lane) : (d.setLane n x).tap = d.tap := rfl
@[simp] theorem Device.setLane_free (d : Device) (n : Nat) (x : Lane) : (d.setLane n x).free = d.free := rfl
@[simp] theorem Device.setLane_out (d : Device) (n : Nat) (x : Lane) : (d.setLane n x).out = d.out := rfl

/-! ### setCtr -/

@[simp] theorem Device.setCtr_regs (d : Device) (n : Nat) (x : Ctr) : (d.setCtr n x).regs = d.regs := rfl
@[simp] theorem Device.setCtr_mem (d : Device) (n : Nat) (x : Ctr) : (d.setCtr n x).mem = d.mem := rfl
@[simp] theorem Device.setCtr_tiles (d : Device) (n : Nat) (x : Ctr) : (d.setCtr n x).tiles = d.tiles := rfl
@[simp] theorem Device.setCtr_time (d : Device) (n : Nat) (x : Ctr) : (d.setCtr n x).time = d.time := rfl
@[simp] theorem Device.setCtr_pkl (d : Device) (n : Nat) (x : Ctr) : (d.setCtr n x).pkl = d.pkl := rfl
@[simp] theorem Device.setCtr_lwk (d : Device) (n : Nat) (x : Ctr) : (d.setCtr n x).lwk = d.lwk := rfl
@[simp] theorem Device.setCtr_heath (d : Device) (n : Nat) (x : Ctr) : (d.setCtr n x).heath = d.heath := rfl
@[simp] theorem Device.setCtr_items (d : Device) (n : Nat) (x : Ctr) : (d.setCtr n x).items = d.items := rfl
@[simp] theorem Device.setCtr_dsp (d : Device) (n : Nat) (x : Ctr) : (d.setCtr n x).dsp = d.dsp := rfl
@[simp] theorem Device.setCtr_flt (d : Device) (n : Nat) (x : Ctr) : (d.setCtr n x).flt = d.flt := rfl
@[simp] theorem Device.setCtr_msixA (d : Device) (n : Nat) (x : Ctr) : (d.setCtr n x).msixA = d.msixA := rfl
@[simp] theorem Device.setCtr_msixB (d : Device) (n : Nat) (x : Ctr) : (d.setCtr n x).msixB = d.msixB := rfl
@[simp] theorem Device.setCtr_hostA (d : Device) (n : Nat) (x : Ctr) : (d.setCtr n x).hostA = d.hostA := rfl
@[simp] theorem Device.setCtr_hostB (d : Device) (n : Nat) (x : Ctr) : (d.setCtr n x).hostB = d.hostB := rfl
@[simp] theorem Device.setCtr_hwd (d : Device) (n : Nat) (x : Ctr) : (d.setCtr n x).hwd = d.hwd := rfl
@[simp] theorem Device.setCtr_net (d : Device) (n : Nat) (x : Ctr) : (d.setCtr n x).net = d.net := rfl
@[simp] theorem Device.setCtr_ledger (d : Device) (n : Nat) (x : Ctr) : (d.setCtr n x).ledger = d.ledger := rfl
@[simp] theorem Device.setCtr_power (d : Device) (n : Nat) (x : Ctr) : (d.setCtr n x).power = d.power := rfl
@[simp] theorem Device.setCtr_dram (d : Device) (n : Nat) (x : Ctr) : (d.setCtr n x).dram = d.dram := rfl
@[simp] theorem Device.setCtr_cores (d : Device) (n : Nat) (x : Ctr) : (d.setCtr n x).cores = d.cores := rfl
@[simp] theorem Device.setCtr_engines (d : Device) (n : Nat) (x : Ctr) : (d.setCtr n x).engines = d.engines := rfl
@[simp] theorem Device.setCtr_agc (d : Device) (n : Nat) (x : Ctr) : (d.setCtr n x).agc = d.agc := rfl
@[simp] theorem Device.setCtr_sched (d : Device) (n : Nat) (x : Ctr) : (d.setCtr n x).sched = d.sched := rfl
@[simp] theorem Device.setCtr_clipSlot (d : Device) (n : Nat) (x : Ctr) : (d.setCtr n x).clipSlot = d.clipSlot := rfl
@[simp] theorem Device.setCtr_occs (d : Device) (n : Nat) (x : Ctr) : (d.setCtr n x).occs = d.occs := rfl
@[simp] theorem Device.setCtr_bells (d : Device) (n : Nat) (x : Ctr) : (d.setCtr n x).bells = d.bells := rfl
@[simp] theorem Device.setCtr_loops (d : Device) (n : Nat) (x : Ctr) : (d.setCtr n x).loops = d.loops := rfl
@[simp] theorem Device.setCtr_fec (d : Device) (n : Nat) (x : Ctr) : (d.setCtr n x).fec = d.fec := rfl
@[simp] theorem Device.setCtr_tbcp (d : Device) (n : Nat) (x : Ctr) : (d.setCtr n x).tbcp = d.tbcp := rfl
@[simp] theorem Device.setCtr_dmas (d : Device) (n : Nat) (x : Ctr) : (d.setCtr n x).dmas = d.dmas := rfl
@[simp] theorem Device.setCtr_lanes (d : Device) (n : Nat) (x : Ctr) : (d.setCtr n x).lanes = d.lanes := rfl
@[simp] theorem Device.setCtr_groups (d : Device) (n : Nat) (x : Ctr) : (d.setCtr n x).groups = d.groups := rfl
@[simp] theorem Device.setCtr_twin (d : Device) (n : Nat) (x : Ctr) : (d.setCtr n x).twin = d.twin := rfl
@[simp] theorem Device.setCtr_marks (d : Device) (n : Nat) (x : Ctr) : (d.setCtr n x).marks = d.marks := rfl
@[simp] theorem Device.setCtr_dumps (d : Device) (n : Nat) (x : Ctr) : (d.setCtr n x).dumps = d.dumps := rfl
@[simp] theorem Device.setCtr_csrLatch (d : Device) (n : Nat) (x : Ctr) : (d.setCtr n x).csrLatch = d.csrLatch := rfl
@[simp] theorem Device.setCtr_tlm (d : Device) (n : Nat) (x : Ctr) : (d.setCtr n x).tlm = d.tlm := rfl
@[simp] theorem Device.setCtr_tap (d : Device) (n : Nat) (x : Ctr) : (d.setCtr n x).tap = d.tap := rfl
@[simp] theorem Device.setCtr_free (d : Device) (n : Nat) (x : Ctr) : (d.setCtr n x).free = d.free := rfl
@[simp] theorem Device.setCtr_out (d : Device) (n : Nat) (x : Ctr) : (d.setCtr n x).out = d.out := rfl

/-! ### setPort -/

@[simp] theorem Device.setPort_regs (d : Device) (n : Nat) (x : Tbcp) : (d.setPort n x).regs = d.regs := rfl
@[simp] theorem Device.setPort_mem (d : Device) (n : Nat) (x : Tbcp) : (d.setPort n x).mem = d.mem := rfl
@[simp] theorem Device.setPort_tiles (d : Device) (n : Nat) (x : Tbcp) : (d.setPort n x).tiles = d.tiles := rfl
@[simp] theorem Device.setPort_time (d : Device) (n : Nat) (x : Tbcp) : (d.setPort n x).time = d.time := rfl
@[simp] theorem Device.setPort_pkl (d : Device) (n : Nat) (x : Tbcp) : (d.setPort n x).pkl = d.pkl := rfl
@[simp] theorem Device.setPort_lwk (d : Device) (n : Nat) (x : Tbcp) : (d.setPort n x).lwk = d.lwk := rfl
@[simp] theorem Device.setPort_heath (d : Device) (n : Nat) (x : Tbcp) : (d.setPort n x).heath = d.heath := rfl
@[simp] theorem Device.setPort_items (d : Device) (n : Nat) (x : Tbcp) : (d.setPort n x).items = d.items := rfl
@[simp] theorem Device.setPort_dsp (d : Device) (n : Nat) (x : Tbcp) : (d.setPort n x).dsp = d.dsp := rfl
@[simp] theorem Device.setPort_flt (d : Device) (n : Nat) (x : Tbcp) : (d.setPort n x).flt = d.flt := rfl
@[simp] theorem Device.setPort_msixA (d : Device) (n : Nat) (x : Tbcp) : (d.setPort n x).msixA = d.msixA := rfl
@[simp] theorem Device.setPort_msixB (d : Device) (n : Nat) (x : Tbcp) : (d.setPort n x).msixB = d.msixB := rfl
@[simp] theorem Device.setPort_hostA (d : Device) (n : Nat) (x : Tbcp) : (d.setPort n x).hostA = d.hostA := rfl
@[simp] theorem Device.setPort_hostB (d : Device) (n : Nat) (x : Tbcp) : (d.setPort n x).hostB = d.hostB := rfl
@[simp] theorem Device.setPort_hwd (d : Device) (n : Nat) (x : Tbcp) : (d.setPort n x).hwd = d.hwd := rfl
@[simp] theorem Device.setPort_net (d : Device) (n : Nat) (x : Tbcp) : (d.setPort n x).net = d.net := rfl
@[simp] theorem Device.setPort_ledger (d : Device) (n : Nat) (x : Tbcp) : (d.setPort n x).ledger = d.ledger := rfl
@[simp] theorem Device.setPort_power (d : Device) (n : Nat) (x : Tbcp) : (d.setPort n x).power = d.power := rfl
@[simp] theorem Device.setPort_dram (d : Device) (n : Nat) (x : Tbcp) : (d.setPort n x).dram = d.dram := rfl
@[simp] theorem Device.setPort_cores (d : Device) (n : Nat) (x : Tbcp) : (d.setPort n x).cores = d.cores := rfl
@[simp] theorem Device.setPort_engines (d : Device) (n : Nat) (x : Tbcp) : (d.setPort n x).engines = d.engines := rfl
@[simp] theorem Device.setPort_agc (d : Device) (n : Nat) (x : Tbcp) : (d.setPort n x).agc = d.agc := rfl
@[simp] theorem Device.setPort_sched (d : Device) (n : Nat) (x : Tbcp) : (d.setPort n x).sched = d.sched := rfl
@[simp] theorem Device.setPort_clipSlot (d : Device) (n : Nat) (x : Tbcp) : (d.setPort n x).clipSlot = d.clipSlot := rfl
@[simp] theorem Device.setPort_occs (d : Device) (n : Nat) (x : Tbcp) : (d.setPort n x).occs = d.occs := rfl
@[simp] theorem Device.setPort_bells (d : Device) (n : Nat) (x : Tbcp) : (d.setPort n x).bells = d.bells := rfl
@[simp] theorem Device.setPort_loops (d : Device) (n : Nat) (x : Tbcp) : (d.setPort n x).loops = d.loops := rfl
@[simp] theorem Device.setPort_fec (d : Device) (n : Nat) (x : Tbcp) : (d.setPort n x).fec = d.fec := rfl
@[simp] theorem Device.setPort_dmas (d : Device) (n : Nat) (x : Tbcp) : (d.setPort n x).dmas = d.dmas := rfl
@[simp] theorem Device.setPort_lanes (d : Device) (n : Nat) (x : Tbcp) : (d.setPort n x).lanes = d.lanes := rfl
@[simp] theorem Device.setPort_ctrs (d : Device) (n : Nat) (x : Tbcp) : (d.setPort n x).ctrs = d.ctrs := rfl
@[simp] theorem Device.setPort_groups (d : Device) (n : Nat) (x : Tbcp) : (d.setPort n x).groups = d.groups := rfl
@[simp] theorem Device.setPort_twin (d : Device) (n : Nat) (x : Tbcp) : (d.setPort n x).twin = d.twin := rfl
@[simp] theorem Device.setPort_marks (d : Device) (n : Nat) (x : Tbcp) : (d.setPort n x).marks = d.marks := rfl
@[simp] theorem Device.setPort_dumps (d : Device) (n : Nat) (x : Tbcp) : (d.setPort n x).dumps = d.dumps := rfl
@[simp] theorem Device.setPort_csrLatch (d : Device) (n : Nat) (x : Tbcp) : (d.setPort n x).csrLatch = d.csrLatch := rfl
@[simp] theorem Device.setPort_tlm (d : Device) (n : Nat) (x : Tbcp) : (d.setPort n x).tlm = d.tlm := rfl
@[simp] theorem Device.setPort_tap (d : Device) (n : Nat) (x : Tbcp) : (d.setPort n x).tap = d.tap := rfl
@[simp] theorem Device.setPort_free (d : Device) (n : Nat) (x : Tbcp) : (d.setPort n x).free = d.free := rfl
@[simp] theorem Device.setPort_out (d : Device) (n : Nat) (x : Tbcp) : (d.setPort n x).out = d.out := rfl

/-! ### setGrp -/

@[simp] theorem Device.setGrp_regs (d : Device) (n : Nat) (x : FecGroup) : (d.setGrp n x).regs = d.regs := rfl
@[simp] theorem Device.setGrp_mem (d : Device) (n : Nat) (x : FecGroup) : (d.setGrp n x).mem = d.mem := rfl
@[simp] theorem Device.setGrp_tiles (d : Device) (n : Nat) (x : FecGroup) : (d.setGrp n x).tiles = d.tiles := rfl
@[simp] theorem Device.setGrp_time (d : Device) (n : Nat) (x : FecGroup) : (d.setGrp n x).time = d.time := rfl
@[simp] theorem Device.setGrp_pkl (d : Device) (n : Nat) (x : FecGroup) : (d.setGrp n x).pkl = d.pkl := rfl
@[simp] theorem Device.setGrp_lwk (d : Device) (n : Nat) (x : FecGroup) : (d.setGrp n x).lwk = d.lwk := rfl
@[simp] theorem Device.setGrp_heath (d : Device) (n : Nat) (x : FecGroup) : (d.setGrp n x).heath = d.heath := rfl
@[simp] theorem Device.setGrp_items (d : Device) (n : Nat) (x : FecGroup) : (d.setGrp n x).items = d.items := rfl
@[simp] theorem Device.setGrp_dsp (d : Device) (n : Nat) (x : FecGroup) : (d.setGrp n x).dsp = d.dsp := rfl
@[simp] theorem Device.setGrp_flt (d : Device) (n : Nat) (x : FecGroup) : (d.setGrp n x).flt = d.flt := rfl
@[simp] theorem Device.setGrp_msixA (d : Device) (n : Nat) (x : FecGroup) : (d.setGrp n x).msixA = d.msixA := rfl
@[simp] theorem Device.setGrp_msixB (d : Device) (n : Nat) (x : FecGroup) : (d.setGrp n x).msixB = d.msixB := rfl
@[simp] theorem Device.setGrp_hostA (d : Device) (n : Nat) (x : FecGroup) : (d.setGrp n x).hostA = d.hostA := rfl
@[simp] theorem Device.setGrp_hostB (d : Device) (n : Nat) (x : FecGroup) : (d.setGrp n x).hostB = d.hostB := rfl
@[simp] theorem Device.setGrp_hwd (d : Device) (n : Nat) (x : FecGroup) : (d.setGrp n x).hwd = d.hwd := rfl
@[simp] theorem Device.setGrp_net (d : Device) (n : Nat) (x : FecGroup) : (d.setGrp n x).net = d.net := rfl
@[simp] theorem Device.setGrp_ledger (d : Device) (n : Nat) (x : FecGroup) : (d.setGrp n x).ledger = d.ledger := rfl
@[simp] theorem Device.setGrp_power (d : Device) (n : Nat) (x : FecGroup) : (d.setGrp n x).power = d.power := rfl
@[simp] theorem Device.setGrp_dram (d : Device) (n : Nat) (x : FecGroup) : (d.setGrp n x).dram = d.dram := rfl
@[simp] theorem Device.setGrp_cores (d : Device) (n : Nat) (x : FecGroup) : (d.setGrp n x).cores = d.cores := rfl
@[simp] theorem Device.setGrp_engines (d : Device) (n : Nat) (x : FecGroup) : (d.setGrp n x).engines = d.engines := rfl
@[simp] theorem Device.setGrp_agc (d : Device) (n : Nat) (x : FecGroup) : (d.setGrp n x).agc = d.agc := rfl
@[simp] theorem Device.setGrp_sched (d : Device) (n : Nat) (x : FecGroup) : (d.setGrp n x).sched = d.sched := rfl
@[simp] theorem Device.setGrp_clipSlot (d : Device) (n : Nat) (x : FecGroup) : (d.setGrp n x).clipSlot = d.clipSlot := rfl
@[simp] theorem Device.setGrp_occs (d : Device) (n : Nat) (x : FecGroup) : (d.setGrp n x).occs = d.occs := rfl
@[simp] theorem Device.setGrp_bells (d : Device) (n : Nat) (x : FecGroup) : (d.setGrp n x).bells = d.bells := rfl
@[simp] theorem Device.setGrp_loops (d : Device) (n : Nat) (x : FecGroup) : (d.setGrp n x).loops = d.loops := rfl
@[simp] theorem Device.setGrp_tbcp (d : Device) (n : Nat) (x : FecGroup) : (d.setGrp n x).tbcp = d.tbcp := rfl
@[simp] theorem Device.setGrp_dmas (d : Device) (n : Nat) (x : FecGroup) : (d.setGrp n x).dmas = d.dmas := rfl
@[simp] theorem Device.setGrp_lanes (d : Device) (n : Nat) (x : FecGroup) : (d.setGrp n x).lanes = d.lanes := rfl
@[simp] theorem Device.setGrp_ctrs (d : Device) (n : Nat) (x : FecGroup) : (d.setGrp n x).ctrs = d.ctrs := rfl
@[simp] theorem Device.setGrp_groups (d : Device) (n : Nat) (x : FecGroup) : (d.setGrp n x).groups = d.groups := rfl
@[simp] theorem Device.setGrp_twin (d : Device) (n : Nat) (x : FecGroup) : (d.setGrp n x).twin = d.twin := rfl
@[simp] theorem Device.setGrp_marks (d : Device) (n : Nat) (x : FecGroup) : (d.setGrp n x).marks = d.marks := rfl
@[simp] theorem Device.setGrp_dumps (d : Device) (n : Nat) (x : FecGroup) : (d.setGrp n x).dumps = d.dumps := rfl
@[simp] theorem Device.setGrp_csrLatch (d : Device) (n : Nat) (x : FecGroup) : (d.setGrp n x).csrLatch = d.csrLatch := rfl
@[simp] theorem Device.setGrp_tlm (d : Device) (n : Nat) (x : FecGroup) : (d.setGrp n x).tlm = d.tlm := rfl
@[simp] theorem Device.setGrp_tap (d : Device) (n : Nat) (x : FecGroup) : (d.setGrp n x).tap = d.tap := rfl
@[simp] theorem Device.setGrp_free (d : Device) (n : Nat) (x : FecGroup) : (d.setGrp n x).free = d.free := rfl
@[simp] theorem Device.setGrp_out (d : Device) (n : Nat) (x : FecGroup) : (d.setGrp n x).out = d.out := rfl

/-! ### Registers through updates of other fields -/

@[simp] theorem Device.tally_word (d : Device) (i k : Nat) (q : Nat) : (d.tally i k).word q = d.word q := rfl
@[simp] theorem Device.tally_get (d : Device) (i k : Nat) (g : Fld) : (d.tally i k).get g = d.get g := rfl
@[simp] theorem Device.emit_word (d : Device) (o : Out) (q : Nat) : (d.emit o).word q = d.word q := rfl
@[simp] theorem Device.emit_get (d : Device) (o : Out) (g : Fld) : (d.emit o).get g = d.get g := rfl
@[simp] theorem Device.setTime_word (d : Device) (x : TimeBase) (q : Nat) : (d.setTime x).word q = d.word q := rfl
@[simp] theorem Device.setTime_get (d : Device) (x : TimeBase) (g : Fld) : (d.setTime x).get g = d.get g := rfl
@[simp] theorem Device.setTile_word (d : Device) (n : Nat) (x : Tile) (q : Nat) : (d.setTile n x).word q = d.word q := rfl
@[simp] theorem Device.setTile_get (d : Device) (n : Nat) (x : Tile) (g : Fld) : (d.setTile n x).get g = d.get g := rfl
@[simp] theorem Device.setItem_word (d : Device) (n : Nat) (x : Item) (q : Nat) : (d.setItem n x).word q = d.word q := rfl
@[simp] theorem Device.setItem_get (d : Device) (n : Nat) (x : Item) (g : Fld) : (d.setItem n x).get g = d.get g := rfl
@[simp] theorem Device.setCore_word (d : Device) (c k : Nat) (x : Core) (q : Nat) : (d.setCore c k x).word q = d.word q := rfl
@[simp] theorem Device.setCore_get (d : Device) (c k : Nat) (x : Core) (g : Fld) : (d.setCore c k x).get g = d.get g := rfl
@[simp] theorem Device.setEngine_word (d : Device) (n : Nat) (x : Engine) (q : Nat) : (d.setEngine n x).word q = d.word q := rfl
@[simp] theorem Device.setEngine_get (d : Device) (n : Nat) (x : Engine) (g : Fld) : (d.setEngine n x).get g = d.get g := rfl
@[simp] theorem Device.setLane_word (d : Device) (n : Nat) (x : Lane) (q : Nat) : (d.setLane n x).word q = d.word q := rfl
@[simp] theorem Device.setLane_get (d : Device) (n : Nat) (x : Lane) (g : Fld) : (d.setLane n x).get g = d.get g := rfl
@[simp] theorem Device.setCtr_word (d : Device) (n : Nat) (x : Ctr) (q : Nat) : (d.setCtr n x).word q = d.word q := rfl
@[simp] theorem Device.setCtr_get (d : Device) (n : Nat) (x : Ctr) (g : Fld) : (d.setCtr n x).get g = d.get g := rfl
@[simp] theorem Device.setPort_word (d : Device) (n : Nat) (x : Tbcp) (q : Nat) : (d.setPort n x).word q = d.word q := rfl
@[simp] theorem Device.setPort_get (d : Device) (n : Nat) (x : Tbcp) (g : Fld) : (d.setPort n x).get g = d.get g := rfl
@[simp] theorem Device.setGrp_word (d : Device) (n : Nat) (x : FecGroup) (q : Nat) : (d.setGrp n x).word q = d.word q := rfl
@[simp] theorem Device.setGrp_get (d : Device) (n : Nat) (x : FecGroup) (g : Fld) : (d.setGrp n x).get g = d.get g := rfl

/-! ### Events -/

/-- Sending a vector reaches MSI-X state and outputs alone. -/
theorem Device.sendVec_eq (d : Device) (h v : Nat) : d.sendVec h v = { d with
    msixA := (d.sendVec h v).msixA, msixB := (d.sendVec h v).msixB, out := (d.sendVec h v).out } := by
  unfold Device.sendVec
  dsimp only
  split
  · rfl
  · split
    · unfold Device.setMsix; split <;> rfl
    · rfl

theorem Device.routeEvent_eq (d : Device) (n : Nat) : d.routeEvent n = { d with
    msixA := (d.routeEvent n).msixA, msixB := (d.routeEvent n).msixB, out := (d.routeEvent n).out } := by
  unfold Device.routeEvent
  dsimp only
  split <;> split
  · rw [Device.sendVec_eq (d.sendVec 0 n), Device.sendVec_eq d]
  · exact Device.sendVec_eq d 0 n
  · exact Device.sendVec_eq d 1 n
  · rfl

/-- A pulse reaches pending flags, latched wakes, MSI-X state and outputs alone (R499, R505, R506). -/
theorem Device.pulse_eq (d : Device) (n : Nat) : d.pulse n = { d with
    regs := (d.pulse n).regs, power := (d.pulse n).power, msixA := (d.pulse n).msixA, msixB := (d.pulse n).msixB
    out := (d.pulse n).out } := by
  unfold Device.pulse
  dsimp only
  split
  · rfl
  · split
    · rfl
    · rw [Device.routeEvent_eq]; rfl

/-- A pulse writes no register but the pending flags'. -/
theorem Device.pulse_word (d : Device) (n : Nat) {r : Nat} (h : r ≠ R.EVF_PEND (n / 32)) :
    (d.pulse n).word r = d.word r := by
  unfold Device.pulse
  dsimp only
  split
  · rfl
  · split
    · rfl
    · have e := Device.routeEvent_eq (((d.fastWake n).put (pendFld n) 1)) n
      have e2 : (((d.fastWake n).put (pendFld n) 1).routeEvent n).word r = ((d.fastWake n).put (pendFld n) 1).word r := by
        unfold Device.word; rw [e]
      rw [e2, Device.word_put_ne _ _ (by exact h)]
      rfl

/-- No field but a pending flag changes with a pulse. -/
theorem Device.pulse_get (d : Device) (n : Nat) {f : Fld} (h : f.reg < 0x100000 ∨ 0x100030 ≤ f.reg) :
    (d.pulse n).get f = d.get f := by
  by_cases hn : 384 ≤ n
  · unfold Device.pulse; rw [if_pos hn]
  · unfold Device.get
    rw [Device.pulse_word]
    unfold R.EVF_PEND
    omega

/-- The flag of a pulsed event is pending (R505). -/
theorem Device.pulse_pend (d : Device) (n : Nat) (h : n < 384) : (d.pulse n).get (pendFld n) = 1 := by
  have hw : (d.fastWake n).get (pendFld n) = d.get (pendFld n) := rfl
  have h1 := d.get_lt (pendFld n)
  simp only [pendFld, Nat.add_sub_cancel_left] at h1
  unfold Device.pulse
  rw [if_neg (by omega)]
  dsimp only
  split
  · next hp =>
    simp only [Device.on, bne_iff_ne, ne_eq, hw] at hp
    rw [hw]
    simp only [pendFld] at hp ⊢
    omega
  · have e := Device.routeEvent_eq (((d.fastWake n).put (pendFld n) 1)) n
    have e2 : (((d.fastWake n).put (pendFld n) 1).routeEvent n).get (pendFld n) =
        ((d.fastWake n).put (pendFld n) 1).get (pendFld n) := by
      unfold Device.get Device.word; rw [e]
    rw [e2, Device.get_put_same]
    · exact Nat.mod_eq_of_lt (Nat.one_lt_two_pow (by simp only [pendFld]; omega))
    · simp only [pendFld]; omega

/-- A pending flag stays pending when another event is pulsed. -/
theorem Device.pulse_pend_other (d : Device) (n m : Nat) (h : d.get (pendFld m) = 1) : (d.pulse n).get (pendFld m) = 1 := by
  by_cases hn : 384 ≤ n
  · unfold Device.pulse; rw [if_pos hn]; exact h
  · by_cases hm : m = n
    · subst hm; exact Device.pulse_pend d m (by omega)
    · unfold Device.pulse
      rw [if_neg hn]
      dsimp only
      split
      · exact h
      · have e := Device.routeEvent_eq (((d.fastWake n).put (pendFld n) 1)) n
        have e2 : (((d.fastWake n).put (pendFld n) 1).routeEvent n).get (pendFld m) =
            ((d.fastWake n).put (pendFld n) 1).get (pendFld m) := by
          unfold Device.get Device.word; rw [e]
        rw [e2, Device.get_put_apart]
        · exact h
        · simp only [pendFld]; omega
        · simp only [pendFld]; omega
        · simp only [pendFld, R.EVF_PEND]; omega

@[simp] theorem Device.pulse_mem (d : Device) (n : Nat) : (d.pulse n).mem = d.mem := by
  rw [Device.pulse_eq]
@[simp] theorem Device.cause_mem (d : Device) (g : Fld) (n : Nat) : (d.cause g n).mem = d.mem := by
  unfold Device.cause; rw [Device.pulse_mem]; rfl
@[simp] theorem Device.pulse_tiles (d : Device) (n : Nat) : (d.pulse n).tiles = d.tiles := by
  rw [Device.pulse_eq]
@[simp] theorem Device.cause_tiles (d : Device) (g : Fld) (n : Nat) : (d.cause g n).tiles = d.tiles := by
  unfold Device.cause; rw [Device.pulse_tiles]; rfl
@[simp] theorem Device.pulse_time (d : Device) (n : Nat) : (d.pulse n).time = d.time := by
  rw [Device.pulse_eq]
@[simp] theorem Device.cause_time (d : Device) (g : Fld) (n : Nat) : (d.cause g n).time = d.time := by
  unfold Device.cause; rw [Device.pulse_time]; rfl
@[simp] theorem Device.pulse_pkl (d : Device) (n : Nat) : (d.pulse n).pkl = d.pkl := by
  rw [Device.pulse_eq]
@[simp] theorem Device.cause_pkl (d : Device) (g : Fld) (n : Nat) : (d.cause g n).pkl = d.pkl := by
  unfold Device.cause; rw [Device.pulse_pkl]; rfl
@[simp] theorem Device.pulse_lwk (d : Device) (n : Nat) : (d.pulse n).lwk = d.lwk := by
  rw [Device.pulse_eq]
@[simp] theorem Device.cause_lwk (d : Device) (g : Fld) (n : Nat) : (d.cause g n).lwk = d.lwk := by
  unfold Device.cause; rw [Device.pulse_lwk]; rfl
@[simp] theorem Device.pulse_heath (d : Device) (n : Nat) : (d.pulse n).heath = d.heath := by
  rw [Device.pulse_eq]
@[simp] theorem Device.cause_heath (d : Device) (g : Fld) (n : Nat) : (d.cause g n).heath = d.heath := by
  unfold Device.cause; rw [Device.pulse_heath]; rfl
@[simp] theorem Device.pulse_items (d : Device) (n : Nat) : (d.pulse n).items = d.items := by
  rw [Device.pulse_eq]
@[simp] theorem Device.cause_items (d : Device) (g : Fld) (n : Nat) : (d.cause g n).items = d.items := by
  unfold Device.cause; rw [Device.pulse_items]; rfl
@[simp] theorem Device.pulse_dsp (d : Device) (n : Nat) : (d.pulse n).dsp = d.dsp := by
  rw [Device.pulse_eq]
@[simp] theorem Device.cause_dsp (d : Device) (g : Fld) (n : Nat) : (d.cause g n).dsp = d.dsp := by
  unfold Device.cause; rw [Device.pulse_dsp]; rfl
@[simp] theorem Device.pulse_flt (d : Device) (n : Nat) : (d.pulse n).flt = d.flt := by
  rw [Device.pulse_eq]
@[simp] theorem Device.cause_flt (d : Device) (g : Fld) (n : Nat) : (d.cause g n).flt = d.flt := by
  unfold Device.cause; rw [Device.pulse_flt]; rfl
@[simp] theorem Device.pulse_hostA (d : Device) (n : Nat) : (d.pulse n).hostA = d.hostA := by
  rw [Device.pulse_eq]
@[simp] theorem Device.cause_hostA (d : Device) (g : Fld) (n : Nat) : (d.cause g n).hostA = d.hostA := by
  unfold Device.cause; rw [Device.pulse_hostA]; rfl
@[simp] theorem Device.pulse_hostB (d : Device) (n : Nat) : (d.pulse n).hostB = d.hostB := by
  rw [Device.pulse_eq]
@[simp] theorem Device.cause_hostB (d : Device) (g : Fld) (n : Nat) : (d.cause g n).hostB = d.hostB := by
  unfold Device.cause; rw [Device.pulse_hostB]; rfl
@[simp] theorem Device.pulse_hwd (d : Device) (n : Nat) : (d.pulse n).hwd = d.hwd := by
  rw [Device.pulse_eq]
@[simp] theorem Device.cause_hwd (d : Device) (g : Fld) (n : Nat) : (d.cause g n).hwd = d.hwd := by
  unfold Device.cause; rw [Device.pulse_hwd]; rfl
@[simp] theorem Device.pulse_net (d : Device) (n : Nat) : (d.pulse n).net = d.net := by
  rw [Device.pulse_eq]
@[simp] theorem Device.cause_net (d : Device) (g : Fld) (n : Nat) : (d.cause g n).net = d.net := by
  unfold Device.cause; rw [Device.pulse_net]; rfl
@[simp] theorem Device.pulse_ledger (d : Device) (n : Nat) : (d.pulse n).ledger = d.ledger := by
  rw [Device.pulse_eq]
@[simp] theorem Device.cause_ledger (d : Device) (g : Fld) (n : Nat) : (d.cause g n).ledger = d.ledger := by
  unfold Device.cause; rw [Device.pulse_ledger]; rfl
@[simp] theorem Device.pulse_dram (d : Device) (n : Nat) : (d.pulse n).dram = d.dram := by
  rw [Device.pulse_eq]
@[simp] theorem Device.cause_dram (d : Device) (g : Fld) (n : Nat) : (d.cause g n).dram = d.dram := by
  unfold Device.cause; rw [Device.pulse_dram]; rfl
@[simp] theorem Device.pulse_cores (d : Device) (n : Nat) : (d.pulse n).cores = d.cores := by
  rw [Device.pulse_eq]
@[simp] theorem Device.cause_cores (d : Device) (g : Fld) (n : Nat) : (d.cause g n).cores = d.cores := by
  unfold Device.cause; rw [Device.pulse_cores]; rfl
@[simp] theorem Device.pulse_engines (d : Device) (n : Nat) : (d.pulse n).engines = d.engines := by
  rw [Device.pulse_eq]
@[simp] theorem Device.cause_engines (d : Device) (g : Fld) (n : Nat) : (d.cause g n).engines = d.engines := by
  unfold Device.cause; rw [Device.pulse_engines]; rfl
@[simp] theorem Device.pulse_agc (d : Device) (n : Nat) : (d.pulse n).agc = d.agc := by
  rw [Device.pulse_eq]
@[simp] theorem Device.cause_agc (d : Device) (g : Fld) (n : Nat) : (d.cause g n).agc = d.agc := by
  unfold Device.cause; rw [Device.pulse_agc]; rfl
@[simp] theorem Device.pulse_sched (d : Device) (n : Nat) : (d.pulse n).sched = d.sched := by
  rw [Device.pulse_eq]
@[simp] theorem Device.cause_sched (d : Device) (g : Fld) (n : Nat) : (d.cause g n).sched = d.sched := by
  unfold Device.cause; rw [Device.pulse_sched]; rfl
@[simp] theorem Device.pulse_clipSlot (d : Device) (n : Nat) : (d.pulse n).clipSlot = d.clipSlot := by
  rw [Device.pulse_eq]
@[simp] theorem Device.cause_clipSlot (d : Device) (g : Fld) (n : Nat) : (d.cause g n).clipSlot = d.clipSlot := by
  unfold Device.cause; rw [Device.pulse_clipSlot]; rfl
@[simp] theorem Device.pulse_occs (d : Device) (n : Nat) : (d.pulse n).occs = d.occs := by
  rw [Device.pulse_eq]
@[simp] theorem Device.cause_occs (d : Device) (g : Fld) (n : Nat) : (d.cause g n).occs = d.occs := by
  unfold Device.cause; rw [Device.pulse_occs]; rfl
@[simp] theorem Device.pulse_bells (d : Device) (n : Nat) : (d.pulse n).bells = d.bells := by
  rw [Device.pulse_eq]
@[simp] theorem Device.cause_bells (d : Device) (g : Fld) (n : Nat) : (d.cause g n).bells = d.bells := by
  unfold Device.cause; rw [Device.pulse_bells]; rfl
@[simp] theorem Device.pulse_loops (d : Device) (n : Nat) : (d.pulse n).loops = d.loops := by
  rw [Device.pulse_eq]
@[simp] theorem Device.cause_loops (d : Device) (g : Fld) (n : Nat) : (d.cause g n).loops = d.loops := by
  unfold Device.cause; rw [Device.pulse_loops]; rfl
@[simp] theorem Device.pulse_fec (d : Device) (n : Nat) : (d.pulse n).fec = d.fec := by
  rw [Device.pulse_eq]
@[simp] theorem Device.cause_fec (d : Device) (g : Fld) (n : Nat) : (d.cause g n).fec = d.fec := by
  unfold Device.cause; rw [Device.pulse_fec]; rfl
@[simp] theorem Device.pulse_tbcp (d : Device) (n : Nat) : (d.pulse n).tbcp = d.tbcp := by
  rw [Device.pulse_eq]
@[simp] theorem Device.cause_tbcp (d : Device) (g : Fld) (n : Nat) : (d.cause g n).tbcp = d.tbcp := by
  unfold Device.cause; rw [Device.pulse_tbcp]; rfl
@[simp] theorem Device.pulse_dmas (d : Device) (n : Nat) : (d.pulse n).dmas = d.dmas := by
  rw [Device.pulse_eq]
@[simp] theorem Device.cause_dmas (d : Device) (g : Fld) (n : Nat) : (d.cause g n).dmas = d.dmas := by
  unfold Device.cause; rw [Device.pulse_dmas]; rfl
@[simp] theorem Device.pulse_lanes (d : Device) (n : Nat) : (d.pulse n).lanes = d.lanes := by
  rw [Device.pulse_eq]
@[simp] theorem Device.cause_lanes (d : Device) (g : Fld) (n : Nat) : (d.cause g n).lanes = d.lanes := by
  unfold Device.cause; rw [Device.pulse_lanes]; rfl
@[simp] theorem Device.pulse_ctrs (d : Device) (n : Nat) : (d.pulse n).ctrs = d.ctrs := by
  rw [Device.pulse_eq]
@[simp] theorem Device.cause_ctrs (d : Device) (g : Fld) (n : Nat) : (d.cause g n).ctrs = d.ctrs := by
  unfold Device.cause; rw [Device.pulse_ctrs]; rfl
@[simp] theorem Device.pulse_groups (d : Device) (n : Nat) : (d.pulse n).groups = d.groups := by
  rw [Device.pulse_eq]
@[simp] theorem Device.cause_groups (d : Device) (g : Fld) (n : Nat) : (d.cause g n).groups = d.groups := by
  unfold Device.cause; rw [Device.pulse_groups]; rfl
@[simp] theorem Device.pulse_twin (d : Device) (n : Nat) : (d.pulse n).twin = d.twin := by
  rw [Device.pulse_eq]
@[simp] theorem Device.cause_twin (d : Device) (g : Fld) (n : Nat) : (d.cause g n).twin = d.twin := by
  unfold Device.cause; rw [Device.pulse_twin]; rfl
@[simp] theorem Device.pulse_marks (d : Device) (n : Nat) : (d.pulse n).marks = d.marks := by
  rw [Device.pulse_eq]
@[simp] theorem Device.cause_marks (d : Device) (g : Fld) (n : Nat) : (d.cause g n).marks = d.marks := by
  unfold Device.cause; rw [Device.pulse_marks]; rfl
@[simp] theorem Device.pulse_dumps (d : Device) (n : Nat) : (d.pulse n).dumps = d.dumps := by
  rw [Device.pulse_eq]
@[simp] theorem Device.cause_dumps (d : Device) (g : Fld) (n : Nat) : (d.cause g n).dumps = d.dumps := by
  unfold Device.cause; rw [Device.pulse_dumps]; rfl
@[simp] theorem Device.pulse_csrLatch (d : Device) (n : Nat) : (d.pulse n).csrLatch = d.csrLatch := by
  rw [Device.pulse_eq]
@[simp] theorem Device.cause_csrLatch (d : Device) (g : Fld) (n : Nat) : (d.cause g n).csrLatch = d.csrLatch := by
  unfold Device.cause; rw [Device.pulse_csrLatch]; rfl
@[simp] theorem Device.pulse_tlm (d : Device) (n : Nat) : (d.pulse n).tlm = d.tlm := by
  rw [Device.pulse_eq]
@[simp] theorem Device.cause_tlm (d : Device) (g : Fld) (n : Nat) : (d.cause g n).tlm = d.tlm := by
  unfold Device.cause; rw [Device.pulse_tlm]; rfl
@[simp] theorem Device.pulse_tap (d : Device) (n : Nat) : (d.pulse n).tap = d.tap := by
  rw [Device.pulse_eq]
@[simp] theorem Device.cause_tap (d : Device) (g : Fld) (n : Nat) : (d.cause g n).tap = d.tap := by
  unfold Device.cause; rw [Device.pulse_tap]; rfl
@[simp] theorem Device.pulse_free (d : Device) (n : Nat) : (d.pulse n).free = d.free := by
  rw [Device.pulse_eq]
@[simp] theorem Device.cause_free (d : Device) (g : Fld) (n : Nat) : (d.cause g n).free = d.free := by
  unfold Device.cause; rw [Device.pulse_free]; rfl

end Sys2Proof.Machine
end

