-- ==== Sys2Proof/Laws/Sets.lean ====
section
/-! SUPPORT. Setting fields and pulsing events, one after the other, composes. -/

namespace Sys2Proof.Machine
open R

theorem Device.Sets.refl (d : Device) : d.Sets d [] [] where
  holds := by simp
  pends := by simp
  frame := fun _ _ _ _ => rfl
  quiet := fun _ => rfl
  rest := rfl

theorem Fld.Apart.symm {f g : Fld} (h : f.Apart g) : g.Apart f := by
  unfold Fld.Apart at *; omega

theorem pendFld_ok (n : Nat) : (pendFld n).Ok := by unfold Fld.Ok pendFld; dsimp only; omega

/-- One more field is set. -/
theorem Device.Sets.put {d t : Device} {fs : List (Fld × Nat)} {ps : List Nat} (h : d.Sets t fs ps) (f : Fld) (v : Nat)
    (hf : f.Ok) (ho : ∀ w ∈ fs, w.1.Ok) (ha : ∀ w ∈ fs, f.Apart w.1) (hp : ∀ n ∈ ps, f.Apart (pendFld n)) :
    d.Sets (t.put f v) ((f, v % 2 ^ (f.hi + 1 - f.lo)) :: fs) ps where
  holds := by
    intro w hw
    rcases List.mem_cons.mp hw with e | hw
    · subst e; exact t.get_put_same f v hf
    · rw [t.get_put_apart f w.1 v hf (ho w hw).2 ?_, h.holds w hw]
      have := ha w hw; unfold Fld.Apart at this; omega
  pends := by
    intro n hn
    rw [t.get_put_apart f (pendFld n) v hf (pendFld_ok n).2 ?_, h.pends n hn]
    have := hp n hn; unfold Fld.Apart at this; omega
  frame := by
    intro g hg hw hn
    have := hw (f, _) (List.mem_cons_self ..)
    rw [t.get_put_apart f g v hf hg.2 (by unfold Fld.Apart at this; dsimp only at this; omega)]
    exact h.frame g hg (fun w m => hw w (List.mem_cons_of_mem _ m)) hn
  quiet := fun e => by rw [h.quiet e]; rfl
  rest := by
    have e := h.rest
    unfold Device.put Device.setWord
    rw [e]

/-- One more event is pulsed. -/
theorem Device.Sets.pulse {d t : Device} {fs : List (Fld × Nat)} {ps : List Nat} (h : d.Sets t fs ps) (n : Nat)
    (hn : n < 384) (ho : ∀ w ∈ fs, w.1.reg < 0x100000 ∨ 0x100030 ≤ w.1.reg) : d.Sets (t.pulse n) fs (n :: ps) where
  holds := fun w hw => by rw [t.pulse_get n (ho w hw), h.holds w hw]
  pends := by
    intro m hm
    rcases List.mem_cons.mp hm with e | hm
    · subst e; exact t.pulse_pend m hn
    · exact t.pulse_pend_other n m (h.pends m hm)
  frame := by
    intro g hg hw hp
    have hpn : (pendFld n).Apart g := hp n (List.mem_cons_self ..)
    have e : (t.pulse n).get g = t.get g := by
      unfold Device.pulse
      rw [if_neg (by omega)]
      dsimp only
      split
      · rfl
      · have e := Device.routeEvent_eq ((t.fastWake n).put (pendFld n) 1) n
        have e2 : (((t.fastWake n).put (pendFld n) 1).routeEvent n).get g = ((t.fastWake n).put (pendFld n) 1).get g := by
          unfold Device.get Device.word; rw [e]
        rw [e2, Device.get_put_apart _ _ _ _ (pendFld_ok n) hg.2 (by unfold Fld.Apart at hpn; omega)]
        rfl
    rw [e]
    exact h.frame g hg hw (fun m hm => hp m (List.mem_cons_of_mem _ hm))
  quiet := by simp
  rest := by
    have e := h.rest
    have ep := t.pulse_eq n
    have ee : (t.pulse n).power = { t.power with edge := (t.pulse n).power.edge } := by
      unfold Device.pulse
      dsimp only
      split
      · rfl
      · split
        · rfl
        · rw [Device.routeEvent_eq]; rfl
    generalize t.pulse n = u at *
    rw [ep, ee]
    rw [e]

/-- The lists of a statement in another order, or with equal values. -/
theorem Device.Sets.of {d t : Device} {fs gs : List (Fld × Nat)} {ps qs : List Nat} (h : d.Sets t fs ps)
    (h1 : ∀ w ∈ gs, w ∈ fs) (h2 : ∀ w ∈ fs, w ∈ gs) (h3 : ∀ n ∈ qs, n ∈ ps) (h4 : ∀ n ∈ ps, n ∈ qs) : d.Sets t gs qs where
  holds := fun w hw => h.holds w (h1 w hw)
  pends := fun n hn => h.pends n (h3 n hn)
  frame := fun g hg hw hn => h.frame g hg (fun w m => hw w (h2 w m)) (fun n m => hn n (h4 n m))
  quiet := fun e => h.quiet (by
    cases hp : ps with
    | nil => rfl
    | cons a l => have := h4 a (by rw [hp]; exact List.mem_cons_self ..); rw [e] at this; cases this)
  rest := h.rest


/-! ### Changes outside the registers -/

theorem Device.Sets.with_mem {d t : Device} {fs : List (Fld × Nat)} {ps : List Nat} (h : d.Sets t fs ps) (x : List Host.Cell) :
    ({ d with mem := x }).Sets { t with mem := x } fs ps where
  holds := h.holds
  pends := h.pends
  frame := h.frame
  quiet := fun e => by rw [h.quiet e]
  rest := by have e := h.rest; generalize t.regs = r at *; rw [e]
theorem Device.Sets.with_tiles {d t : Device} {fs : List (Fld × Nat)} {ps : List Nat} (h : d.Sets t fs ps) (x : Tab Tile) :
    ({ d with tiles := x }).Sets { t with tiles := x } fs ps where
  holds := h.holds
  pends := h.pends
  frame := h.frame
  quiet := fun e => by rw [h.quiet e]
  rest := by have e := h.rest; generalize t.regs = r at *; rw [e]
theorem Device.Sets.with_time {d t : Device} {fs : List (Fld × Nat)} {ps : List Nat} (h : d.Sets t fs ps) (x : TimeBase) :
    ({ d with time := x }).Sets { t with time := x } fs ps where
  holds := h.holds
  pends := h.pends
  frame := h.frame
  quiet := fun e => by rw [h.quiet e]
  rest := by have e := h.rest; generalize t.regs = r at *; rw [e]
theorem Device.Sets.with_pkl {d t : Device} {fs : List (Fld × Nat)} {ps : List Nat} (h : d.Sets t fs ps) (x : Loader) :
    ({ d with pkl := x }).Sets { t with pkl := x } fs ps where
  holds := h.holds
  pends := h.pends
  frame := h.frame
  quiet := fun e => by rw [h.quiet e]
  rest := by have e := h.rest; generalize t.regs = r at *; rw [e]
theorem Device.Sets.with_lwk {d t : Device} {fs : List (Fld × Nat)} {ps : List Nat} (h : d.Sets t fs ps) (x : Lacework) :
    ({ d with lwk := x }).Sets { t with lwk := x } fs ps where
  holds := h.holds
  pends := h.pends
  frame := h.frame
  quiet := fun e => by rw [h.quiet e]
  rest := by have e := h.rest; generalize t.regs = r at *; rw [e]
theorem Device.Sets.with_heath {d t : Device} {fs : List (Fld × Nat)} {ps : List Nat} (h : d.Sets t fs ps) (x : Heath) :
    ({ d with heath := x }).Sets { t with heath := x } fs ps where
  holds := h.holds
  pends := h.pends
  frame := h.frame
  quiet := fun e => by rw [h.quiet e]
  rest := by have e := h.rest; generalize t.regs = r at *; rw [e]
theorem Device.Sets.with_items {d t : Device} {fs : List (Fld × Nat)} {ps : List Nat} (h : d.Sets t fs ps) (x : Tab Item) :
    ({ d with items := x }).Sets { t with items := x } fs ps where
  holds := h.holds
  pends := h.pends
  frame := h.frame
  quiet := fun e => by rw [h.quiet e]
  rest := by have e := h.rest; generalize t.regs = r at *; rw [e]
theorem Device.Sets.with_dsp {d t : Device} {fs : List (Fld × Nat)} {ps : List Nat} (h : d.Sets t fs ps) (x : Dispatcher) :
    ({ d with dsp := x }).Sets { t with dsp := x } fs ps where
  holds := h.holds
  pends := h.pends
  frame := h.frame
  quiet := fun e => by rw [h.quiet e]
  rest := by have e := h.rest; generalize t.regs = r at *; rw [e]
theorem Device.Sets.with_flt {d t : Device} {fs : List (Fld × Nat)} {ps : List Nat} (h : d.Sets t fs ps) (x : FaultMgr) :
    ({ d with flt := x }).Sets { t with flt := x } fs ps where
  holds := h.holds
  pends := h.pends
  frame := h.frame
  quiet := fun e => by rw [h.quiet e]
  rest := by have e := h.rest; generalize t.regs = r at *; rw [e]
theorem Device.Sets.with_hostA {d t : Device} {fs : List (Fld × Nat)} {ps : List Nat} (h : d.Sets t fs ps) (x : HostPort) :
    ({ d with hostA := x }).Sets { t with hostA := x } fs ps where
  holds := h.holds
  pends := h.pends
  frame := h.frame
  quiet := fun e => by rw [h.quiet e]
  rest := by have e := h.rest; generalize t.regs = r at *; rw [e]
theorem Device.Sets.with_hostB {d t : Device} {fs : List (Fld × Nat)} {ps : List Nat} (h : d.Sets t fs ps) (x : HostPort) :
    ({ d with hostB := x }).Sets { t with hostB := x } fs ps where
  holds := h.holds
  pends := h.pends
  frame := h.frame
  quiet := fun e => by rw [h.quiet e]
  rest := by have e := h.rest; generalize t.regs = r at *; rw [e]
theorem Device.Sets.with_hwd {d t : Device} {fs : List (Fld × Nat)} {ps : List Nat} (h : d.Sets t fs ps) (x : Hayward) :
    ({ d with hwd := x }).Sets { t with hwd := x } fs ps where
  holds := h.holds
  pends := h.pends
  frame := h.frame
  quiet := fun e => by rw [h.quiet e]
  rest := by have e := h.rest; generalize t.regs = r at *; rw [e]
theorem Device.Sets.with_net {d t : Device} {fs : List (Fld × Nat)} {ps : List Nat} (h : d.Sets t fs ps) (x : Net) :
    ({ d with net := x }).Sets { t with net := x } fs ps where
  holds := h.holds
  pends := h.pends
  frame := h.frame
  quiet := fun e => by rw [h.quiet e]
  rest := by have e := h.rest; generalize t.regs = r at *; rw [e]
theorem Device.Sets.with_ledger {d t : Device} {fs : List (Fld × Nat)} {ps : List Nat} (h : d.Sets t fs ps) (x : Ledger) :
    ({ d with ledger := x }).Sets { t with ledger := x } fs ps where
  holds := h.holds
  pends := h.pends
  frame := h.frame
  quiet := fun e => by rw [h.quiet e]
  rest := by have e := h.rest; generalize t.regs = r at *; rw [e]
theorem Device.Sets.with_dram {d t : Device} {fs : List (Fld × Nat)} {ps : List Nat} (h : d.Sets t fs ps) (x : Dram) :
    ({ d with dram := x }).Sets { t with dram := x } fs ps where
  holds := h.holds
  pends := h.pends
  frame := h.frame
  quiet := fun e => by rw [h.quiet e]
  rest := by have e := h.rest; generalize t.regs = r at *; rw [e]
theorem Device.Sets.with_cores {d t : Device} {fs : List (Fld × Nat)} {ps : List Nat} (h : d.Sets t fs ps) (x : Tab Core) :
    ({ d with cores := x }).Sets { t with cores := x } fs ps where
  holds := h.holds
  pends := h.pends
  frame := h.frame
  quiet := fun e => by rw [h.quiet e]
  rest := by have e := h.rest; generalize t.regs = r at *; rw [e]
theorem Device.Sets.with_engines {d t : Device} {fs : List (Fld × Nat)} {ps : List Nat} (h : d.Sets t fs ps) (x : Tab Engine) :
    ({ d with engines := x }).Sets { t with engines := x } fs ps where
  holds := h.holds
  pends := h.pends
  frame := h.frame
  quiet := fun e => by rw [h.quiet e]
  rest := by have e := h.rest; generalize t.regs = r at *; rw [e]
theorem Device.Sets.with_agc {d t : Device} {fs : List (Fld × Nat)} {ps : List Nat} (h : d.Sets t fs ps) (x : Tab Agc) :
    ({ d with agc := x }).Sets { t with agc := x } fs ps where
  holds := h.holds
  pends := h.pends
  frame := h.frame
  quiet := fun e => by rw [h.quiet e]
  rest := by have e := h.rest; generalize t.regs = r at *; rw [e]
theorem Device.Sets.with_sched {d t : Device} {fs : List (Fld × Nat)} {ps : List Nat} (h : d.Sets t fs ps) (x : Tab (Nat × Nat)) :
    ({ d with sched := x }).Sets { t with sched := x } fs ps where
  holds := h.holds
  pends := h.pends
  frame := h.frame
  quiet := fun e => by rw [h.quiet e]
  rest := by have e := h.rest; generalize t.regs = r at *; rw [e]
theorem Device.Sets.with_occs {d t : Device} {fs : List (Fld × Nat)} {ps : List Nat} (h : d.Sets t fs ps) (x : Tab (List Occasion)) :
    ({ d with occs := x }).Sets { t with occs := x } fs ps where
  holds := h.holds
  pends := h.pends
  frame := h.frame
  quiet := fun e => by rw [h.quiet e]
  rest := by have e := h.rest; generalize t.regs = r at *; rw [e]
theorem Device.Sets.with_bells {d t : Device} {fs : List (Fld × Nat)} {ps : List Nat} (h : d.Sets t fs ps) (x : List (Nat × Nat × Nat)) :
    ({ d with bells := x }).Sets { t with bells := x } fs ps where
  holds := h.holds
  pends := h.pends
  frame := h.frame
  quiet := fun e => by rw [h.quiet e]
  rest := by have e := h.rest; generalize t.regs = r at *; rw [e]
theorem Device.Sets.with_loops {d t : Device} {fs : List (Fld × Nat)} {ps : List Nat} (h : d.Sets t fs ps) (x : List LoopEnt) :
    ({ d with loops := x }).Sets { t with loops := x } fs ps where
  holds := h.holds
  pends := h.pends
  frame := h.frame
  quiet := fun e => by rw [h.quiet e]
  rest := by have e := h.rest; generalize t.regs = r at *; rw [e]
theorem Device.Sets.with_fec {d t : Device} {fs : List (Fld × Nat)} {ps : List Nat} (h : d.Sets t fs ps) (x : Tab FecGroup) :
    ({ d with fec := x }).Sets { t with fec := x } fs ps where
  holds := h.holds
  pends := h.pends
  frame := h.frame
  quiet := fun e => by rw [h.quiet e]
  rest := by have e := h.rest; generalize t.regs = r at *; rw [e]
theorem Device.Sets.with_tbcp {d t : Device} {fs : List (Fld × Nat)} {ps : List Nat} (h : d.Sets t fs ps) (x : Tab Tbcp) :
    ({ d with tbcp := x }).Sets { t with tbcp := x } fs ps where
  holds := h.holds
  pends := h.pends
  frame := h.frame
  quiet := fun e => by rw [h.quiet e]
  rest := by have e := h.rest; generalize t.regs = r at *; rw [e]
theorem Device.Sets.with_dmas {d t : Device} {fs : List (Fld × Nat)} {ps : List Nat} (h : d.Sets t fs ps) (x : Tab Dma) :
    ({ d with dmas := x }).Sets { t with dmas := x } fs ps where
  holds := h.holds
  pends := h.pends
  frame := h.frame
  quiet := fun e => by rw [h.quiet e]
  rest := by have e := h.rest; generalize t.regs = r at *; rw [e]
theorem Device.Sets.with_lanes {d t : Device} {fs : List (Fld × Nat)} {ps : List Nat} (h : d.Sets t fs ps) (x : Tab Lane) :
    ({ d with lanes := x }).Sets { t with lanes := x } fs ps where
  holds := h.holds
  pends := h.pends
  frame := h.frame
  quiet := fun e => by rw [h.quiet e]
  rest := by have e := h.rest; generalize t.regs = r at *; rw [e]
theorem Device.Sets.with_ctrs {d t : Device} {fs : List (Fld × Nat)} {ps : List Nat} (h : d.Sets t fs ps) (x : Tab Ctr) :
    ({ d with ctrs := x }).Sets { t with ctrs := x } fs ps where
  holds := h.holds
  pends := h.pends
  frame := h.frame
  quiet := fun e => by rw [h.quiet e]
  rest := by have e := h.rest; generalize t.regs = r at *; rw [e]
theorem Device.Sets.with_groups {d t : Device} {fs : List (Fld × Nat)} {ps : List Nat} (h : d.Sets t fs ps) (x : Tab LaneGroup) :
    ({ d with groups := x }).Sets { t with groups := x } fs ps where
  holds := h.holds
  pends := h.pends
  frame := h.frame
  quiet := fun e => by rw [h.quiet e]
  rest := by have e := h.rest; generalize t.regs = r at *; rw [e]
theorem Device.Sets.with_twin {d t : Device} {fs : List (Fld × Nat)} {ps : List Nat} (h : d.Sets t fs ps) (x : Twin) :
    ({ d with twin := x }).Sets { t with twin := x } fs ps where
  holds := h.holds
  pends := h.pends
  frame := h.frame
  quiet := fun e => by rw [h.quiet e]
  rest := by have e := h.rest; generalize t.regs = r at *; rw [e]
theorem Device.Sets.with_marks {d t : Device} {fs : List (Fld × Nat)} {ps : List Nat} (h : d.Sets t fs ps) (x : List Nat) :
    ({ d with marks := x }).Sets { t with marks := x } fs ps where
  holds := h.holds
  pends := h.pends
  frame := h.frame
  quiet := fun e => by rw [h.quiet e]
  rest := by have e := h.rest; generalize t.regs = r at *; rw [e]
theorem Device.Sets.with_dumps {d t : Device} {fs : List (Fld × Nat)} {ps : List Nat} (h : d.Sets t fs ps) (x : Tab Dump) :
    ({ d with dumps := x }).Sets { t with dumps := x } fs ps where
  holds := h.holds
  pends := h.pends
  frame := h.frame
  quiet := fun e => by rw [h.quiet e]
  rest := by have e := h.rest; generalize t.regs = r at *; rw [e]
theorem Device.Sets.with_csrLatch {d t : Device} {fs : List (Fld × Nat)} {ps : List Nat} (h : d.Sets t fs ps) (x : Tab Nat) :
    ({ d with csrLatch := x }).Sets { t with csrLatch := x } fs ps where
  holds := h.holds
  pends := h.pends
  frame := h.frame
  quiet := fun e => by rw [h.quiet e]
  rest := by have e := h.rest; generalize t.regs = r at *; rw [e]
theorem Device.Sets.with_tlm {d t : Device} {fs : List (Fld × Nat)} {ps : List Nat} (h : d.Sets t fs ps) (x : Tlm) :
    ({ d with tlm := x }).Sets { t with tlm := x } fs ps where
  holds := h.holds
  pends := h.pends
  frame := h.frame
  quiet := fun e => by rw [h.quiet e]
  rest := by have e := h.rest; generalize t.regs = r at *; rw [e]
theorem Device.Sets.with_tap {d t : Device} {fs : List (Fld × Nat)} {ps : List Nat} (h : d.Sets t fs ps) (x : Tap) :
    ({ d with tap := x }).Sets { t with tap := x } fs ps where
  holds := h.holds
  pends := h.pends
  frame := h.frame
  quiet := fun e => by rw [h.quiet e]
  rest := by have e := h.rest; generalize t.regs = r at *; rw [e]
theorem Device.Sets.with_free {d t : Device} {fs : List (Fld × Nat)} {ps : List Nat} (h : d.Sets t fs ps) (x : Nat) :
    ({ d with free := x }).Sets { t with free := x } fs ps where
  holds := h.holds
  pends := h.pends
  frame := h.frame
  quiet := fun e => by rw [h.quiet e]
  rest := by have e := h.rest; generalize t.regs = r at *; rw [e]

theorem Device.Sets.emit {d t : Device} {fs : List (Fld × Nat)} {ps : List Nat} (h : d.Sets t fs ps) (o : Out) :
    (d.emit o).Sets (t.emit o) fs ps where
  holds := h.holds
  pends := h.pends
  frame := h.frame
  quiet := fun e => by rw [h.quiet e]; rfl
  rest := by
    have e := h.rest
    unfold Device.emit
    dsimp only
    generalize t.regs = r at *
    rw [e]

end Sys2Proof.Machine
end

