-- ==== Sys2Proof/Tests/Slice0.lean ====
section
/-! SUPPORT. The model's own tests: the checks of WellFormed each refuse an ill-formed command; for the hypotheses of the
statements, concrete states and operands that meet them; and single steps with values worked out from the spec. -/

namespace Sys2Proof.Tests
open Sys2Proof.Machine Sys2Proof.Machine.R

/-! ### Helpers -/

/-- The device after reset with fields of its registers set. -/
def dev (fs : List (Fld × Nat)) : Device := fs.foldl (fun d f => d.put f.1 f.2) device0

/-- A state with no command waiting. -/
def st (d : Device) : State := ⟨d, []⟩

/-- The device of a next state. -/
def after (o : Host.Outcome State Fault Refusal) : Device := match o with
  | .next t => t.dev
  | _ => device0

/-- A slot's instruction on core 0 of cluster 0, alone in its bundle. -/
def op (slot : Fin 6) (dst s1 s2 : BitVec 5) (mod : BitVec 23) : SlotOp :=
  ⟨0, 0, slot, true, true, dst, s1, s2, mod, false, none, none⟩

/-- The device with a core that runs, with register writes made, on a cluster in Run. -/
def running (fs : List (Fld × Nat)) (ws : List CWrite) : Device :=
  { dev ((ELP_DOM_STATE_STATE 0, pRun) :: fs) with
    cores := [(0, { core0 with waiting := false, regs := core0.regs.writes ws })] }

/-! ### Ill-formed commands are refused -/

/-- A header with no data, whose LEN is 65. -/
def longPacket : Packet := ⟨0, 0, 0, 65, 0, 0, false, 0, 0, false, false, false, false, false, 0, 0, 0, 0, 0, 0, []⟩

theorem test_wf_edge_needs_66_domains : (Instr.baseTickEdge ⟨[]⟩).wf = false := by decide
theorem test_wf_time_in_a_tick : (Instr.ppsInEdge 187500 0).wf = false := by decide
theorem test_wf_packet_length : (Instr.packetInject longPacket).wf = false := by decide
theorem test_wf_payload_units : (Instr.payloadWrite 0 0 false 0 0 [1, 2, 3] []).wf = false := by decide
theorem test_wf_block_time : (Instr.laneBlockReceive 0 0 0 false 0 187500).wf = false := by decide
theorem test_wf_equaliser : (Instr.trainingDone 0 (List.replicate 65 0)).wf = false := by decide
theorem test_wf_beam_table : (Instr.tbcTableWrite 0 0 0 0 [] false).wf = false := by decide
theorem test_wf_slot_mod : (Instr.add (op 3 0 0 0 0x8000) false).wf = false := by decide
theorem test_wf_window_units : (Instr.twnMsgPush 0 [] 0).wf = false := by decide
theorem test_wf_thermal_sensors : (Instr.thermalSample []).wf = false := by decide
theorem test_wf_oscillators : (Instr.avsMeasure [] 0 true true).wf = false := by decide
theorem test_wf_regulators : (Instr.pmbAlert []).wf = false := by decide
theorem test_wf_tlp_read : (Instr.hostTlp 0 (.memRd 0 0 0)).wf = false := by decide
theorem test_wf_tlp_write : (Instr.hostTlp 0 (.memWr 0 0 [])).wf = false := by decide
theorem test_wf_boot_channels : (Instr.porRelease 0 ⟨true, true, [], 0⟩).wf = false := by decide

/-! ### The queue and what every step keeps -/

theorem witness_StepRunsFront : (⟨device0, [.debugLock]⟩ : State).pending = [.debugLock] ∧ State.reset.pending = [] := by decide
theorem witness_EveryCommandRuns : 1 ≤ (⟨device0, [.debugLock]⟩ : State).pending.length := by decide
theorem witness_QueueStaysWellFormed : (⟨device0, [.aonHeartbeat, .idcode]⟩ : State).QueueWf ∧
    step ⟨device0, [.aonHeartbeat, .idcode]⟩ = .next ⟨device0, [.idcode]⟩ := ⟨show ([.aonHeartbeat, .idcode] : List Instr).all Instr.wf = true by decide, rfl⟩
theorem witness_CanonicalFormIsKept : State.reset.dev.Canon := ⟨by decide, by decide⟩
theorem witness_TimeBaseAtReset : device0.time.sec = 0 ∧ device0.time.ns = 0 ∧ device0.time.tick = 0 ∧
    device0.get TTB_STATUS_STATE = 0 ∧ device0.time.skip = false := by decide
theorem witness_CoreRegisterWrites : (∀ w ∈ [CWrite.d 1 5], w.key ≠ (0, 2)) ∧ (1 : Nat) ≠ 0 := by decide

/-! ### Scalar instructions -/

/-- An instruction alone in its bundle on core 0 of cluster 0, for which the closed facts hold, may run there. -/
theorem alone {fs : List (Fld × Nat)} {ws : List CWrite} {slot : Fin 6} {dst s1 s2 : BitVec 5} {mod : BitVec 23} {slots : List Nat}
    (h : slots.contains slot.val = true ∧ (running fs ws).issues 0 0 = true ∧ (running fs ws).breakHit 0 0 = false ∧
      bit ((running fs ws).get (CLU_DBG_CTRL_HALT 0)) 0 = false) : (running fs ws).Alone (op slot dst s1 s2 mod) slots :=
  ⟨h.1, rfl, rfl, rfl, h.2.1, rfl, h.2.2.1, h.2.2.2, Nat.zero_le _, rfl, rfl, rfl⟩

/-- A core that runs issues an instruction of slot SA, SM0, SX or SC alone. -/
theorem witness_ArithmeticInstructions : (running [] []).Alone (op 4 3 1 2 0) [4] :=
  alone (by decide)
theorem witness_ShiftAndBitInstructions : (running [] [.d 1 8, .d 2 31]).Alone (op 4 3 1 2 0) [4] ∧
    ((running [] [.d 1 8, .d 2 31]).core 0 0).regs.dreg 2 = 31 ∧ (1 : Word) ≠ 0 :=
  ⟨alone (by decide), by decide⟩
theorem witness_CompareAndMoveInstructions : (running [] []).Alone (op 4 7 15 0 0) [4] ∧ (7 : Nat) < 8 ∧ (15 : Nat) < 16 :=
  ⟨alone (by decide), by decide⟩
theorem witness_MultiplyAndAccumulate : (running [] []).Alone (op 2 0 1 2 0) [2, 3] ∧ (running [] []).Alone (op 3 0 1 2 0) [2, 3] :=
  ⟨alone (by decide), alone (by decide)⟩
theorem witness_LoadInstructions : (running [] [.a 1 0x1FFF8]).Alone (op 0 30 1 0 0) [0, 1] ∧ cspace 0x1FFF8 ≠ .far ∧
    (cspace 0x1FFF8).okFor 0 = true ∧ 0x1FFF8 % 8 = 0 ∧ (op 0 30 1 0 0).dst.toNat ≠ 31 ∧
    ((running [] [.a 1 0x1FFF8]).core 0 0).regs.areg 1 = 0x1FFF8 :=
  ⟨alone (by decide), by decide⟩
theorem witness_StoreInstructions : (running [] [.a 1 0x20000]).Alone (op 1 0 1 30 0) [0, 1] ∧ cspace 0x20000 ≠ .far ∧
    (cspace 0x20000).okFor 1 = true ∧ 0x20000 % 8 = 0 ∧ (op 1 0 1 30 0).src2.toNat ≠ 31 :=
  ⟨alone (by decide), by decide⟩
theorem witness_BranchesAndDelaySlots : (running [] []).Alone (op 5 0 15 0 0) [5] ∧
    ({ core0 with branch := some (1, 64, true) } : Core).loops = [] :=
  ⟨alone (by decide), by decide⟩
theorem witness_RepeatLevels : (running [] []).Alone (op 5 0 1 7 0x7F) [5] ∧
    (op 5 0 1 7 0x7F).mod.toNat % 128 + 128 * (op 5 0 1 7 0x7F).src2.toNat = 1023 ∧
    ({ core0 with loops := [⟨0, 0, 2⟩] } : Core).pc = 0 :=
  ⟨alone (by decide), by decide⟩
theorem witness_TrapEntries : (running [] []).Alone (op 5 0 0 0 0) [5] ∧ (running [] []).routed 0 0 9 = false ∧
    (running [(CX_STATUS_PRIV 0 0, 0), (⟨CX_TROUTE 0 0, 19, 18⟩, 1)] []).routed 0 0 9 = true :=
  ⟨alone (by decide), by decide⟩
theorem witness_SystemAndReturn : (running [] []).Alone (op 5 0 0 0 0x140) [5] ∧
    ¬ commitReg (op 5 0 0 0 0x140) [] (0x2000000 + 0x140) ∧
    (running [(CX_STATUS_PRIV 0 0, 2)] []).priv 0 0 = 2 ∧ (running [(CX_STATUS_PRIV 0 0, 1)] []).priv 0 0 = 1 ∧
    (running [(CX_STATUS_PRIV 0 0, 2)] []).csrBar 0 0 0x140 false = false ∧ (regRow (0x2000000 + 0x140)).isSome = true ∧
    (running [(CX_STATUS_PRIV 0 0, 2)] []).csrBar 0 0 0x140 true = false ∧ device0.csrView 0 0 0x140 = none ∧
    device0.get (CX_STATUS_EPRIV 0 0) < 3 ∧ core0.stores = [] ∧ core0.restore = false := by
  refine ⟨alone (by decide), ?_, by decide⟩
  rintro (⟨n, hn, h⟩ | h | ⟨h, _⟩)
  · simp only [CX_HPM_CTL, op] at h; omega
  · exact absurd h (by decide)
  · exact h rfl
theorem witness_CoprocessorInstructions : (running [⟨⟨CX_CPEN 0 0, 31, 0⟩, 0xFF⟩] [.a 3 0x1FFE0]).Alone (op 5 0 0 0 0) [5] ∧
    (running [⟨⟨CX_CPEN 0 0, 31, 0⟩, 0xFF⟩] [.a 3 0x1FFE0]).cpOn 0 0 0 = true ∧ 0x1FFE0 % 32 = 0 ∧
    cspace 0x1FFE0 ≠ .none ∧ ∀ j < 8, (device0.core 0 j).cp = none ∧ (device0.core 0 j).cpRun = none :=
  ⟨alone (by decide), by decide⟩

/-! ### Vector instructions -/

/-- A core whose vector unit is enabled in every mode, with type t in force and 8 elements granted. -/
def vec (t : Nat) : List (Fld × Nat) :=
  [(⟨CX_CPEN 0 0, 31, 0⟩, 0xFF), (CX_VSHAPE_ELEM 0 0, t), (CX_VGRANT_GL 0 0, 8)]

/-- With the vector unit enabled and a type in force that the instruction accepts, it may run alone on core 0 of cluster 0. -/
theorem vready {t : Nat} {ws : List CWrite} {slot : Fin 6} {dst s1 s2 : BitVec 5} {mod : BitVec 23} {slots : List Nat} {res : Nat}
    {types : Nat → Bool}
    (h : slots.contains slot.val = true ∧ (running (vec t) ws).issues 0 0 = true ∧ (running (vec t) ws).breakHit 0 0 = false ∧
      bit ((running (vec t) ws).get (CLU_DBG_CTRL_HALT 0)) 0 = false)
    (v : (running (vec t) ws).cpOn 0 0 1 = true ∧ mod.toNat &&& res = 0 ∧
      types ((running (vec t) ws).get (CX_VSHAPE_ELEM 0 0)) = true) :
    (running (vec t) ws).VReady (op slot dst s1 s2 mod) slots res types :=
  ⟨alone h, v.1, v.2.1, v.2.2⟩

theorem witness_VectorElements : (∀ e ∈ [0, 31], 32 * (e + 1) ≤ 1024) ∧ 32 * (31 + 1) ≤ 1024 := by decide
theorem witness_VectorMemory : (running (vec 1) [.a 1 0x100]).VReady (op 0 2 1 0 0) [0, 1] 0x7E00 tAll ∧
    ((running (vec 1) [.a 1 0x100]).core 0 0).resumed = false ∧ vmemFault 0 4 [(0, 0x100, []), (7, 0x1FFFC, [])] none = none :=
  ⟨vready (by decide) (by decide), by decide⟩
theorem witness_VectorMultiplications : (running (vec 1) []).VReady (op 2 4 2 3 0) [2] 0x4000 tAll ∧
    (running (vec 4) []).VReady (op 2 4 2 3 0) [2] 0x4000 tCplx ∧ (running (vec 0) []).VReady (op 2 4 2 3 0) [2] 0x4000 tWide ∧
    (running (vec 4) []).VReady (op 2 4 2 3 0) [2] 0x4000 tWideCplx ∧ opCs2 (op 2 4 2 3 0) = 0 ∧
    ∃ a, ((running (vec 1) []).core 0 0).vsrc (opCs1 (op 2 4 2 3 0)) 2 = some a :=
  ⟨vready (by decide) (by decide), vready (by decide) (by decide),
    vready (by decide) (by decide), vready (by decide) (by decide),
    by decide, ⟨_, rfl⟩⟩
theorem witness_VectorAdds : (running (vec 0) []).VReady (op 3 4 2 3 0) [3] 0x4000 tReal ∧
    (running (vec 6) []).VReady (op 3 4 2 3 0) [3] 0x4000 tCplx ∧
    ∃ b, ((running (vec 0) []).core 0 0).vsrc (opCs2 (op 3 4 2 3 0)) 3 = some b :=
  ⟨vready (by decide) (by decide), vready (by decide) (by decide), ⟨_, rfl⟩⟩
theorem witness_VectorComparesAndFolds : (running (vec 2) []).VReady (op 3 4 2 3 0) [3] 0x4000 tReal ∧
    (running (vec 2) []).VReady (op 3 4 2 3 0) [3] 0x4000 (fun t => decide (t ≤ 2)) ∧ (op 3 4 2 3 0).dst.toNat % 2 = 0 :=
  ⟨vready (by decide) (by decide), vready (by decide) (by decide), by decide⟩
theorem witness_VectorClaims : (running (vec 1) []).VReady (op 4 4 2 0 0x0C00) [4] 0x4000 tAll ∧
    bits (op 4 4 2 0 0x0C00).mod.toNat 13 12 = 0 ∧ bits (op 4 4 2 0 0x0C00).mod.toNat 11 9 = 6 ∧ opCs1 (op 4 4 2 0 0x0C00) = 0 :=
  ⟨vready (by decide) (by decide), by decide⟩
theorem witness_VectorPermuteSlot : (running (vec 3) []).VReady (op 4 30 2 3 0) [4] 0x4000 tAll ∧
    (running (vec 1) []).VReady (op 4 30 2 3 0) [4] 0x4000 tWide ∧ opImm8 (op 4 30 2 3 0) < ((running (vec 3) []).vctx core0 (op 4 30 2 3 0)).cap ∧
    core0.vpsrc (opCs1 (op 4 30 2 3 0)) 2 = some 0 :=
  ⟨vready (by decide) (by decide), vready (by decide) (by decide), by decide⟩

/-! ### Time base -/

/-- Device state with time base fields changed. -/
def timed (fs : List (Fld × Nat)) (f : TimeBase → TimeBase) : Device := { dev fs with time := f time0 }

/-- The PTP domain in force after reset is 127: a message over UDP of that domain counts while PTP is the source. -/
theorem witness_OffsetMeasurements :
    let host := (TTB_CTRL_SERVO_HOST, 1)
    let runs := dev [(TTB_STATUS_STATE, 3), (PKL_PANEL_RUN_RUN, 1)]
    let smpte := dev [(TTB_CTRL_PROFILE, 1), (TTB_CTRL_PTP_DOMAIN, 43)]
    let near := timed [host, (TTB_STATUS_STATE, 1)] (fun t => { t with good := 15 })
    (127 : BitVec 8).toNat = device0.get TTB_CTRL_PTP_DOMAIN ∧ device0.get TTB_CTRL_PROFILE = 0 ∧ device0.source = 0 ∧
    smpte.get TTB_CTRL_PROFILE = 1 ∧ (43 : BitVec 8).toNat = smpte.get TTB_CTRL_PTP_DOMAIN ∧
    device0.get TTB_STATUS_STATE = 0 ∧ device0.get PKL_PANEL_RUN_RUN = 0 ∧ 1000 < (-1001 : Int).natAbs ∧ ¬ 1000 < (1000 : Int).natAbs ∧
    device0.time.step = none ∧ runs.get TTB_STATUS_STATE = 3 ∧ runs.get PKL_PANEL_RUN_RUN ≠ 0 ∧
    (dev [host]).get TTB_CTRL_SERVO_HOST = 1 ∧ near.get TTB_STATUS_STATE = 1 ∧ (-99 : Int).natAbs < 100 ∧ 15 ≤ near.time.good ∧
    (dev [host, (TTB_STATUS_STATE, 2)]).get TTB_STATUS_STATE = 2 ∧ (126 : BitVec 8).toNat ≠ device0.get TTB_CTRL_PTP_DOMAIN ∧
    (dev [(TTB_CTRL_SOURCE, 1)]).source = 1 := by
  and_intros <;> decide
theorem witness_TimeSources :
    let kept := timed [(TTB_STATUS_STATE, 1)] (fun t => { t with freqs := [3, -4], tlv := [7] })
    let pps := dev [(TTB_CTRL_SOURCE, 1), (TTB_PPS_CTRL_IN_EN, 1), (TTB_STATUS_STATE, 2), (TTB_CTRL_SERVO_HOST, 1)]
    let sync := dev [(TTB_STATUS_SYNCE_LOCK, 1), (TTB_CTRL_SYNCE_EN, 1)]
    (127 : BitVec 8).toNat = kept.get TTB_CTRL_PTP_DOMAIN ∧ kept.get TTB_CTRL_PROFILE = 0 ∧ kept.get TTB_UTC_OFS_OFS ≠ 36 ∧
    kept.time.tlv = [7] ∧ kept.time.tlv ≠ [] ∧ (0 : BitVec 8).toNat ≠ kept.get TTB_CTRL_PTP_DOMAIN ∧ kept.source = 0 ∧
    kept.get TTB_STATUS_STATE = 1 ∧ kept.time.freqs ≠ [] ∧ device0.time.freqs = [] ∧ device0.get TTB_PPS_CTRL_IN_EN = 0 ∧
    pps.get TTB_PPS_CTRL_IN_EN = 1 ∧ pps.source = 1 ∧ pps.get TTB_STATUS_STATE = 2 ∧ pps.get TTB_CTRL_SERVO_HOST = 1 ∧
    (dev [(TTB_PPS_CTRL_IN_EN, 1)]).source ≠ 1 ∧ sync.get TTB_STATUS_SYNCE_LOCK = 1 ∧ sync.get TTB_CTRL_SYNCE_EN = 1 := by
  and_intros <;> decide
theorem witness_TimeBaseRegisters :
    let runs := dev [(PKL_PANEL_RUN_RUN, 0x80000), (TTB_STATUS_STATE, 1), (TTB_STATUS_SYNCE_LOCK, 1)]
    let held := timed [] (fun t => { t with frame := some (79, 1023) })
    let pps := timed [(TTB_PPS_CTRL_OUT_EN, 1)] (fun t => { t with ns := 999937500, skip := true, run := 2 ^ 40, ppsAt := 0 })
    let tod := pps.time.sec * 1000000000 + pps.time.ns
    let next := (tod / 125000 + 1 + b2n pps.time.skip) * 125000
    device0.get TTB_STATUS_STATE = 0 ∧ bits (0x21 : Word).toNat 1 0 < 2 ∧ ¬ bits (0x22 : Word).toNat 1 0 < 2 ∧
    (0x21 : Word).getLsbD 5 = true ∧ (1 : Word).getLsbD 5 = false ∧ runs.get TTB_STATUS_SYNCE_LOCK = 1 ∧
    runs.get TTB_STATUS_STATE ≠ 0 ∧ runs.get TTB_CTRL_SYNCE_EN ≠ bits (0x21 : Word).toNat 5 5 ∧ (1 : Word).getLsbD 0 = true ∧
    (3 : Word).getLsbD 1 = true ∧ (1 : Word).getLsbD 1 = false ∧ device0.get PKL_PANEL_RUN_RUN = 0 ∧ runs.get PKL_PANEL_RUN_RUN ≠ 0 ∧
    held.time.step = none ∧ held.time.frame = some (79, 1023) ∧ pps.get TTB_PPS_CTRL_OUT_EN = 1 ∧ device0.time.ns = 0 ∧
    pps.time.ns ≠ 0 ∧ pps.time.skip = true ∧ (pps.time.sec + 1) * 1000000000 < next ∧
    pps.time.ppsAt + 1000000 * max 1 (pps.get TTB_PPS_CTRL_OUT_WIDTH_MS) < pps.time.run + (next - tod) := by
  and_intros <;> decide
theorem witness_TickAndSteps :
    let d := timed [] (fun t => { t with sec := 2 ^ 48 - 1, ns := 999999999, step := some 0 })
    let v := timed [(PKL_PANEL_RUN_RUN, 1)] (fun t => { t with own := true, step := some 5 })
    let tod := fun (d : Device) => ((d.time.sec * 1000000000 + d.time.ns : Nat) : Int)
    d.time.step = some 0 ∧ (0 ≤ tod d + 0 ∧ tod d + 0 < 2 ^ 48 * 1000000000) ∧ ¬ tod d + 1 < 2 ^ 48 * 1000000000 ∧
    ¬ 0 ≤ tod device0 + -1 ∧ d.time.own = false ∧ v.time.step = some 5 ∧ v.time.own = true ∧ v.get PKL_PANEL_RUN_RUN ≠ 0 := by
  and_intros <;> decide

/-! ### Loader and migration -/

/-- A stream of no sections, for the whole device or for one panel. -/
def emptyStream (kind panel : Nat) : Stream := ⟨kind, panel, 0, []⟩

theorem witness_LoaderCommands :
    let run := dev [(PKL_PANEL_RUN_RUN, 0x80000), (PKL_PANEL_DEF_DEF, 0x80000)]
    let whole := { device0 with pkl := { loader0 with staged := some (emptyStream 0 31) } }
    let part := { device0 with pkl := { loader0 with staged := some (emptyStream 1 19) } }
    let ends := { device0 with pkl := { loader0 with cmd := .stage, fetchOk := true } }
    (device0.mayLoad .hostA = true ∧ device0.get PKL_STATUS_BUSY = 0 ∧ bits (0x1300 : Word).toNat 12 8 = 19 ∧
      bits (0x1300 : Word).toNat 13 13 = 0 ∧ (device0.pklFetch 0x5400000000 64).isSome = true ∧ 0 ≤ 4194304 ∧
      whole.pkl.staged = some (emptyStream 0 31) ∧ whole.get PKL_PANEL_RUN_RUN = 0 ∧
      part.pkl.staged = some (emptyStream 1 19) ∧ part.get PKL_MIG_STATUS_STATE = 0 ∧
      bit (run.get PKL_PANEL_RUN_RUN) 19 = true ∧ bit (run.get PKL_PANEL_DEF_DEF) 19 = true ∧
      bit (device0.get PKL_PANEL_RUN_RUN) 19 = false ∧ ends.pkl.cmd = .stage ∧ ends.get PKL_LEN_LEN ≤ 4194304 ∧
      ends.pkl.fetchOk = true) ∧
    (∀ c < 64, part.get (PKL_CARRIER_MAP_VALID c) = 0) ∧ ∃ e, (ends.checkStream 0 ends.pkl.buf).2 = some e :=
  ⟨by and_intros <;> decide, by decide, _, rfl⟩
theorem witness_PanelEdges :
    let d := { dev [(PKL_PANEL_RUN_RUN, 1)] with pkl := { loader0 with cmd := .stop 0 } }
    let a := { device0 with pkl := { loader0 with cmd := .reprick true 0, staged := some (emptyStream 0 31) } }
    let e := { dev [(TTB_STATUS_STATE, 2)] with pkl := { loader0 with restart := [(19, false)] }, time := { time0 with heldStarts := [19] } }
    d.pkl.cmd = .stop 0 ∧ bit (d.get PKL_PANEL_RUN_RUN) 0 = true ∧ d.panelEdge 0 = true ∧
    isPast 32 (d.get PKL_STOP_TICK_TICK) d.time.tick = true ∧ a.pkl.cmd = .reprick true 0 ∧
    a.pkl.staged = some (emptyStream 0 31) ∧ a.pkl.applied = false ∧
    e.pkl.restart.find? (fun x => x.1 == 19) = some (19, false) ∧ e.panelEdge 19 = true ∧
    isPast 32 (e.get PKL_RESTART_TICK_TICK) e.time.tick = true ∧ e.flt.swap = [] ∧
    bit (e.get PKL_PANEL_RUN_RUN) 19 = false ∧ 19 ∈ e.time.heldStarts ∧ e.get TTB_STATUS_STATE = 2 ∧ e.pkl.routes = none ∧
    device0.get TTB_STATUS_STATE ≠ 2 ∧ device0.get TTB_CTRL_RUN_UNLOCKED ≠ 1 ∧ 19 ∉ device0.time.heldStarts ∧
    (dev [(TTB_CTRL_RUN_UNLOCKED, 1)]).get TTB_CTRL_RUN_UNLOCKED = 1 := by
  and_intros <;> decide
/-- Panel 19 runs, with every bank of Heath and every kind of engine; carrier 63 is valid and has a section. -/
def roomy : Device :=
  { dev ((List.range 80).map (fun k => (HTH_BANK_STATE_PANEL k, 19)) ++
      [(PKL_CARRIER_MAP_VALID 63, 1), (PKL_PANEL_DEF_DEF, 0x80000), (PKL_PANEL_RUN_RUN, 0x80000)]) with
    pkl := { loader0 with active := [⟨0x10, 19, List.replicate 12 0xFF⟩, ⟨0x50, 63, []⟩] } }
set_option maxRecDepth 8000 in
theorem roomy_tiles : roomy.freeTiles 19 = 40960 := by decide
set_option maxRecDepth 8000 in
theorem roomy_kinds : roomy.panelKinds 19 = 2 ^ 8 - 1 ∧ roomy.section? 0x50 63 = some ⟨0x50, 63, []⟩ := by decide
/-- Whatever the carrier requires, that panel holds it. -/
theorem roomy_room : roomy.migRoom 63 19 = true := by
  unfold Device.migRoom
  rw [roomy_kinds.2, roomy_kinds.1, roomy_tiles]
  have h : (Config.carrierKinds [] % 256).land (2 ^ 8 - 1) = Config.carrierKinds [] % 256 := by
    have := Nat.and_two_pow_sub_one_eq_mod (Config.carrierKinds [] % 256) 8
    exact this.trans (Nat.mod_mod _ 256)
  simp only [h, beq_self_eq_true, Bool.true_and, decide_eq_true_eq]
  omega
set_option maxRecDepth 8000 in
theorem witness_MigrationCommands :
    let d := roomy
    let c := { dev [(PKL_MIG_STATUS_STATE, 1)] with ledger := { ledger0 with d := 256000 } }
    let e := dev [(PKL_MIG_STATUS_STATE, 2)]
    let x := { e with pkl := { loader0 with migFault := true } }
    let f := dev [(PKL_MIG_STATUS_STATE, 3)]
    d.migRoom 63 19 = true ∧ d.mayLoad .hostB = true ∧ (0x133F01 : Word).getLsbD 0 = true ∧ bits (0x133F01 : Word).toNat 13 8 = 63 ∧
    bits (0x133F01 : Word).toNat 20 16 = 19 ∧ d.get PKL_MIG_STATUS_STATE = 0 ∧ d.get (PKL_CARRIER_MAP_VALID 63) = 1 ∧
    bit (d.get PKL_PANEL_DEF_DEF) 19 = true ∧ bit (d.get PKL_PANEL_RUN_RUN) 19 = true ∧
    c.get PKL_MIG_STATUS_STATE = 1 ∧ isPast 32 c.pkl.migE ((c.nextCarrierTick (c.carrierR 0)).getD 0) = true ∧
    (c.nextCarrierTick (c.carrierR 0)).isSome = true ∧
    (c.askEnergy 4 0 (1000 * 2 ^ c.get ELP_CTRL_MIG_ECLASS)).1 = true ∧
    e.stopDue e.pkl.migSrc = false ∧ e.get PKL_MIG_STATUS_STATE = 2 ∧ isPast 32 e.pkl.migE (e.carrierTick (e.carrierR 0)) = true ∧
    e.pkl.migFault = false ∧ x.pkl.migFault = true ∧ f.get PKL_MIG_STATUS_STATE = 3 ∧ f.panelItems f.pkl.migSrc = [] ∧
    ({ dev [(PKL_PANEL_RUN_RUN, 1)] with pkl := { loader0 with cmd := .stop 0 } } : Device).stopDue 0 = true := by
  refine ⟨roomy_room, ?_⟩
  and_intros <;> decide

/-! ### Lacework -/

/-- A LEN = 0 read request of a cluster node to a register of Hayward. -/
def readPacket : Packet where
  dest := BitVec.ofNat 10 (aonNode 0)
  src := 0x081
  cmd := 1
  len := 0
  tag := 5
  cls := 0
  epoch := false
  tick := 0
  addr := 0x4800000000
  posted := false
  barrier := false
  wake := false
  prov := false
  verify := false
  resp := 0
  xrow := 0
  la := 0
  firstBE := 0
  lastBE := 0
  inl := 0
  data := []

/-- A packet whose header stands at an input of a router. -/
def flying (p : Packet) (inp : Nat) : Flight := ⟨aimed p (inp / 13), [⟨inp, 1, 0⟩], 0, false, false, none, none⟩

/-- The device with that packet alone under way, and its request awaited. -/
def inMesh (p : Packet) (inp : Nat) : Device :=
  { device0 with lwk := { lacework0 with outst := [⟨readPacket, 0, false⟩], flights := [flying p inp] } }

/-- The response to the request. -/
def okPacket : Packet := { readPacket with cmd := 4, cls := 4, dest := 0x081, src := BitVec.ofNat 10 (aonNode 0) }

theorem witness_PacketCommands :
    let start := localInput 0x081
    let last := localInput (aonNode 0)
    let d := inMesh readPacket start
    let e := inMesh readPacket last
    let r := inMesh okPacket start
    let taken : Device := { device0 with
      lwk := { lacework0 with outst := [⟨readPacket, 0, false⟩], flights := [{ flying okPacket start with taken := true, trail := [] }] } }
    let barrier := { readPacket with barrier := true }
    let h := { device0 with lwk := { lacework0 with held := [(barrier, .barrier)] } }
    let f := { device0 with lwk := { lacework0 with held := [(readPacket, .fenced 0)] } }
    let full := { inMesh readPacket start with
      lwk := { (inMesh readPacket start).lwk with flights := [flying okPacket start, flying readPacket last, { flying readPacket last with trail := [⟨last, 1, 1⟩] }] } }
    (device0.barred readPacket.src = false ∧ readPacket.barrier = false ∧ device0.injectBad readPacket = false ∧ device0.lwk.ready = [] ∧
      canEnter [] (localInput readPacket.src.toNat) 0 = true ∧ d.waitsOn readPacket.src = true ∧ d.barred readPacket.src = false ∧
      d.mayGo (flying readPacket start) 0 = true ∧ 8 ≤ (flying readPacket start).pkt.la.toNat ∧
      (flying readPacket start).pkt.la.toNat ≠ 12 ∧ e.mayGo (flying readPacket last) 0 = true ∧
      (flying readPacket last).pkt.la.toNat < 8 ∧ isResp readPacket.cmd.toNat = false ∧ e.behindHeld 0 (flying readPacket last) = false ∧
      r.mayGo (flying okPacket start) 0 = true ∧ (flying okPacket start).pkt.la.toNat < 8 ∧ isResp okPacket.cmd.toNat = true ∧
      full.mayGo { flying readPacket last with trail := [⟨last, 1, 1⟩] } 0 = false ∧
      okPacket.cmd ≠ 5 ∧ okPacket.resp ≠ 3 ∧ (taken.dropFlight 0).lwk.outst.find? (fun o => o.pkt.src == okPacket.dest && o.pkt.tag == okPacket.tag) =
        some ⟨readPacket, 0, false⟩ ∧ readPacket.posted = false ∧ h.lwk.held = [(barrier, .barrier)] ∧ h.waitsOn readPacket.src = false ∧
      f.lwk.held.find? (fun o => o.1.src == readPacket.src && (match o.2 with
        | .fenced _ => true
        | _ => false)) = some (readPacket, .fenced 0)) ∧
    ∃ m, device0.resolve 0 readPacket.addr.toNat = .node m :=
  ⟨by and_intros <;> decide, _, rfl⟩
/-- A crossing to the other die: a header at column 5 of its row leaves by output 12. -/
theorem witness_Crossing :
    let p := { readPacket with dest := 0x281 }
    let inp := 13 * 5 + 11
    (inMesh p inp).mayGo (flying p inp) 0 = true ∧ (flying p inp).pkt.la = 12 := by
  and_intros <;> decide
set_option maxRecDepth 8000 in
theorem witness_EpochsAndLimits :
    let d := { device0 with
      lwk := { lacework0 with
        flipWanted := true, outst := [⟨readPacket, 0, false⟩], held := [(readPacket, .wake 63)], statEdges := 65535
        xlinkUe := [(15, 65535)] } }
    let old := { inMesh { readPacket with epoch := true } 5 with
      lwk := { (inMesh { readPacket with epoch := true } 5).lwk with flipWanted := true } }
    let none := fun (d : Device) (e : Bool) => ∀ i < 96, d.routerCount e i = 0
    d.lwk.flipWanted = true ∧ d.lwk.flipAt ≠ d.time.edges + 1 ∧ none d true ∧ d.pkl.routes = Option.none ∧
    d.flt.rotTo = Option.none ∧ d.lwk.held = [(readPacket, .wake 63)] ∧ old.lwk.flipWanted = true ∧ ¬ none old true ∧
    ({ lacework0 with drained := false } : Lacework).drained = false ∧ none device0 true ∧
    d.lwk.outst.find? (fun o => o.pkt.src == 0x081 && o.pkt.tag == 5 && !o.pkt.posted) = some ⟨readPacket, 0, false⟩ ∧
    d.lwk.held.find? (fun o => o.2.domain == some 63) = some (readPacket, .wake 63) ∧ (HoldWhy.wake 63).channel = Option.none ∧
    bit (d.get LWK_XLINK_FAILED) 15 = false ∧ max 1 (d.get LWK_XLINK_UE_LIMIT_LIMIT) ≤ tabGet (fun _ => 0) d.lwk.xlinkUe 15 ∧
    max 1 (d.get LWK_STAT_CTRL_WIN) ≤ d.lwk.statEdges ∧ d.get LWK_TRC_CTRL_ARM = 0 ∧ (1 : Word).getLsbD 0 = true := by
  and_intros <;> decide

/-! ### Heath -/

/-- The last tile, in a state. -/
def tiled (x : Tile) : Device := { device0 with tiles := [(40959, x)] }
theorem witness_TileHeaders :
    let o := tiled { tile0 with st := .opened, writer := 5 }
    let x := tiled { tile0 with st := .sealed, gen := 15 }
    let r := { dev [(HTH_BANK_STATE_STATE 78, 1)] with heath := { device0.heath with due := [79], winOpen := 1, winLen := 1 } }
    let w := { r with time := { r.time with edges := 2 } }
    device0.portAnswer (bankNode (40959 / 512)) = none ∧ device0.get (HTH_BANK_STATE_STATE 79) ≠ 2 ∧ (device0.tile 40959).st = .free ∧
    bits (0x70000000 : BitVec 64).toNat 31 28 = 7 ∧ (o.tile 40959).st = .opened ∧ (o.tile 40959).writer = (5 : BitVec 10).toNat ∧
    (x.tile 40959).st = .sealed ∧ (x.tile 40959).gen = (15 : BitVec 4).toNat ∧ isFecNode (fecNode 3 0) = true ∧ 79 ∈ r.heath.due ∧
    r.get (HTH_BANK_STATE_STATE 79) ≠ 2 ∧ r.get (HTH_BANK_STATE_STATE 79) = 0 ∧ r.get (HTH_BANK_STATE_STATE 78) = 1 ∧
    w.heath.winLen ≠ 0 ∧ w.heath.winOpen + w.heath.winLen ≤ w.time.edges := by
  and_intros <;> decide
theorem witness_TileAccesses :
    let o := tiled { tile0 with st := .opened, writer := 5 }
    let x := tiled { tile0 with st := .sealed }
    o.portAnswer (bankNode (167772096 / 4096 / 512)) = none ∧ 167772096 + 64 ≤ 167772160 ∧ 167772096 / 4096 = 40959 ∧
    (167772096 + 64 - 1) / 4096 = 40959 ∧ o.get (HTH_BANK_STATE_STATE (40959 / 512)) ≠ 2 ∧
    (o.tile 40959).st = .opened ∧ (o.tile 40959).writer = (5 : BitVec 10).toNat ∧ (x.tile 40959).st = .sealed ∧
    (x.tile 40959).ais = false ∧ (x.tile 40959).prov = false ∧ tilesOf 167772152 8 = [40959] := by
  and_intros <;> decide

/-! ### Lanes and framing -/

set_option maxRecDepth 8000 in
theorem witness_LanesAndQuads :
    let up := dev [(RLN_LANE_STATUS_STATE 63, 2)]
    let f := dev [(RLN_LANE_STATUS_STATE 79, 4), (RLN_CTRL_RECOVER_S, 1)]
    let t := { dev [(RLN_LANE_STATUS_STATE 0, 1)] with lanes := [(0, { lane0 with clean := 8 })] }
    let r := { dev [(RLN_LANE_STATUS_STATE 0, 3)] with lanes := [(0, { lane0 with clean := 9, recovering := true })] }
    let hears := [(RLN_LANE_STATUS_STATE 71, 1), (RLN_STATUS_PLL_LOCK, 0xFFFFF), (RLN_QUAD_CFG_MODE 17, 1)]
    let h := { dev hears with lanes := [(71, { lane0 with hunt := 63 })] }
    let l := dev ((RLN_LANE_STATUS_BLOCK_LOCK 71, 1) :: hears)
    let e := dev [(RLN_LANE_STATUS_STATE 63, 2), (RLN_STATUS_PLL_LOCK, 0xFFFFF), (RLN_QUAD_CFG_MODE 15, 3),
      (RLN_LANE_STATUS_BLOCK_LOCK 63, 1), (ELP_DOM_STATE_STATE 63, pRun)]
    up.get (RLN_LANE_STATUS_BLOCK_LOCK 63) = 0 ∧ up.get (RLN_LANE_STATUS_STATE 63) = 2 ∧ up.get (RLN_LANE_STATUS_LOS 63) = 0 ∧
    f.get (RLN_LANE_STATUS_STATE 79) = 4 ∧ f.get RLN_CTRL_RECOVER_S ≠ 0 ∧ t.get (RLN_LANE_STATUS_STATE 0) = 1 ∧
    8 ≤ (t.lane 0).clean ∧ (t.lane 0).recovering = false ∧ r.get (RLN_LANE_STATUS_STATE 0) = 3 ∧ (r.lane 0).recovering = true ∧
    h.laneHears 71 = true ∧ h.get (RLN_LANE_TEST_CHECK 71) = 0 ∧ h.get (RLN_LANE_STATUS_BLOCK_LOCK 71) = 0 ∧ (h.lane 71).hunt = 63 ∧
    (polar (h.rxInv 71) (1, 0)).1 = 1 ∧ (polar true (1, 0)).1 = 2 ∧ ¬ ((polar true (3, 0)).1 = 1 ∨ (polar true (3, 0)).1 = 2) ∧
    l.laneHears 71 = true ∧ l.get (RLN_LANE_STATUS_BLOCK_LOCK 71) = 1 ∧ l.filet 71 = true ∧ (l.lane 71).fifo.length < 32 ∧
    (((false :: (l.lane 71).hist).take 64).filter id).length < 16 ∧ e.laneHears 63 = true ∧ e.laneMode 63 = 3 ∧
    device0.laneBusy 79 = false ∧ device0.linkOn 79 = false ∧ (∀ i < 4, device0.linkOn (4 * (16 + 3) + i) = false) := by
  and_intros <;> decide
/-- Lane 63 in a mode, UP in a domain that runs, its block lock held, with one container of carrier 0. -/
def laneIn (mode : Nat) (w0 : Byte) : Device :=
  { dev [(RLN_LANE_STATUS_STATE 63, 2), (RLN_QUAD_CFG_MODE 15, mode), (RLN_STATUS_PLL_LOCK, 0xFFFFF), (ELP_DOM_STATE_STATE 63, pRun),
      (RLN_LANE_STATUS_BLOCK_LOCK 63, 1)] with
    lanes := [(63, { lane0 with sync := true, mf := true })]
    pkl := { loader0 with active := [⟨0x51, 63, 1 :: List.replicate 15 0 ++ ([w0, 4, 0, 0, 56] ++ List.replicate 11 0)⟩] } }
/-- A U-plane message of one section in the uncompressed format. -/
def uplaneMsg : EcpriMsg :=
  ⟨true, 0, 0, none, false, true, 1, false, 0, 0, 0, 0, 13, [⟨0, [], 0, 0, 0, [List.replicate 48 0]⟩], 0, 0, 0, 130000⟩
set_option maxRecDepth 8000 in
theorem witness_FramesAndContainers :
    let d := laneIn 1 0
    let u := laneIn 3 0
    let w := laneIn 3 0x20
    let x := laneIn 1 0x20
    let e := fun (w0 : Byte) => [w0, 4, 0, 0, 56] ++ List.replicate 11 (0 : Byte)
    let hdr := 1 :: List.replicate 15 (0 : Byte)
    let t : DlTile := ⟨0, 0, 1, [], false, false⟩
    let c := { device0 with ctrs := [(2047, { ctr0 with dl := [t], queue := [none] })] }
    (d.filet 63 = true ∧ d.delivers 63 = true ∧ d.laneRuns 63 = true ∧ d.laneGroup 63 = none ∧ d.get (RLN_LANE_TEST_GEN 63) = 0 ∧
      d.laneLocked 63 = true ∧ (d.lane 63).sync = true ∧ (d.lane 63).pos % d.frameB 63 = (d.lane 63).base % d.frameB 63 ∧
      device0.grpData 15 = [] ∧
      u.laneMode 63 = 3 ∧ u.laneRuns 63 = true ∧ u.ethUp 63 = true ∧ u.laneHears 63 = true ∧
      ((u.section? 0x51 63).map (·.payload.take 16)) = some hdr ∧ uplaneMsg.ok = true ∧ (u.lane 63).spoilt = false ∧
      uplaneMsg.dst.toNat = hDevMac hdr ∧ ecpriUnsupp uplaneMsg = false ∧ ecpriUnsupp { uplaneMsg with concat := true } = true ∧
      ecpriUnsupp { uplaneMsg with ty := 5 } = false ∧ hVlan hdr = false ∧
      (u.ctrEntries 63).find? (fun o => cPtr0 o == uplaneMsg.eaxc.toNat && !cDown o) = some (e 0) ∧
      u.inTa4 (cCarrier (e 0)) uplaneMsg.slot.toNat uplaneMsg.sym.val (u.time.tod + uplaneMsg.into) = true ∧
      (∀ o ∈ uplaneMsg.sects, sectComp o = compHdr (cFmt (e 0))) ∧ u.ctrEntries 63 = [e 0] ∧ cDown (e 0) = false ∧
      u.ctrStopped (e 0) = false ∧ u.symPrbs (e 0) = 1 ∧ (u.prbOf 63 (e 0) [] 0).2 = true ∧
      (w.ctrEntries 63).find? (fun o => cCid o == 0 && cDown o) = some (e 0x20) ∧
      (w.ethHdr hdr).isSome = true ∧ 0 < w.symPrbs (e 0x20) ∧ w.symPrbs (e 0x20) ≤ msgPrbs (e 0x20) ∧
      ((w.time.tod + 45390 : Nat) : Int) + 1000 * w.get FIL_ETH_TX_UP_ADV_US = w.airStart 0 1 0 ∧
      ((w.time.tod + 120260 : Nat) : Int) + 1000 * w.get FIL_ETH_TX_UP_ADV_US + 1000 * w.get FIL_ETH_TX_CP_ADV_US = w.airStart 0 2 0 ∧
      (w.symTiles (e 0x20) 0).length = 1 ∧ (w.ctr (32 * 63)).dl = [] ∧
      (x.ctrEntries 63).find? (fun o => cCid o == 0 && cDown o) = some (e 0x20) ∧ x.laneMode 63 ≠ 3 ∧
      (device0.ctr 2047).queue.length < 64 ∧ 1 ≤ (c.ctr 2047).queue.length ∧ (c.ctr 2047).late = 0 ∧
      (c.ctr 2047).dl.head? = some t ∧ t.arrived = false) := by
  and_intros <;> decide

/-! ### Engines -/

/-- A queued command. -/
def queued (bs : List Byte) : QCmd := ⟨0, bs, [], false, false, 0, 0⟩

/-- An engine's queue with one command of 16 words, which lies at the start of cluster 0's shared memory. -/
def engine (target e : Nat) (ws : List Nat) : Device :=
  { device0 with
    mem := memSets [] 0x5400000000 (ws.flatMap (leBytes 4)), items := [(0, { item0 with arg := 0x5400000000 })]
    engines := [(engKey target e, ⟨[queued (ws.flatMap (leBytes 4))], []⟩)] }

/-- The word pairs of four addresses, all the start of that memory. -/
def ptrs : List Nat := [0, 0x54, 0, 0x54, 0, 0x54, 0, 0x54]

set_option maxRecDepth 8000 in
theorem witness_FourierCommands :
    let ws := [1, 0x10000, 0, 0, 0, 0, 0, 0] ++ ptrs
    let bs := ws.flatMap (leBytes 4)
    let inv := [3, 0x10000, 0, 0, 0, 0, 0, 0, 0, 0x54, 0, 0x54, 0, 0x54, 0, 0]
    let ibs := inv.flatMap (leBytes 4)
    let d := engine 1 31 ws
    let u := (d.asksCommand (feNode 31) 0).reads (feNode 31) [(addrOf bs 8, 4), (addrOf bs 10, 2 * (d.feLens (wordAt bs)).1),
      (addrOf bs 12, 2 * (d.feLens (wordAt bs)).2.1), (addrOf bs 14, 2 * (d.feLens (wordAt bs)).2.2)]
    let f := engine 1 31 inv
    d.front 1 31 = some (queued bs) ∧ (queued bs).started = false ∧ d.command 0 = some bs ∧ bits (wordAt bs 0) 3 0 = 1 ∧
    feCheck (wordAt bs) = 0 ∧ (u.feJob bs (d.feLens (wordAt bs))).isSome = true ∧ u.freqCarrier 0 = false ∧ feUnits (wordAt bs) ≤ 1 ∧
    feCheck (wordAt (([1, 0, 0, 0, 0, 0, 0, 0] ++ ptrs).flatMap (leBytes 4))) = 3 ∧ ifftCheck (wordAt ibs) = 0 ∧
    f.command 0 = some ibs ∧ (f.fetch (addrOf ibs 8) 4).isSome = true ∧ (f.tileList (addrOf ibs 10) 0).isSome = true := by
  and_intros <;> decide

/-- An entry of carrier 0 on lane 63 with a measured symbol, its AGC entry in a state. -/
def gained (fs : List (Fld × Nat)) (m : SymEnd) (a : Agc) : Device :=
  { laneIn 1 0 with
    regs := (dev ((FFE_AGC_STATE_VALID 3 480, 1) :: fs)).regs, ctrs := [(32 * 63, { ctr0 with ends := [m] })], agc := [(512 * 3 + 480, a)] }

set_option maxRecDepth 8000 in
theorem witness_GainControl :
    let m : SymEnd := ⟨0, 4, 5, 6, false⟩
    let d := gained [] m agc0
    let r := gained [] m { agc0 with rel := true }
    let h := gained [] m { agc0 with prach := some (3, 5), held := true }
    let x := { d with sched := [(0, (1, 0))] }
    ((d.ctrEntries 63).find? (fun o => cCid o == 0 && !cDown o)).isSome = true ∧ (d.ctr (32 * 63)).ends = [m] ∧
    d.get (FFE_AGC_STATE_VALID 3 480) = 1 ∧ (symSlot (d.carrierR 0) (d.halfAbs m.half) m.sym).2 < 13 ∧ m.ais = false ∧
    bit (d.schedMask 0 0) 5 = true ∧ bit (x.schedMask 0 0) 5 = false ∧
    (tabGet (fun _ => agc0) r.agc (512 * 3 + 480)).rel = true ∧ (tabGet (fun _ => agc0) h.agc (512 * 3 + 480)).held = true := by
  and_intros <;> decide
theorem witness_PreambleCommands :
    let ws := [0x10400, 0, 0, 0, 0x010000, 0, 0, 0] ++ [0, 0x54, 0, 0x54, 0, 0x54, 0, 0]
    let bs := ws.flatMap (leBytes 4)
    let d := engine 3 3 ws
    let o := occ0 0 bs
    let e := { d with occs := [(3, [o])] }
    (d.engine (engKey 3 3)).queue.find? (fun r => !r.expired && !r.started) = some (queued bs) ∧
    d.command 0 = some bs ∧ preBad (wordAt bs) = false ∧ (d.fetch (addrOf bs 8) 4).isSome = true ∧
    (d.tileList (addrOf bs 10) 1).isSome = true ∧ (d.tileList (addrOf bs 12) 1).isSome = true ∧ (tabGet (fun _ => []) d.occs 3).length < 2 ∧
    (tabGet (fun _ => []) e.occs 3).find? (fun o => o.reps < bits (wordAt o.cmd 0) 13 10) = some o ∧
    (e.tileList (addrOf bs 10) 1).isSome = true ∧ ({ e with mem := [] }.tileList 0 1) = none ∧
    bits (wordAt bs 4) 19 16 = 1 ∧ decide (o.trigAt < 1) = true ∧ 1 % 1 = 0 ∧ bits (wordAt bs 0) 13 10 ≤ 1 := by
  and_intros <;> decide
theorem witness_MatrixCommands :
    let ws := [0x8000B, 0, 0x20000, 0, 0, 0x54, 0, 0x54, 0, 0x54, 0, 0x54, 0, 0, 0, 0]
    let bs := ws.flatMap (leBytes 4)
    let w := wordAt bs
    let d := engine 2 3 ws
    d.front 2 3 = some (queued bs) ∧ d.command 0 = some bs ∧ bits (w 0) 3 0 = 11 ∧ bits (w 0) 12 10 ≤ 4 ∧ dNant w = 1 ∧ dFmt w ≤ 4 ∧
    dPrbs w = 1 ∧ dPrb0 w + dPrbs w ≤ d.prbLimit (bits (w 0) 9 4) ∧ dLayers w ≤ 32 ∧ bits (w 3) 31 3 = 0 ∧
    (d.fetch (addrOf bs 4) 4).isSome = true ∧ (d.tileList (addrOf bs (dlOutLen w).1) (dlOutLen w).2).isSome = true ∧
    (d.tileList (addrOf bs 6) (dlInLen w).1).isSome = true ∧ (d.tileList (addrOf bs 8) (dlInLen w).2).isSome = true := by
  and_intros <;> decide

/-- The words of a decode command of a polar code word, and of a polar encode command. -/
def decWords : List Nat := [0x04000002, 0, 12, 32, 0, 0, 0, 0] ++ ptrs
def encWords : List Nat := [9, 0, 12, 32, 0, 0, 0, 0, 0, 0x54, 0, 0, 0, 0, 0, 0]
/-- Group 3 with one open command, and its doorbell store, check unit and record queue. -/
def group (x : FecGroup → FecGroup) : Device := { engine 4 3 decWords with fec := [(3, x (device0.grp 3))] }
def openCmd (b : CodeBlock) : FecCmd := { fecCmd0 0 (decWords.flatMap (leBytes 4)) with cbs := [b], sbRead := true }

set_option maxRecDepth 8000 in
theorem witness_CodingAndDecoders :
    let bs := decWords.flatMap (leBytes 4)
    let eb := encWords.flatMap (leBytes 4)
    let f := { engine 5 3 encWords with
      regs := (dev [(DRC_CH_STATUS_STATE 0, chUp), (DRC_MAP_CHAN_EN, 1), (DRC_CAP_USABLE, 1)]).regs
      pkl := { loader0 with active := [⟨0x10, 0, List.replicate 8 0 ++ List.replicate 60 0xFF⟩] } }
    let d := engine 4 3 decWords
    let waits := openCmd codeBlock0
    let job := openCmd { codeBlock0 with st := .queued 0 }
    let runs := openCmd { codeBlock0 with st := .decoding 19 }
    let j := { group (fun g => { g with cmds := [job] }) with pkl := f.pkl }
    let r := group (fun g => { g with cmds := [runs] })
    let k := group (fun g => { g with cmds := [waits], checkQ := [(0, 0)], held := [List.replicate 32 0] })
    let loop := fun (m : Nat) => { device0 with loops := [⟨m, 0, 0, 0, true, [], [], 0, [], false⟩] }
    ((d.engine (engKey 4 3)).queue.find? (fun r => !r.expired && !r.started) = some (queued bs) ∧
      d.command 0 = some bs ∧ fecCheck (wordAt bs) = 0 ∧ fOp (wordAt bs) = 2 ∧ (d.grp 3).store = [] ∧
      (d.tileList (addrOf bs 8) (fTiles (wordAt bs))).isSome = true ∧ (d.tileList (addrOf bs 14) 1).isSome = true ∧
      f.front 5 3 = some (queued eb) ∧ f.command 0 = some eb ∧ encCheck (wordAt eb) = 0 ∧ fOp (wordAt eb) = 9 ∧
      engGroup 19 = 3 ∧ opEngine 9 19 = true ∧ f.fecMember (f.item 0).panel 19 = true ∧ f.fecFenced 19 = false ∧
      (f.tileList (addrOf eb 8) (ceilDiv (bits (wordAt eb 3) 23 0) 32768)).isSome = true ∧ (f.encInput 3 eb []).2.1.isSome = true ∧
      (k.grp 3).cmds.find? (fun c => c.takes (putBits 0x80000 55 54 0)) = some waits ∧ (device0.grp 3).cmds = [] ∧
      (device0.grp 3).store.length < 256 ∧ bits (0 : BitVec 64).toNat 18 11 = 0 ∧ bits (0x800 : BitVec 64).toNat 18 11 ≠ 0 ∧
      ((loop 3).loops.map (fun x => x.takes 3 0)) = [true] ∧ (∀ x ∈ (loop 2).loops, x.takes 3 0x800 = false) ∧
      j.fecBusy 19 = false ∧ j.fecFenced 19 = false ∧ j.pickJob 19 = some (job, 0) ∧ job.sbRead = true ∧
      j.region job 0 = (none, false) ∧
      (r.grp (engGroup 19)).cmds.find? (fun c => c.cbs.any (fun b => b.st == .decoding 19)) = some runs ∧
      runs.cbs.findIdx (fun b => b.st == .decoding 19) = 0 ∧ codeBlock0.satisfied = false ∧
      (k.grp 3).checkQ = [(0, 0)] ∧ k.fecCmd? 3 0 = some waits ∧ codeBlock0.seq = none ∧
      decOk waits.w [] = true ∧ decOk waits.w [true] = false ∧
      (k.grp 3).held = [List.replicate 32 0] ∧ (k.cmplPut 3 (List.replicate 32 0)).isSome = true) ∧
    (∃ u bs eras, j.llrRead 3 job 0 = (u, bs, eras) ∧ eras ≠ llrTiles (fE job.w 0) ∧
      ∃ v n sat, u.iterate job 0 (u.softOf job 0 bs none) = (v, n, sat, false)) :=
  ⟨by and_intros <;> decide, _, _, _, rfl, by decide, _, _, _, rfl⟩
set_option maxRecDepth 8000 in
theorem witness_BeamPortCommands :
    let d := dev [(TBC_CTRL_EN 1, 1)]
    let port := fun (fs : List (Fld × Nat)) (due : Option Bool) => { dev ([(TBC_CTRL_EN 1, 1), (TBC_STATUS_PENDING 1, 1)] ++ fs) with
      tbcp := [(1, { tbcp0 with swap := some (65535, 13), due := due, live := true })] }
    let e := port [(TBC_STATUS_WIN_OPEN 1, 1), (TBC_STATUS_CLK_OK 1, 1)] none
    let c := port [] none
    let q := port [] (some true)
    device0.get (TBC_CTRL_EN 1) = 0 ∧ d.get (TBC_STATUS_SEL 1) ≠ 1 ∧ d.get (TBC_STATUS_PENDING 1) = 0 ∧
    ¬ (d.get (TBC_CTRL_EN 1) = 0 ∨ (d.get (TBC_STATUS_SEL 1) ≠ 0 ∧ d.get (TBC_STATUS_PENDING 1) = 0)) ∧
    bits (0xDFFFF : Word).toNat 19 16 = 13 ∧ (30720 * (0 : Int) ≤ d.winOpens 1 80 0) ∧ d.winOpens 1 65535 0 < 30720 * (0 : Int) ∧
    e.get (TBC_STATUS_PENDING 1) = 1 ∧ e.get (TBC_STATUS_WIN_OPEN 1) = 1 ∧ e.get (TBC_STATUS_CLK_OK 1) = 1 ∧
    (e.port 1).swap = some (65535, 13) ∧ (e.port 1).due = none ∧ c.get (TBC_STATUS_WIN_OPEN 1) = 0 ∧
    c.get (TBC_STATUS_CLK_OK 1) = 0 ∧ (q.port 1).due = some true ∧ (q.port 1).swap = some (65535, 13) ∧
    (q.port 1).live = true ∧ (d.port 1).live = false := by
  and_intros <;> decide

/-! ### Dispatcher, core events, DMA -/

/-- A descriptor in cluster 0: class 0, released at tick 5, no due edge checked before tick 9, core 0 of logical cluster 0. -/
def descriptor : List Nat := [0, 0, 5, 9, 0, 0, 0, 0x100001, 0, 0, 0, 0, 0, 0, 0, 0]

/-- Panel 0 runs, with logical cluster 0 as its own. -/
def panel : Device :=
  { dev [(PKL_PANEL_DEF_DEF, 1), (PKL_PANEL_RUN_RUN, 1)] with
    mem := memSets [] 0x5400000000 (descriptor.flatMap (leBytes 4))
    pkl := { loader0 with active := [⟨0x10, 0, 1 :: List.replicate 63 0⟩] } }

theorem witness_ItemSubmission :
    panel.refusal .hostA 0 0x5000000000 true true false = none ∧ (panel.freeEntry 0 40959 40960).isSome = true ∧
    (panel.fetch 0x5000000000 64).isSome = true ∧ panel.panelItems 0 = [] ∧ panel.storeUsed (panel.panelDie 0) < 40960 ∧
    panel.refusal .hostA 0 0x5000000000 true true true = some 1 ∧ device0.refusal .hostB 19 0 true true false = some 2 := by
  have h : panel.freeEntry 0 40959 (40959 + 1) = some 40959 := if_pos (by decide)
  exact ⟨by decide, Option.isSome_iff_exists.2 ⟨_, h⟩, by decide⟩
/-- A device that holds one item, at the last key of die 0. -/
def holds (i : Item) : Device := { device0 with items := [(40959, i)] }
theorem witness_ItemsAndCores_progress :
    let w := holds { item0 with st := .waiting, gen := 15, release := 0 }
    let v := holds { item0 with st := .waiting, gen := 15, deps := 1, released := true }
    let r := holds { item0 with st := .ready, dur := 1, due := 0 }
    let e := { holds { item0 with st := .queued } with engines := [(engKey 5 31, ⟨[], [⟨40959, 0, 0⟩]⟩)] }
    let c := { holds { item0 with st := .running } with
      cores := [(8 * 19 + 7, { core0 with item := some 40959 })], regs := (dev [(CX_STATUS_PRIV 19 7, 2)]).regs }
    let z := { c with cores := [(8 * 19 + 7, { core0 with
      item := some 40959, stores := [⟨true, 0, 0, 8, [], false, false, false, 0, 0, some 40959, 0, 0, none⟩] })] }
    let key := 40959 + 15 * 2 ^ 17
    key % 2 ^ 17 = 40959 ∧ bits key 20 17 = (w.item 40959).gen ∧ (w.item 40959).released = false ∧
    w.releasePast (w.item 40959) = true ∧ (w.item 40959).deps = 0 ∧ (v.item 40959).deps = 1 ∧ (v.item 40959).st = .waiting ∧
    (v.item 40959).released = true ∧ (holds item0).item 40959 = item0 ∧ w.ordered 40959 = false ∧
    r.duePast (r.item 40959) = true ∧ (r.item 40959).overrun = false ∧ r.items = [(40959, r.item 40959)] ∧
    (r.item 40959).nodue = false ∧ (r.item 40959).level ≠ 15 ∧ 4 * (r.toDue (r.item 40959) - 0) < 5 * ((r.item 40959).dur : Int) ∧
    (∀ p < 20, device0.panelRuns p = false) ∧ (e.engine (engKey 5 31)).fin = [⟨40959, 0, 0⟩] ∧ (e.item 40959).st = .queued ∧
    c.get (CX_STATUS_PRIV 19 7) = 2 ∧ (c.core 19 7).item = some 40959 ∧ c.storesOut 19 7 = false ∧
    z.get (CX_STATUS_PRIV 19 7) = 2 ∧ z.storesOut 19 7 = true ∧ device0.dsp.mid = false ∧ (w.item 40959).st = .waiting ∧
    ({ device0 with engines := [(engKey 5 31, ⟨[], [⟨40959, 0, 0⟩]⟩)] } : Device).item 40959 = item0 ∧ item0.st ≠ .queued := by
  and_intros <;> decide
/-- The last core, in a state. -/
def lastCore (fs : List (Fld × Nat)) (x : Core) : Device :=
  { dev ((ELP_DOM_STATE_STATE 19, pRun) :: fs) with cores := [(8 * 19 + 7, x)] }
set_option maxRecDepth 8000 in
theorem witness_ItemsAndCores_events :
    let d := lastCore [(CX_STATUS_IE 19 7, 1), (CX_INT_PEND_SOFT 19 7, 1), (CX_INT_EN_EN 19 7, 31)] { core0 with pc := 0x17FE0 }
    let x := d.core 19 7
    let p := lastCore [(CX_STATUS_IE 19 7, 1)] { core0 with item := some 1, order := some 2 }
    let q : FarReq := ⟨true, 0, 0, 8, List.replicate 8 0, false, false, false, 0, 0, none, 0, 0, some 0⟩
    let f := lastCore [] { core0 with stores := List.replicate 16 q, load := some { q with store := false } }
    let o := lastCore [] { core0 with cpRun := some ⟨0, 0, true, true, false⟩ }
    x.halted = false ∧ x.dead = false ∧ d.domSt 19 = pRun ∧ d.coreFenced 19 7 = false ∧ x.between = true ∧ x.waiting = true ∧
    x.pc = 0x17FE0 ∧ bit (d.intPend 19 7) 4 = true ∧ bit (d.get (CX_INT_EN_EN 19 7)) 4 = true ∧
    ¬ (d.get (CX_STATUS_PRIV 19 7) = 2 ∧ d.get (CX_STATUS_IE 19 7) = 0) ∧
    (p.core 19 7).item = some 1 ∧ (p.core 19 7).order = some 2 ∧ (p.core 19 7).frames = [] ∧
    (f.core 19 7).stores[15]? = some q ∧ q.fresh = false ∧ (f.core 19 7).load = some { q with store := false } ∧
    (∀ j < 7, (o.core 19 j).cpRun = none) ∧ (o.core 19 7).cpRun = some ⟨0, 0, true, true, false⟩ ∧
    (0x10 : Word).getLsbD 4 = true := by
  and_intros <;> decide
/-- The last DMA channel, in a state. -/
def lastDma (fs : List (Fld × Nat)) (x : Dma) : Device := { dev fs with dmas := [(255, x)] }
/-- A descriptor of 16 words with IRQ set, whose due edge is tick 0. -/
def dmaWords : List Byte := ([0x320000, 0, 0, 0, 0, 0, 0, 0, 0, 0, 0, 0, 0, 0, 0, 0] : List Nat).flatMap (leBytes 4)
theorem witness_DmaChannels :
    let d := lastDma [(DMA_CH_CFG_REQ_EN 7 31, 1), (DMA_CH_CFG_REQSEL 7 31, 511), (DMA_CH_STATUS_PENDING 7 31, 255)] dma0
    let x := lastDma [(DMA_CH_CFG_TICK_EN 7 31, 1), (DMA_CH_CTRL_EN 7 31, 1), (DMA_CH_CFG_BASETICK 7 31, 1)]
      { dma0 with written := true, desc := some dmaWords }
    let b := lastDma [(DMA_CH_STATUS_STATE 7 31, dBarrier)] { dma0 with stalled := true }
    let k := { x with time := { time0 with edges := 1 } }
    let p := lastDma [(DMA_CH_CTRL_EN 7 31, 1)] { dma0 with left := 64, desc := some dmaWords }
    let g := lastDma [(DMA_CH_CFG_PRIO 7 31, 7)] { dma0 with left := 64, desc := some dmaWords, stalled := true }
    d.on (DMA_CH_CFG_REQ_EN 7 31) = true ∧ d.get (DMA_CH_CFG_REQSEL 7 31) = 511 ∧ 7 / 4 = 511 / 256 ∧
    (∀ q < 4, ∀ k < 32, d.on (DMA_CH_CFG_REQ_EN (4 + q) k) = true → 4 + q = 7 ∧ k = 31) ∧
    d.get (DMA_CH_STATUS_PENDING 7 31) = 255 ∧ (∀ q < 4, ∀ k < 32, device0.on (DMA_CH_CFG_REQ_EN q k) = false) ∧
    (x.on (DMA_CH_CFG_TICK_EN 7 31) = true ∧ x.on (DMA_CH_CTRL_EN 7 31) = true ∧ x.on (DMA_CH_CFG_BASETICK 7 31) = true) ∧
    x.get (DMA_CH_SH_COMMIT_COMMIT 7 31) = 0 ∧ (x.dma 7 31).written = true ∧ (x.dma 7 31).desc = some dmaWords ∧
    b.get (DMA_CH_STATUS_STATE 7 31) = dBarrier ∧ (b.dma 7 31).stalled = true ∧ x.dmaLate 7 31 = true ∧
    x.get (DMA_CH_STATUS_STATE 7 31) ≠ dFenced ∧ g.on (DMA_ENG_STATUS_FENCED 7) = false ∧
    (wordAt dmaWords 8).testBit 31 = false ∧ (wordAt dmaWords 0).testBit 17 = true ∧
    x.get (DMA_CH_CTRL_HALT_ON_ERR 7 31) = 0 ∧ (lastDma [(DMA_CH_CTRL_HALT_ON_ERR 0 0, 1)] dma0).get (DMA_CH_CTRL_HALT_ON_ERR 0 0) = 1 ∧
    (k.dma 7 31).edgeOver ≠ some k.time.edges ∧ (p.dmaAgain 7).dmaPick 7 = some 31 ∧ (device0.dmaAgain 7).dmaPick 7 = none ∧
    g.lwk.held = [] ∧ (8 : Word).getLsbD 3 = true ∧ (1 : Word).getLsbD 3 = false ∧ (1 : Word).getLsbD 0 = true := by
  and_intros <;> decide

/-! ### DRAM, voltage, power domains -/

set_option maxRecDepth 8000 in
theorem witness_DramService :
    let d := { dev [(DRC_CH_STATUS_STATE 5, chUp), (DRC_MAP_RETIRED, 0x1F), (DRC_MAP_CHAN_EN, 0x3F), (DRC_CAP_USABLE, 1),
        (DRC_SCRUB_EN, 1), (DRC_SCRUB_LIMIT_MIB 3, 1)] with
      dram := { device0.dram with queue := [(5, [readPacket])], due := [5] } }
    let t := { dev [(DRC_CH_STATUS_STATE 5, chRetraining), (DRC_MAP_REDIRECT, 5), (DRC_MAP_RESERVE_EN, 1), (DRC_MAP_CHAN_EN, 0x3F)] with
      dram := { device0.dram with slices := [(5, 400)] } }
    let r := dev [(DRC_MAP_RESERVE_EN, 1), (DRC_MAP_CHAN_EN, 0x3F), (DRC_MAP_REDIRECT, 7), (DRC_MAP_RETIRED, 0x20)]
    let s := dev [(DRC_CH_STATUS_STATE 0, chUp), (DRC_MAP_CHAN_EN, 1), (DRC_CAP_USABLE, 1), (DRC_SCRUB_EN, 1),
      (DRC_SCRUB_LIMIT_MIB 3, 1)]
    let p := { dev [(DRC_PPR_STATUS_STATE, 1), (DRC_CH_STATUS_STATE 5, chRetired)] with dram := { device0.dram with ppr := 5 } }
    let q := { dev [(DRC_PPR_STATUS_STATE, 2), (DRC_PPR_STATUS_BANK, 31)] with dram := { device0.dram with ppr := 5, used := [47] } }
    let g := { dev [(DRC_CH_STATUS_STATE 5, chUp), (DRC_CTRL_MARGIN_MIN, 9), (DRC_CL_SCRUB_EN, 0x80000)] with dram := { device0.dram with ppr := 5 } }
    let f := dev [(DRC_CT_W2_STATE 15, 2), (DRC_CLCT_W2_STATE 19 7, 2)]
    d.dramNext 5 = some readPacket ∧ d.chanRetired 5 = false ∧ d.get (DRC_CH_STATUS_STATE 5) = chUp ∧ 5 ∈ d.dram.due ∧
    t.get (DRC_CH_STATUS_STATE 5) = chRetraining ∧ tabGet (fun _ => 0) t.dram.slices 5 = 400 ∧ t.get DRC_MAP_REDIRECT = 5 ∧
    t.dram.redirect = 7 ∧ t.get DRC_PPR_STATUS_STATE ≠ 2 ∧ r.dramReserve = true ∧ s.scrubbed 64 = true ∧
    s.chanLive (s.dramMap 64).1 = true ∧ s.unreadable 64 64 = false ∧ cluOffset 0 = true ∧
    p.get DRC_PPR_STATUS_STATE = 1 ∧ p.dram.ppr = 5 ∧ p.get (DRC_CH_STATUS_STATE 5) = chRetired ∧
    q.get DRC_PPR_STATUS_STATE = 2 ∧ 8 * 5 + q.get DRC_PPR_STATUS_BANK / 4 ∈ q.dram.used ∧ q.get (DRC_CH_STATUS_STATE 5) ≠ chRetired ∧
    f.get (DRC_CT_W2_STATE 15) = 2 ∧ f.get (DRC_CLCT_W2_STATE 19 7) = 2 ∧ bits (0x4EF : Word).toNat 10 6 = 19 ∧
    (1 : Word).getLsbD 0 = true ∧ (0x20 : Word).getLsbD 5 = true ∧
    device0.dramNext 5 = none ∧ g.get (DRC_CH_STATUS_STATE 5) = chUp ∧ (8 : BitVec 8).toNat < g.get DRC_CTRL_MARGIN_MIN ∧
    bit (g.get DRC_CL_SCRUB_EN) 19 = true ∧ t.chanRetired 5 = false ∧ tabGet (fun _ => []) t.dram.queue 5 = [] ∧
    ((t.put DRC_MAP_REDIRECT 7).put DRC_MAP_RETIRED ((t.put DRC_MAP_REDIRECT 7).get DRC_MAP_RETIRED + 2 ^ 5)).dramReserve = true ∧
    (∀ i < 16, t.get (DRC_CT_W2_STATE i) = 0) ∧ device0.get DRC_PPR_STATUS_STATE = 0 ∧ device0.dramEnd ≤ 0 ∧
    64 < s.dramEnd ∧ s.chanRetired (s.dramMap 64).1 = false ∧
    47 ∈ q.dram.used ∧ 47 ∉ g.dram.used ∧ (∀ n < 16, q.get (DRC_CT_W2_STATE n) ≠ 2) ∧ q.dram.pprWas < 8 ∧
    f.get (DRC_CT_W2_STATE 14) ≠ 2 := by
  and_intros <;> decide
theorem witness_VoltageAndDomains :
    let d := dev [(ELP_CTRL_AVS_EN, 1), (ELP_AVS_VSET, 24), (ELP_PMB_STATUS_PRESENT 7, 1)]
    let e := { dev [(ELP_CTRL_AVS_EN, 1), (ELP_AVS_VSET, 1)] with power := { device0.power with surplus := 999, lowered := 9 } }
    let n := { d with power := { device0.power with nacks := [(7, 2)] } }
    let dz := dev [(ELP_DOM_STATE_STATE 19, pDoze), (ELP_DOM_STATE_POLICY 19, 2)]
    let off := dev [(ELP_DOM_STATE_STATE 19, pOff), (FLT_FALLOW_PHYS 3, 19)]
    let z := dev [(ELP_DOM_STATE_STATE 19, pRun), (ELP_DOM_STATE_POLICY 19, 2)]
    let w := { dev [(ELP_DOM_STATE_STATE 63, pRetain), (ELP_DOM_STATE_POLICY 63, 2)] with power := { device0.power with edge := [63] } }
    (List.replicate 16 (0 : BitVec 12)).length = 16 ∧ d.power.trip = false ∧ (List.replicate 64 (0 : BitVec 16)).length = 64 ∧
    d.get ELP_CTRL_AVS_EN = 1 ∧ 24 ≤ d.get ELP_AVS_VSET ∧ 1000 ≤ e.power.surplus + 1 ∧ 9 ≤ e.power.lowered ∧
    0 < e.get ELP_AVS_VSET ∧ d.get (ELP_PMB_STATUS_PRESENT 7) = 1 ∧ z.get (ELP_DOM_STATE_STATE 19) = pRun ∧
    z.get (ELP_DOM_STATE_POLICY 19) = 2 ∧ z.domIdle 19 = true ∧ w.get (ELP_DOM_STATE_STATE 63) = pRetain ∧
    w.domWake 63 = true ∧ dz.get (ELP_DOM_STATE_STATE 19) = pDoze ∧ dz.domIdle 19 = true ∧
    off.get (ELP_DOM_STATE_STATE 19) = pOff ∧ off.mayBring 19 = true ∧ (dev [(ELP_CTRL_AVS_EN, 0)]).get ELP_CTRL_AVS_EN = 0 ∧
    tabGet (fun _ => 0) n.power.nacks 7 + 1 = 3 ∧ device0.get ELP_AVS_VSET < 24 := by
  and_intros <;> decide

/-! ### Events, faults, sparing -/

/-- A record of kind 2, index 31. -/
def record (n : Nat) : FaultRec := { report 3 aLog 2 31 0 noReq 0 noEvent with seq := n }
theorem witness_EventFabric :
    let d := { dev [(pendFld 383, 1), (EVF_ROUTE_HOST_B 0, 1)] with
      hostB := ⟨true, true, []⟩, msixB := { msix0 with enable := true, pend := [(0, true)] } }
    d.get (pendFld 383) = 1 ∧ d.get (pendFld 0) = 0 ∧ d.get (EVF_ROUTE_HOST_B 0) = 1 ∧ bits (383 : Word).toNat 8 0 = 383 ∧
    384 ≤ bits (384 : Word).toNat 8 0 ∧ tabGet (fun _ => false) (d.msix 1).pend 0 = true ∧ (d.msix 1).fmask = false ∧
    (d.msix 1).enable = true ∧ (d.host 1).linkUp = true ∧
    ¬ tabGet (fun _ => false) device0.msixA.pend 0 = true := by
  and_intros <;> decide
theorem witness_FaultRecords :
    let d := { device0 with flt := { faultMgr0 with queue := [record 65535], fencedEng := [(256 * 6 + 7, true)] } }
    let e := { device0 with flt := { faultMgr0 with unfence := [256 * 6 + 7] } }
    unitOk 2 31 = true ∧ (2 : Nat) ≠ 14 ∧ d.flt.queue.filter (fun q => q.kind == 2 && q.index == 30) = [] ∧ d.flt.queue.length < 64 ∧
    (65535 : BitVec 16).toNat ∈ d.flt.queue.map (·.seq) ∧ 0 ∉ d.flt.queue.map (·.seq) ∧ unitOk 6 7 = true ∧ d.engFenced 6 7 = true ∧
    256 * 6 + 7 ∉ d.flt.unfence ∧ 256 * 6 + 7 ∈ e.flt.unfence ∧ e.flt.queue = [] ∧
    tabGet (fun _ => false) e.flt.sparedEng (256 * 6 + 7) = false ∧ device0.engFenced 6 7 = false := by
  and_intros <;> decide
theorem witness_FullFaultQueue :
    ({ device0 with flt := { faultMgr0 with queue := List.replicate 64 (record 0) } } : Device).flt.queue.length = 64 := by decide
/-- Quadrant 3 with its four roles on clusters 15 to 18 and its fallow role on 19. -/
def quad : Device :=
  { dev ((List.range 20).map (fun l => (FLT_LCMAP_PHYS l, l)) ++ [(FLT_ROT_PERIOD_H, 1), (FLT_FALLOW_PHYS 3, 19)]) with
    ledger := { ledger0 with d := 256000 }, flt := { faultMgr0 with early := [18] } }
set_option maxRecDepth 8000 in
theorem witness_SparesAndReplica :
    let x : SwapPrep := ⟨19, 18, 18⟩
    let d := { dev [(FLT_FALLOW_STATE 3, 1)] with flt := { faultMgr0 with swap := [x], promoteDue := true } }
    let n := { inMesh { readPacket with epoch := true } 5 with flt := { faultMgr0 with swap := [x] } }
    let r := { quad with flt := { quad.flt with rotTo := some 18 }, time := { time0 with edges := 1 } }
    let v := { r with lwk := n.lwk }
    let asks := fun (q : Device) => q.askEnergy 4 ((q.lcPanel (q.lcField 18)).getD 0) (1000 * 2 ^ q.get ELP_CTRL_MIG_ECLASS)
    d.flt.swap.find? (fun y => y.old == 19) = some x ∧ d.canFlip = true ∧ n.canFlip = false ∧ quad.get (FLT_FALLOW_STATE 3) = 0 ∧
    quad.roleIdle 3 = true ∧ d.get (FLT_FALLOW_STATE 3) = 1 ∧ quad.rotTarget 3 = some 18 ∧ quad.physOf 19 = some 19 ∧
    quad.flt.rotTo = none ∧ quad.quadBusy 3 = false ∧ quad.flt.swap = [] ∧ quad.get FLT_ROT_PERIOD_H ≠ 0 ∧
    (asks quad).1 = true ∧ (asks { quad with ledger := ledger0 }).1 = false ∧ r.dueRotation = some (18, 19, 18, 19) ∧
    r.canJoin = true ∧ v.dueRotation = some (18, 19, 18, 19) ∧ v.canJoin = false ∧ device0.dueRotation = none ∧
    device0.flt.promoteDue = false ∧ 255 % 2 = 1 ∧ d.flt.promoted = false ∧ d.flt.replicaLost = false ∧
    d.flt.promoteDue = true := by
  and_intros <;> decide

/-! ### The twin -/

theorem witness_TwinLink :
    let d := { dev [(TWN_CTRL_EN, 1), (TWN_STATUS_ROLE, roleStandby)] with
      twin := { twin0 with rx := [(1, leBytes 8 (2 + 64 * 7) ++ List.replicate 64 0)], cellSilent := false, pinSilent := false
                           msgRx := [(1, [(List.replicate 64 0, true)])] } }
    let a := { dev [(TWN_STATUS_ROLE, roleActive), (TWN_STATUS_PEER_ROLE, roleActive), (TWN_CTRL_SIDE, 1)] with
      twin := { twin0 with sending := true, lines := [64], level := 2 } }
    let cell := leBytes 8 (2 + 64 * 7) ++ List.replicate 64 0
    d.get TWN_CTRL_EN = 1 ∧ d.get TWN_STATUS_ROLE = roleStandby ∧ d.power.trip = false ∧ d.twin.fatal = false ∧
    d.twin.cellSilent = false ∧ d.twin.pinSilent = false ∧ (dev [(TWN_STATUS_ROLE, roleTaking)]).get TWN_STATUS_ROLE = roleTaking ∧
    a.get TWN_STATUS_ROLE = roleActive ∧ a.get TWN_STATUS_PEER_ROLE = roleActive ∧ a.twin.peerSince = 0 ∧
    a.get TWN_ACTIVE_SINCE_LO_TICK + 2 ^ 32 * a.get TWN_ACTIVE_SINCE_HI_TICK = 0 ∧ a.get TWN_CTRL_SIDE = 1 ∧
    d.twin.rx = [(1, cell)] ∧ bits (leNat (cell.take 8)) 3 0 = 2 ∧
    72 * ((d.staged 0).length + (d.staged 1).length + 1) ≤ 2 ^ 20 * max 8 (d.get TWN_STAGE_SIZE_MIB) ∧
    a.twin.level ≠ 0 ∧ a.twin.sending = true ∧ a.twin.lines ≠ [] ∧
    (tabGet (fun _ => []) d.twin.msgRx 1).length = 1 ∧ (tabGet (fun _ => []) d.twin.msgTx 1).length + (unitsOf []).length ≤ msgCap ∧
    device0.get TWN_STATUS_ROLE ≠ roleStandby ∧ device0.get TWN_STATUS_ROLE ≠ roleActive ∧ device0.get TWN_CTRL_EN ≠ 1 ∧
    ({ twin0 with level := 0 } : Twin).level = 0 ∧ (timed [] (fun t => { t with tick := 1 })).onCarrierTick 80 = false ∧
    0 < (tabGet (fun _ => []) d.twin.msgRx 0).length + 1 := by
  and_intros <;> decide

/-! ### Hosts, network, boot -/

set_option maxRecDepth 8000 in
theorem witness_HostCommands :
    let q : HostReq := ⟨true, 0x5000000000, 4, [0, 0, 0, 0], 0, false⟩
    let d := { dev [(HWD_SEM_OWNER_OWNER 127, 2), (HWD_SEM_SEM 127, 1)] with hostB := ⟨true, true, [q]⟩ }
    let a := { dev [(HWD_HOST_CTRL_ASLEEP_RETRY, 1), (FLT_LCMAP_PHYS 0, 0), (ELP_DOM_STATE_STATE 0, pDoze)] with
      hostA := ⟨true, true, [q]⟩ }
    let w := { dev [(FLT_LCMAP_PHYS 0, 0)] with flt := { faultMgr0 with fencedCl := [(0, true)] } }
    let u := { device0 with hwd := { hayward0 with porN := true } }
    (d.host 1).linkUp = true ∧ barAddr 0 0x3FFFFFC = some 0x4803FFFFFC ∧
    barAddr 0 (0x3FFFFFC + (4 - 1)) = some (0x4803FFFFFC + (4 - 1)) ∧ barAddr 1 0xA000000 = none ∧ (d.host 1).retry = [q] ∧
    (a.host 0).retry = [q] ∧ q.tries < a.get HWD_HOST_CTRL_ASLEEP_RETRY ∧ d.get (HWD_SEM_OWNER_OWNER 127) = 1 + 1 ∧
    (u.host 0).linkUp = false ∧ u.hwd.porN = true ∧ u.power.trip = false ∧ u.hwd.ready = false ∧ u.ballsTaken = false ∧
    semOwner (hostNode 1) 0 = 2 ∧ semOwner (clusterNode 19 0) 7 = 0x20 + 8 * 19 + 7 ∧ semOwner 0x3FF 0 = 0 ∧
    d.get (HWD_SEM_OWNER_OWNER 0) = 0 ∧
    (a.setHost 0 { a.host 0 with retry := [] }).hostAsleep 0 q.write q.addr q.len q.data = true ∧
    (a.setHost 0 { a.host 0 with retry := [] }).hostFenced 0 q.write q.addr q.len q.data = false ∧
    w.get (FLT_LCMAP_PHYS 0) = 0 ∧ w.hostFenced 0 q.write q.addr q.len q.data = true ∧ (device0.host 1).retry = [] := by
  and_intros <;> decide
theorem witness_NetworkPorts :
    let on := [(NET_CTRL_MODE, 3), (NET_CTRL_PORT_EN, 0xF), (NET_PORT_STATUS_LINK 3, 1), (NET_CTRL_PTP_PORTS, 8), (NET_TXQ_PORT_MAP 1, 0xC000)]
    let ups := dev (on ++ (List.range 8).map (fun i => (RLN_LANE_STATUS_STATE (72 + i), lUp)))
    let short := List.replicate 60 (0 : Byte)
    let ptp := List.replicate 12 (0 : Byte) ++ [0x88, 0xF7] ++ List.replicate 46 0
    let esmc := List.replicate 12 (0 : Byte) ++ [0x88, 0x09, 0x0A] ++ List.replicate 45 0
    let full := List.replicate rxCap ([] : List Byte)
    let head := leBytes 2 64 ++ [4, 0] ++ List.replicate 60 (0 : Byte)
    let d := { dev on with net := { device0.net with tx := [(15, [head, List.replicate 64 0])], rx := [(8, full)], stamps := [(3, [⟨7, 1, 2⟩])] } }
    (d.rxq 8).length = rxCap ∧ d.portOn 3 = true ∧ bit (d.get NET_CTRL_PORT_EN) 3 = true ∧ d.get (NET_PORT_STATUS_LINK 3) = 1 ∧
    frameBad short false true = false ∧ frameBad short true false = true ∧ toHayward short = false ∧ toHayward ptp = true ∧
    isEsmc ptp = false ∧ toHayward esmc = true ∧ isEsmc esmc = true ∧ bit (d.get NET_CTRL_PTP_PORTS) 3 = true ∧
    d.portDie 3 = 1 ∧ d.queuePort 15 = some 3 ∧ frontFrame (d.txq 15) = some 2 ∧
    tabGet (fun _ => []) d.net.stamps 3 = [⟨7, 1, 2⟩] ∧ (d.rxq 0).length < 1 ∧
    (dev []).get (NET_PORT_STATUS_LINK 0) ≠ 1 ∧ (dev on).portOn 0 = true ∧ (dev on).power.trip = false ∧ (dev on).ballsTaken = false ∧
    ((dev on).portLanes 0).all ups.laneUp = true ∧ bit ((dev on).get NET_CTRL_PORT_EN) 0 = true ∧ ups.portLanes 0 = (dev on).portLanes 0 ∧
    bit (wordAt head 0) 18 = true ∧ (d.txq 15).length ≤ txCap ∧ ¬ rxCap + 2 ≤ rxCap ∧
    ({ device0 with net := { device0.net with rx := [(8, [short])] } } : Device).rxq 8 = [short] := by
  refine ⟨List.length_replicate, ?_⟩
  and_intros <;> decide
/-- A command of host 1. -/
def hostCmd (code : Nat) (args : List Nat) : MbxCmd := ⟨1, code, 255, args, true, noBoot, false, none⟩
theorem witness_BootAndMailbox :
    let c := hostCmd 4 [3]
    let d := { dev [(HWD_BOOT_STAGE, stgRunning)] with
      hwd := { hayward0 with mbx := [c], keys := [(0, some []), (3, some [])], removal := 4 } }
    let p := { device0 with hwd := { hayward0 with mbx := [hostCmd 10 []], removal := 4 } }
    let r := { device0 with hwd := { hayward0 with mbx := [{ c with done := some (7, [1, 2]), drop := false, host := 1 }] } }
    device0.hwd.porN = false ∧ (dev [(HWD_MBX_RSP_BUSY 1, 1)]).get (HWD_MBX_RSP_BUSY 1) = 1 ∧ d.get (HWD_MBX_RSP_BUSY 1) = 0 ∧
    d.get HWD_BOOT_STAGE ≠ 0 ∧ d.get HWD_BOOT_STAGE ≠ stgFailed ∧ d.get HWD_BOOT_STAGE ≠ stgFwLoad ∧ 2 ≤ d.hwd.removal ∧
    d.hwd.removal ≤ 4 ∧ device0.get HWD_BOOT_STAGE = 0 ∧ c.code = 4 ∧ c.done = none ∧ d.hwd.mbx = [c] ∧ c.args.getD 0 0 < 4 ∧
    (∃ k < 4, tabGet (fun _ => none) d.hwd.keys k ≠ none ∧ k ∉ d.hwd.revoked ∧ k ≠ c.args.getD 0 0) ∧ c.ok = true ∧
    3 ∉ d.hwd.revoked ∧ tabGet (fun _ => none) d.hwd.keys 2 = none ∧ 4 ≤ (hostCmd 3 [4]).args.getD 0 0 ∧
    63 < (hostCmd 5 [64]).args.getD 0 0 ∧ (hostCmd 5 [63]).args.getD 0 0 ≤ 63 ∧
    r.hwd.mbx = [{ c with done := some (7, [1, 2]), drop := false, host := 1 }] ∧ c.seq < 256 ∧
    p.hwd.mbx = [hostCmd 10 []] ∧ p.hwd.removal = 4 ∧ p.power.trip = false ∧ p.lwk.flights = [] ∧ p.lwk.ready = [] ∧
    p.lwk.outst = [] ∧ device0.hwd.mbx = [] ∧ ({ p with hwd := { p.hwd with removal := 3 } } : Device).hwd.removal ≠ 4 := by
  and_intros <;> decide

/-! ### Counters, debug, register writes -/

theorem witness_CountersAndRecords :
    let d := dev [(CLU_DUMP_CTRL_EN 19, 1), (ELP_DOM_STATE_STATE 19, pDoze), (CLU_DUMP_CTRL_HEATH 19, 0)]
    let h := dev [(CLU_DUMP_CTRL_EN 19, 1), (ELP_DOM_STATE_STATE 19, pRun), (CLU_DUMP_CTRL_HEATH 19, 1)]
    let f := dev [(CLU_DUMP_CTRL_EN 19, 1), (CLU_DUMP_WR_WR 19, 1023)]
    let o := dev [(CLU_DUMP_CTRL_EN 19, 1), (ELP_DOM_STATE_STATE 19, pOff)]
    let t := dev [(HWD_TLM_CTRL_EN, 1)]
    let g := dev [(HWD_TLM_CTRL_EN, 1), (HWD_TLM_WR_WR, 1023)]
    let size := fun (x : Device) => max 8 (x.get (CLU_DUMP_SIZE_SIZE 19))
    let free := fun (x : Device) => (x.get (CLU_DUMP_RD_RD 19) % size x + size x - x.get (CLU_DUMP_WR_WR 19) - 1) % size x
    d.on (CLU_DUMP_CTRL_EN 19) = true ∧ d.time.tick % max 1 (d.get (CLU_DUMP_CTRL_EVERY 19)) = 0 ∧ d.cluFenced 19 = false ∧
    d.domSt 19 = pDoze ∧ d.on (CLU_DUMP_CTRL_HEATH 19) = false ∧ ¬ free d < 1 ∧ h.domSt 19 = pRun ∧
    h.on (CLU_DUMP_CTRL_HEATH 19) = true ∧ ¬ free h < (h.dump 19).fill + 1 ∧ free f < 1 ∧ o.domSt 19 ≠ pRun ∧ o.domSt 19 ≠ pDoze ∧
    device0.on (CLU_DUMP_CTRL_EN 19) = false ∧ device0.on HWD_TLM_CTRL_EN = false ∧
    t.on HWD_TLM_CTRL_EN = true ∧ ¬ (t.get HWD_TLM_WR_WR + 1) % max 2 (t.get HWD_TLM_SIZE_SIZE) =
      t.get HWD_TLM_RD_RD % max 2 (t.get HWD_TLM_SIZE_SIZE) ∧
    (g.get HWD_TLM_WR_WR + 1) % max 2 (g.get HWD_TLM_SIZE_SIZE) = g.get HWD_TLM_RD_RD % max 2 (g.get HWD_TLM_SIZE_SIZE) := by
  and_intros <;> decide
theorem witness_DebugAndTestPort :
    let l := dev [(HWD_DBG_LOCK, 1)]
    let o := dev [(HWD_DBG_LOCK, 0)]
    let h := { o with cores := [(8 * 19 + 7, { core0 with halted := true, waiting := false })] }
    let t := { o with tap := { tap0 with ir := 0x40, busy := true, resp := some (7, 5) }, hwd := { hayward0 with porN := true } }
    l.on HWD_DBG_LOCK = true ∧ o.on HWD_DBG_LOCK = false ∧ (∀ j < 8, j ≠ 7 → (h.core 19 j).halted = false ∧ (0x80 : BitVec 8).getLsbD j = false) ∧
    (0x80 : BitVec 8).getLsbD 7 = true ∧ (o.core 19 7).halted = false ∧ (o.core 19 7).between = true ∧ (h.core 19 7).halted = true ∧
    (h.core 19 7).waiting = false ∧ t.tap.busy = true ∧ t.hwd.porN = true ∧ t.tap.ir = 0x40 ∧ t.on HWD_DBG_LOCK = false ∧
    t.tap.resp = some (7, 5) ∧ t.tap.held = none ∧ device0.hwd.porN = false ∧ device0.tap.busy = false ∧
    ({ t with tap := { t.tap with held := some 3 } } : Device).tap.held ≠ none ∧
    ({ t with tap := tap0 }.access (tapAsk 0) false clean).2 ≠ fencedErr := by
  and_intros <;> decide
theorem witness_RegisterWrites :
    (0x3FFFFFD : BitVec 26).toNat % 4 ≠ 0 ∧ msixOff 0x3FFFFFC = false ∧ regRow 0x3FFFFFC = none ∧ Req.hostA ≠ Req.hostB ∧
    ∃ row, regRow (PKL_CARRIER_MAP 63) = some row ∧ msixOff (PKL_CARRIER_MAP 63) = false ∧ PKL_CARRIER_MAP 63 % 4 = 0 ∧ 0x80000 ≤ PKL_CARRIER_MAP 63 ∧ PKL_CARRIER_MAP 63 < 0xC80000 ∧ (383 : Word).toNat < 384 ∧
      row.hitsOwned 0 1 = true := by decide

/-! ### Single steps -/

/-- D3 of core 0 of cluster 0 once the bundle has committed and its writes have landed, D1 and D2 first set. -/
def d3 (c : Instr) (a b : Word) : Word :=
  ((after (exec c (st (running [] [.d 1 a, .d 2 b])))).core 0 0).landed.regs.dreg 3

-- R407: ADD wraps and ADDS saturates; shifts use bits 4:0; the largest 32-bit sums by hand.
theorem test_add_wraps : d3 (.add (op 4 3 1 2 0) false) 0x7FFFFFFF 1 = 0x80000000 := by decide
theorem test_adds_saturates : d3 (.adds (op 4 3 1 2 0) false) 0x7FFFFFFF 1 = 0x7FFFFFFF := by decide
theorem test_subs_saturates : d3 (.subs (op 4 3 1 2 0) false) 0x80000000 1 = 0x80000000 := by decide
theorem test_sub_order : d3 (.sub (op 4 3 1 2 0) false) 5 7 = 0xFFFFFFFE := by decide
theorem test_sar_keeps_sign : d3 (.sar (op 4 3 1 2 0) false) 0x80000000 31 = 0xFFFFFFFF := by decide
theorem test_shr_fills_zero : d3 (.shr (op 4 3 1 2 0) false) 0x80000000 31 = 1 := by decide
theorem test_clz_of_one : d3 (.clz (op 4 3 1 2 0) false) 1 0 = 31 := by decide
theorem test_brev_of_one : d3 (.brev (op 4 3 1 2 0) false) 1 0 = 0x80000000 := by decide

-- R505, R126, R545, R593, R534, R43: one step each.
theorem test_event_sets_its_flag : (after (exec (.eventPulse 383) (st device0))).get (pendFld 383) = 1 := by decide
theorem test_open_tile : let t := (after (exec (.openTile 40959 5 0 false) (st device0))).tile 40959
    t.st = .opened ∧ t.writer = 5 := by decide
theorem test_semaphore_taken_once : let t := after (exec (.semAcquire 127 (BitVec.ofNat 10 (hostNode 0)) 0) (st device0))
    t.get (HWD_SEM_OWNER_OWNER 127) = 1 ∧
    (after (exec (.semAcquire 127 (BitVec.ofNat 10 (hostNode 1)) 0) (st t))).get (HWD_SEM_OWNER_OWNER 127) = 1 := by decide
theorem test_idcode : (after (exec .idcode (st device0))).out = [.tdo 0x16192E35] := by decide
theorem test_takeover_from_standby :
    (after (exec (.takeover .hostA) (st (dev [(TWN_STATUS_ROLE, roleStandby)])))).get TWN_STATUS_ROLE = roleTaking := by decide
theorem test_time_base_step_is_stored : (after (exec (.registerWrite .hostA (BitVec.ofNat 26 TTB_STEP_NS) 0xFFFFFFFF 0)
    (st device0))).get TTB_STEP_NS_NS = 0xFFFFFFFF := by decide

end Sys2Proof.Tests
end

/-! PROOFS. Host requests, endpoint resets, links and semaphores (R25, R26, R17, R540 to R545). -/

namespace Sys2Proof.Machine.HostProofs
open R

/-! ### A host's port and its MSI-X state -/

@[simp] theorem setHost_get (d : Device) (h : Nat) (p : HostPort) (f : Fld) : (d.setHost h p).get f = d.get f := by
  unfold Device.setHost; split <;> rfl

@[simp] theorem setHost_host (d : Device) (h : Nat) (p : HostPort) : (d.setHost h p).host h = p := by
  unfold Device.setHost Device.host; split <;> rfl

@[simp] theorem setHost_setHost (d : Device) (h : Nat) (p q : HostPort) :
    (d.setHost h p).setHost h q = d.setHost h q := by
  unfold Device.setHost; split <;> rfl

@[simp] theorem setMsix_get (d : Device) (h : Nat) (m : Msix) (f : Fld) : (d.setMsix h m).get f = d.get f := by
  unfold Device.setMsix; split <;> rfl

@[simp] theorem setMsix_host (d : Device) (h g : Nat) (m : Msix) : (d.setMsix h m).host g = d.host g := by
  unfold Device.setMsix; split <;> rfl

@[simp] theorem setMsix_msix (d : Device) (h : Nat) (m : Msix) : (d.setMsix h m).msix h = m := by
  unfold Device.setMsix Device.msix; split <;> rfl

@[simp] theorem setHost_msix (d : Device) (h g : Nat) (p : HostPort) : (d.setHost h p).msix g = d.msix g := by
  unfold Device.setHost; split <;> rfl

/-- Only a host whose MSI-X is on has its MSI-X state changed by a vector (R506). -/
theorem sendVec_msix_of_disabled (d : Device) (g h v : Nat) (off : (d.msix h).enable = false) :
    (d.sendVec g v).msix h = d.msix h := by
  unfold Device.sendVec
  dsimp only
  split
  · rfl
  · next on =>
    split
    · have hgh : ¬ (g = 0 ↔ h = 0) := fun same => by
        have : d.msix g = d.msix h := by simp only [Device.msix, same]
        simp [this, off] at on
      unfold Device.setMsix Device.msix
      by_cases hg : g = 0 <;> by_cases hh : h = 0 <;> simp_all
    · rfl

theorem pulse_msix_of_disabled (d : Device) (n h : Nat) (off : (d.msix h).enable = false) :
    (d.pulse n).msix h = d.msix h := by
  have route : ∀ e : Device, e.msix h = d.msix h → (e.routeEvent n).msix h = d.msix h := by
    intro e he
    have send : ∀ (u : Device) (g : Nat), u.msix h = d.msix h → (u.sendVec g n).msix h = d.msix h := fun u g hu => by
      rw [sendVec_msix_of_disabled u g h n (hu ▸ off), hu]
    unfold Device.routeEvent
    dsimp only
    split <;> split <;> simp only [send, he]
  unfold Device.pulse
  dsimp only
  split
  · rfl
  · split
    · rfl
    · exact route _ rfl

theorem cause_msix_of_disabled (d : Device) (f : Fld) (n h : Nat) (off : (d.msix h).enable = false) :
    (d.cause f n).msix h = d.msix h := pulse_msix_of_disabled (d.put f 1) n h off

/-! ### Cause bits and folds of register writes -/

/-- A cause bit is set and its event pulsed, and nothing else changes but what events do. -/
theorem cause_sets (d : Device) {r b n : Nat} (hb : b < 32) (hr : r < 0x100000) (hn : n < 384) :
    d.Sets (d.cause ⟨r, b, b⟩ n) [(⟨r, b, b⟩, 1)] [n] := by
  have put := (Device.Sets.refl d).put ⟨r, b, b⟩ 1 ⟨Nat.le_refl b, hb⟩ (by simp) (by simp) (by simp)
  simp only [Nat.add_sub_cancel_left, Nat.pow_one, Nat.one_mod] at put
  exact put.pulse n hn (by simp [hr])

/-- Register writes in a row change the registers alone. -/
theorem foldl_regs {α : Type} (g : Device → α → Device) (hg : ∀ d a, g d a = { d with regs := (g d a).regs })
    (l : List α) (d : Device) : l.foldl g d = { d with regs := (l.foldl g d).regs } := by
  induction l generalizing d with
  | nil => rfl
  | cons a l ih =>
    rw [List.foldl_cons, ih (g d a)]
    generalize (l.foldl g (g d a)).regs = r
    rw [hg d a]

/-- A field that each of several changes leaves stands. -/
theorem foldl_get {α : Type} (g : Device → α → Device) (f : Fld) (l : List α)
    (hg : ∀ d, ∀ a ∈ l, (g d a).get f = d.get f) (d : Device) : (l.foldl g d).get f = d.get f := by
  induction l generalizing d with
  | nil => rfl
  | cons a l ih =>
    rw [List.foldl_cons, ih (fun d b hb => hg d b (List.mem_cons_of_mem a hb)), hg d a (List.mem_cons_self ..)]

/-! ### Semaphores (R544, R545) -/

/-- The owner code fits its field of 8 bits. -/
theorem semOwner_lt (src core : Nat) (hc : core < 8) : semOwner src core < 2 ^ 8 := by
  unfold semOwner
  split
  · decide
  · split
    · decide
    · split
      · decide
      · split
        · next c hfind =>
          have : c < 20 := List.mem_range.mp (List.mem_of_find?_eq_some hfind)
          omega
        · decide

/-- A semaphore's owner and value are set together. -/
def semPut (d : Device) (n own b : Nat) : Device := (d.put (HWD_SEM_OWNER_OWNER n) own).put (HWD_SEM_SEM n) b

theorem semPut_sets (d : Device) {n own b : Nat} (ho : own < 2 ^ 8) (hb : b < 2) :
    d.Sets (semPut d n own b) [(HWD_SEM_OWNER_OWNER n, own), (HWD_SEM_SEM n, b)] [] := by
  have okO : (HWD_SEM_OWNER_OWNER n).Ok := ⟨Nat.zero_le 7, (by decide : 7 < 32)⟩
  have apart : (HWD_SEM_SEM n).Apart (HWD_SEM_OWNER_OWNER n) := by
    unfold Fld.Apart HWD_SEM_SEM HWD_SEM_OWNER_OWNER HWD_SEM HWD_SEM_OWNER; dsimp only; omega
  have put := ((Device.Sets.refl d).put (HWD_SEM_OWNER_OWNER n) own okO (by simp) (by simp) (by simp)).put
    (HWD_SEM_SEM n) b ⟨Nat.le_refl 0, (by decide : 0 < 32)⟩ (by simpa using okO) (by simpa using apart) (by simp)
  have eo : own % 2 ^ ((HWD_SEM_OWNER_OWNER n).hi + 1 - (HWD_SEM_OWNER_OWNER n).lo) = own := Nat.mod_eq_of_lt ho
  have eb : b % 2 ^ ((HWD_SEM_SEM n).hi + 1 - (HWD_SEM_SEM n).lo) = b := Nat.mod_eq_of_lt hb
  rw [eo, eb] at put
  exact put.of (by simp) (by simp) (by simp) (by simp)

/-- Device t is d but that the semaphores of host h are free. -/
def Freed (d t : Device) (h : Nat) : Prop := ∀ k < 128,
  t.get (HWD_SEM_OWNER_OWNER k) = (if d.get (HWD_SEM_OWNER_OWNER k) = h + 1 then 0 else d.get (HWD_SEM_OWNER_OWNER k)) ∧
  t.get (HWD_SEM_SEM k) = (if d.get (HWD_SEM_OWNER_OWNER k) = h + 1 then 0 else d.get (HWD_SEM_SEM k))

/-- Two semaphores' fields share no bit. -/
theorem sem_apart {k n : Nat} (hk : k < 128) (hn : n < 128) (hkn : k ≠ n) :
    ∀ f ∈ [HWD_SEM_OWNER_OWNER n, HWD_SEM_SEM n], ∀ g ∈ [HWD_SEM_OWNER_OWNER k, HWD_SEM_SEM k], f.Apart g := by
  simp only [List.mem_cons, List.not_mem_nil, or_false, Fld.Apart, HWD_SEM_OWNER_OWNER, HWD_SEM_SEM, HWD_SEM, HWD_SEM_OWNER]
  rintro f (rfl | rfl) g (rfl | rfl) <;> dsimp only <;> omega

theorem sem_ok (k : Nat) : ∀ g ∈ [HWD_SEM_OWNER_OWNER k, HWD_SEM_SEM k], g.Ok := by
  simp only [List.mem_cons, List.not_mem_nil, or_false, Fld.Ok, HWD_SEM_OWNER_OWNER, HWD_SEM_SEM]
  rintro g (rfl | rfl) <;> dsimp only <;> omega

/-- The semaphores of a list released, one after the other. -/
def release (d : Device) (l : List Nat) : Device := l.foldl (fun d n => semPut d n 0 0) d

theorem release_eq (d : Device) (l : List Nat) : release d l = { d with regs := (release d l).regs } :=
  foldl_regs (fun d n => semPut d n 0 0) (fun _ _ => rfl) l d

/-- Releasing a list of semaphores clears the fields of those and leaves those of every other. -/
theorem release_get (l : List Nat) (hl : ∀ n ∈ l, n < 128) (d : Device) {k : Nat} (hk : k < 128) :
    ∀ g ∈ [HWD_SEM_OWNER_OWNER k, HWD_SEM_SEM k],
      (release d l).get g = if k ∈ l then 0 else d.get g := by
  intro g hg
  induction l generalizing d with
  | nil => rfl
  | cons n l ih =>
    have hn : n < 128 := hl n (List.mem_cons_self ..)
    have sets := semPut_sets d (n := n) (own := 0) (b := 0) (by decide) (by decide)
    rw [release, List.foldl_cons, ← release, ih (fun m hm => hl m (List.mem_cons_of_mem n hm))]
    by_cases hkl : k ∈ l
    · simp [hkl]
    · by_cases hkn : k = n
      · subst hkn
        have : (semPut d k 0 0).get g = 0 := by
          simp only [List.mem_cons, List.not_mem_nil, or_false] at hg
          rcases hg with rfl | rfl
          · exact sets.holds (HWD_SEM_OWNER_OWNER k, 0) (by simp)
          · exact sets.holds (HWD_SEM_SEM k, 0) (by simp)
        simp [this]
      · have apart := sem_apart hk hn hkn
        have : (semPut d n 0 0).get g = d.get g :=
          sets.frame g (sem_ok k g hg) (by simpa using ⟨apart _ (by simp) g hg, apart _ (by simp) g hg⟩) (by simp)
        simp [hkl, hkn, this]

/-- The semaphores that host h owns, in ascending order. -/
def owned (d : Device) (h : Nat) : List Nat := (List.range 128).filter (fun n => d.get (HWD_SEM_OWNER_OWNER n) == h + 1)

theorem mem_owned {d : Device} {h k : Nat} : k ∈ owned d h ↔ k < 128 ∧ d.get (HWD_SEM_OWNER_OWNER k) = h + 1 := by
  simp [owned]

theorem release_freed (d : Device) (h : Nat) :
    Freed d (release d (owned d h)) h := by
  intro k hk
  have get := release_get (owned d h) (fun n hn => (mem_owned.mp hn).1) d hk
  rw [get _ (by simp), get _ (by simp)]
  simp [mem_owned, hk]

/-- What a release by force can do: nothing where the host owns no semaphore; else it releases what the host owns, and the
cause bit and the event follow. -/
theorem semForce_cases (d : Device) (h : Nat) :
    (owned d h = [] ∧ d.semForce h = d) ∨
    (owned d h ≠ [] ∧ d.semForce h =
      (release d (owned d h)).cause ⟨HWD_EV_CAUSE, 13 + h, 13 + h⟩ (148 + h)) := by
  have e : d.semForce h = if (owned d h).isEmpty then d else
      (release d (owned d h)).cause ⟨HWD_EV_CAUSE, 13 + h, 13 + h⟩ (148 + h) := rfl
  rw [e]
  cases owned d h with
  | nil => exact .inl ⟨rfl, rfl⟩
  | cons a l => exact .inr ⟨List.cons_ne_nil a l, rfl⟩

/-- A cause bit and its event leave the semaphores alone. -/
theorem Freed.cause {d t : Device} {h : Nat} (freed : Freed d t h) (b n : Nat) :
    Freed d (t.cause ⟨HWD_EV_CAUSE, b, b⟩ n) h := by
  have get : ∀ g : Fld, g.reg ≠ HWD_EV_CAUSE → g.reg < 0x100000 → (t.cause ⟨HWD_EV_CAUSE, b, b⟩ n).get g = t.get g :=
    fun g hne hlt => by
      unfold Device.cause
      rw [Device.pulse_get _ n (.inl hlt), Device.get_put_ne t 1 hne]
  intro k hk
  rw [get, get]
  · exact freed k hk
  all_goals
    simp only [HWD_SEM_OWNER_OWNER, HWD_SEM_SEM, HWD_SEM, HWD_SEM_OWNER, HWD_EV_CAUSE]
    omega

theorem semForce_freed (d : Device) (h : Nat) : Freed d (d.semForce h) h := by
  rcases semForce_cases d h with ⟨none, e⟩ | ⟨-, e⟩
  · have same := release_freed d h
    rw [none] at same
    rw [e]
    exact same
  · rw [e]
    exact (release_freed d h).cause _ _

/-- A release by force that released something raises EV(148 + h) (R545). -/
theorem semForce_pend (d : Device) {h : Nat} (hh : h < 2) (owns : ∃ k < 128, d.get (HWD_SEM_OWNER_OWNER k) = h + 1) :
    (d.semForce h).get (pendFld (148 + h)) = 1 := by
  obtain ⟨k, hk, own⟩ := owns
  rcases semForce_cases d h with ⟨none, -⟩ | ⟨-, e⟩
  · have := mem_owned.mpr ⟨hk, own⟩
    simp [none] at this
  · rw [e]
    exact Device.pulse_pend _ _ (by omega)

/-- A release by force reaches registers, latched wakes, MSI-X state and outputs alone. -/
theorem semForce_eq (d : Device) (h : Nat) : d.semForce h = { d with
    regs := (d.semForce h).regs, power := (d.semForce h).power, msixA := (d.semForce h).msixA
    msixB := (d.semForce h).msixB, out := (d.semForce h).out } := by
  rcases semForce_cases d h with ⟨-, e⟩ | ⟨-, e⟩
  · rw [e]
  · rw [e]
    unfold Device.cause
    rw [Device.pulse_eq, release_eq]
    rfl

theorem semForce_msix_of_disabled (d : Device) (h g : Nat) (off : (d.msix g).enable = false) :
    (d.semForce h).msix g = d.msix g := by
  rcases semForce_cases d h with ⟨-, e⟩ | ⟨-, e⟩
  · rw [e]
  · have same : (release d (owned d h)).msix g = d.msix g := by
      rw [release_eq]
      rfl
    rw [e, cause_msix_of_disabled _ _ _ g (by rw [same, off]), same]

/-! ### A Function Level Reset (R542) -/

/-- The device as an FLR of endpoint h leaves it outside the registers, before its events. -/
def flrBase (d : Device) (h : Nat) : Device :=
  let m := d.setMsix h msix0
  let e := m.setHost h { m.host h with retry := [] }
  { e with
    hwd := { e.hwd with mbx := e.hwd.mbx.map (fun c => if c.host = h then { c with drop := true } else c) }
    time := { e.time with
      latchHi := tabSet (fun _ => 0) e.time.latchHi h 0, latchSec := tabSet (fun _ => 0) e.time.latchSec h 0 } }

theorem flrBase_eq (d : Device) (h : Nat) : flrBase d h = { d with
    msixA := (flrBase d h).msixA, msixB := (flrBase d h).msixB, hostA := (flrBase d h).hostA, hostB := (flrBase d h).hostB
    hwd := { d.hwd with mbx := d.hwd.mbx.map (fun c => if c.host = h then { c with drop := true } else c) }
    time := { d.time with
      latchHi := tabSet (fun _ => 0) d.time.latchHi h 0, latchSec := tabSet (fun _ => 0) d.time.latchSec h 0 } } := by
  unfold flrBase Device.setMsix Device.setHost
  by_cases h0 : h = 0 <;> simp only [h0, if_true, if_false]

theorem flrBase_host (d : Device) (h : Nat) : (flrBase d h).host h = { d.host h with retry := [] } := by
  have host : (flrBase d h).host h = { (d.setMsix h msix0).host h with retry := [] } := setHost_host _ h _
  rw [host, setMsix_host]

theorem flrBase_msix (d : Device) (h : Nat) : (flrBase d h).msix h = msix0 :=
  (setHost_msix _ h h _).trans (setMsix_msix d h msix0)

theorem flrBase_get (d : Device) (h : Nat) (g : Fld) : (flrBase d h).get g = d.get g :=
  (setHost_get _ h _ g).trans (setMsix_get d h msix0 g)

/-- Register i of the mailbox of host h cleared. -/
def clearMbx (h : Nat) (d : Device) (i : Nat) : Device := d.setWord (0x100 + 0x100 * h + 4 * i) 0

/-- An FLR clears the endpoint and its mailbox, then releases its semaphores, then raises its event. -/
theorem flr_eq (d : Device) {h : Nat} (hh : h < 2) : ∃ e : Device, e = { flrBase d h with regs := e.regs } ∧
    (∀ g : Fld, 0x1000 ≤ g.reg → e.get g = d.get g) ∧
    d.flr h = (e.semForce h).cause ⟨HWD_EV_CAUSE, 9 + h, 9 + h⟩ (144 + h) := by
  refine ⟨(List.range 24).foldl (clearMbx h) (flrBase d h), foldl_regs (clearMbx h) (fun _ _ => rfl) _ _, fun g hg => ?_, rfl⟩
  rw [foldl_get (clearMbx h) g _ _ (flrBase d h), flrBase_get]
  intro d i hi
  exact d.get_setWord_ne 0 (by have := List.mem_range.mp hi; omega)

/-- An FLR resets the endpoint's MSI-X state: its own events send it no vector. -/
theorem flr_msix (d : Device) {h : Nat} (hh : h < 2) : (d.flr h).msix h = msix0 := by
  obtain ⟨e, he, -, hflr⟩ := flr_eq d hh
  have reset : e.msix h = msix0 := by
    rw [he]
    exact flrBase_msix d h
  have forced : (e.semForce h).msix h = msix0 := by
    rw [semForce_msix_of_disabled e h h (by rw [reset]; rfl), reset]
  rw [hflr, cause_msix_of_disabled _ _ _ h (by rw [forced]; rfl), forced]

/-- But for registers, latched wakes, MSI-X state and outputs, an FLR leaves its base. -/
theorem flr_rest (d : Device) {h : Nat} (hh : h < 2) : d.flr h = { flrBase d h with
    regs := (d.flr h).regs, power := (d.flr h).power, msixA := (d.flr h).msixA, msixB := (d.flr h).msixB
    out := (d.flr h).out } := by
  obtain ⟨e, he, -, hflr⟩ := flr_eq d hh
  rw [hflr]
  unfold Device.cause
  rw [Device.pulse_eq, semForce_eq, he]
  rfl

theorem flr_freed (d : Device) {h : Nat} (hh : h < 2) : Freed d (d.flr h) h := by
  obtain ⟨e, -, hget, hflr⟩ := flr_eq d hh
  have forced : Freed d (e.semForce h) h := fun k hk => by
    have f := semForce_freed e h k hk
    rwa [hget (HWD_SEM_OWNER_OWNER k) (by simp only [HWD_SEM_OWNER_OWNER, HWD_SEM_OWNER]; omega),
      hget (HWD_SEM_SEM k) (by simp only [HWD_SEM_SEM, HWD_SEM]; omega)] at f
  rw [hflr]
  exact forced.cause _ _

theorem flr_event (d : Device) {h : Nat} (hh : h < 2) :
    (d.flr h).get ⟨HWD_EV_CAUSE, 9 + h, 9 + h⟩ = 1 ∧ (d.flr h).get (pendFld (144 + h)) = 1 := by
  obtain ⟨e, -, -, hflr⟩ := flr_eq d hh
  have sets := cause_sets (e.semForce h) (r := HWD_EV_CAUSE) (b := 9 + h) (n := 144 + h) (by omega) (by decide) (by omega)
  rw [hflr]
  exact ⟨sets.holds _ (List.mem_cons_self ..), sets.pends _ (List.mem_cons_self ..)⟩

theorem flr_latches (d : Device) {h : Nat} (hh : h < 2) :
    tabGet (fun _ => 0) (d.flr h).time.latchHi h = 0 ∧ tabGet (fun _ => 0) (d.flr h).time.latchSec h = 0 := by
  rw [flr_rest d hh, flrBase_eq]
  exact ⟨tabGet_tabSet_same _ _ h 0, tabGet_tabSet_same _ _ h 0⟩

/-! ### Links (R542) -/

/-- A link that is down stays down. -/
theorem hostDown_of_down {d : Device} {h : Nat} (down : (d.host h).linkUp = false) : d.hostDown h = d := by
  simp [Device.hostDown, down]

theorem hostDown_sets {d : Device} {h : Nat} (hh : h < 2) (isUp : (d.host h).linkUp = true) :
    (d.setHost h { d.host h with linkUp := false, retry := [] }).Sets (d.hostDown h)
      [(⟨HWD_EV_CAUSE, 7 + h, 7 + h⟩, 1)] [144 + h] := by
  have e : d.hostDown h = (d.setHost h { d.host h with linkUp := false, retry := [] }).cause
      ⟨HWD_EV_CAUSE, 7 + h, 7 + h⟩ (144 + h) := by simp [Device.hostDown, isUp]
  rw [e]
  exact cause_sets _ (by omega) (by decide) (by omega)

/-- The device lets a link come up: out of reset, with no trip, and not removed (log entry 21). -/
def LinkAllowed (d : Device) : Prop :=
  d.hwd.porN = true ∧ d.power.trip = false ∧ d.hwd.ready = false ∧ d.ballsTaken = false

theorem hostUp_of_not {d : Device} {h : Nat} (no : (d.host h).linkUp = true ∨ ¬ LinkAllowed d) : d.hostUp h = d := by
  unfold Device.hostUp
  split
  · rfl
  · next pass =>
    simp only [Bool.not_eq_true, Bool.or_eq_false_iff, Bool.not_eq_false'] at pass
    obtain ⟨⟨⟨⟨down, por⟩, trip⟩, ready⟩, taken⟩ := pass
    rcases no with isUp | no
    · exact absurd (isUp.symm.trans down) (by decide)
    · exact absurd ⟨por, trip, ready, taken⟩ no

theorem hostUp_sets {d : Device} {h : Nat} (hh : h < 2) (down : (d.host h).linkUp = false) (allowed : LinkAllowed d) :
    (d.setHost h { d.host h with linkUp := true, txOn := true }).Sets (d.hostUp h)
      [(⟨HWD_EV_CAUSE, 5 + h, 5 + h⟩, 1)] [144 + h] := by
  obtain ⟨por, trip, ready, taken⟩ := allowed
  have e : d.hostUp h = (d.setHost h { d.host h with linkUp := true, txOn := true }).cause
      ⟨HWD_EV_CAUSE, 5 + h, 5 + h⟩ (144 + h) := by simp [Device.hostUp, down, por, trip, ready, taken]
  rw [e]
  exact cause_sets _ (by omega) (by decide) (by omega)

/-! ### One requester's read and write of a semaphore (R544) -/

section
variable {d : Device} {n src core : Nat}

theorem semRead_of_none (none : semOwner src core = 0) :
    d.semRead n src core = (d.accessRec (0x4800000000 + HWD_SEM n) src 0, 0) := by
  simp [Device.semRead, none]

theorem semRead_of_free (me : semOwner src core ≠ 0) (own : d.get (HWD_SEM_OWNER_OWNER n) = 0) :
    d.semRead n src core = (semPut d n (semOwner src core) 1, 1) := by
  simp [Device.semRead, semPut, me, own]

theorem semRead_of_owner (me : semOwner src core ≠ 0) (own : d.get (HWD_SEM_OWNER_OWNER n) = semOwner src core) :
    d.semRead n src core = (d, 1) := by
  simp [Device.semRead, me, own, b2n]

theorem semRead_of_other (me : semOwner src core ≠ 0) (taken : d.get (HWD_SEM_OWNER_OWNER n) ≠ 0)
    (other : d.get (HWD_SEM_OWNER_OWNER n) ≠ semOwner src core) : d.semRead n src core = (d, 0) := by
  simp [Device.semRead, me, taken, other, b2n]

theorem semWrite_of_owner (me : semOwner src core ≠ 0) (own : d.get (HWD_SEM_OWNER_OWNER n) = semOwner src core) :
    d.semWrite n src core 0 = semPut d n 0 0 := by
  simp [Device.semWrite, semPut, me, own]

theorem semWrite_of_not {v : Nat} (me : semOwner src core ≠ 0)
    (no : v ≠ 0 ∨ d.get (HWD_SEM_OWNER_OWNER n) ≠ semOwner src core) : d.semWrite n src core v = d := by
  have guard : ¬ (decide (v = 0) && decide (d.get (HWD_SEM_OWNER_OWNER n) = semOwner src core)) = true := by
    simp only [Bool.and_eq_true, decide_eq_true_eq]
    exact fun both => no.elim (· both.1) (· both.2)
  unfold Device.semWrite
  rw [if_neg me, if_neg guard]

end

/-! ### Requests of a host (R25, R26, R541) -/

section
variable {d : Device} {h bar off len a : Nat} {write : Bool} {bs : List Byte}

/-- A request of no bytes has no effect: a read answers none. -/
theorem hostMem_of_empty : d.hostMem h bar off 0 write bs = if write then d else d.emit (.tlp h false []) := by
  unfold Device.hostMem; rw [if_pos rfl]

/-- A request in a BAR is tried at its Lacework addresses. -/
theorem hostMem_of_inside (pos : 0 < len) (first : barAddr bar off = some a)
    (last : barAddr bar (off + (len - 1)) = some (a + (len - 1))) :
    d.hostMem h bar off len write bs = d.hostTry h ⟨write, a, len, bs, 0, false⟩ := by
  unfold Device.hostMem
  rw [if_neg (by omega), first, last]
  exact if_pos rfl

/-- A request out of a BAR is recorded, and a read answers zeros. -/
theorem hostMem_of_outside (pos : 0 < len) (out : barAddr bar off = none ∨ barAddr bar (off + (len - 1)) = none) :
    d.hostMem h bar off len write bs =
      let lost := d.accessRec ((if bar = 0 then 0x4800000000 else 0x4000000000) + off) (hostNode h) 2
      if write then lost else lost.emit (.tlp h false (List.replicate len 0)) := by
  unfold Device.hostMem
  rw [if_neg (by omega)]
  rcases out with first | last
  · rw [first]
  · rw [last]
    cases barAddr bar off <;> rfl

end

/-- A write that leaves MSI-X off or masked stores the control and sends nothing. -/
theorem msixCtl_of_off {d : Device} {h : Nat} {enable fmask : Bool} (off : enable = false ∨ fmask = true) :
    d.msixCtl h enable fmask = d.setMsix h { d.msix h with enable := enable, fmask := fmask } := by
  have guard : (!enable || fmask) = true := by rcases off with rfl | rfl <;> simp
  unfold Device.msixCtl
  exact if_pos guard

/-! ### One try of a request (R17, R541) -/

section
variable {d : Device} {h : Nat} {q : HostReq}

/-- A request answered FENCED is put off once. -/
theorem hostTry_of_fenced (once : q.fenced = false) (fenced : d.hostFenced h q.write q.addr q.len q.data = true) :
    d.hostTry h q = d.setHost h { d.host h with retry := (d.host h).retry ++ [{ q with fenced := true }] } := by
  simp [Device.hostTry, once, fenced]

/-- A request answered ASLEEP is put off while retries are left. -/
theorem hostTry_of_asleep (pass : q.fenced = true ∨ d.hostFenced h q.write q.addr q.len q.data = false)
    (asleep : d.hostAsleep h q.write q.addr q.len q.data = true) (left : q.tries < d.get HWD_HOST_CTRL_ASLEEP_RETRY) :
    d.hostTry h q =
      (d.setHost h { d.host h with retry := (d.host h).retry ++ [{ q with tries := q.tries + 1 }] }).pulse 269 := by
  have tried : (!q.fenced && d.hostFenced h q.write q.addr q.len q.data) = false := by
    rcases pass with p | p <;> simp [p]
  simp [Device.hostTry, tried, asleep, left]

/-- A request that is put off no more runs, and a read is completed. -/
theorem hostTry_of_runs (pass : q.fenced = true ∨ d.hostFenced h q.write q.addr q.len q.data = false)
    (awake : d.hostAsleep h q.write q.addr q.len q.data = false ∨ d.get HWD_HOST_CTRL_ASLEEP_RETRY ≤ q.tries) :
    d.hostTry h q =
      let r := d.hostRuns h q.write (hostRuns q.addr q.len) q.data
      if q.write then r.1 else r.1.emit (match r.2 with
        | some bs => .tlp h false bs
        | none => .tlp h true []) := by
  have tried : ¬ (!q.fenced && d.hostFenced h q.write q.addr q.len q.data) = true := by
    rcases pass with p | p <;> simp [p]
  have now : ¬ (d.hostAsleep h q.write q.addr q.len q.data &&
      decide (q.tries < d.get HWD_HOST_CTRL_ASLEEP_RETRY)) = true := by
    rcases awake with p | p
    · simp [p]
    · simp [Nat.not_lt.mpr p]
  unfold Device.hostTry
  rw [if_neg tried, if_neg now]
  obtain ⟨e, answer⟩ := d.hostRuns h q.write (hostRuns q.addr q.len) q.data
  cases answer <;> rfl

end

/-! ### The commands -/

/-- A command that takes the device to u takes it to whatever equals u. -/
theorem goes_of_eq {c : Instr} {s : State} {u v : Device} (run : exec c s = .next ⟨u, s.pending⟩) (e : u = v) :
    exec c s = .next ⟨v, s.pending⟩ := e ▸ run

section
variable (s : State) (h : Fin 2)

theorem exec_hostTlp (t : Tlp) : exec (.hostTlp h t) s = execHostTlp h t s := rfl

theorem exec_hostTlp_of_down (t : Tlp) (down : (s.dev.host h).linkUp = false) : exec (.hostTlp h t) s = .next s := by
  simp [exec_hostTlp, execHostTlp, State.run, down]

theorem exec_hostTlp_memRd (bar : Fin 3) (off : BitVec 37) (len : Fin 4097) (isUp : (s.dev.host h).linkUp = true) :
    exec (.hostTlp h (.memRd bar off len)) s = .next ⟨s.dev.hostMem h bar off.toNat len false [], s.pending⟩ := by
  simp [exec_hostTlp, execHostTlp, State.run, isUp]

theorem exec_hostTlp_memWr (bar : Fin 3) (off : BitVec 37) (bs : List Byte) (isUp : (s.dev.host h).linkUp = true) :
    exec (.hostTlp h (.memWr bar off bs)) s = .next ⟨s.dev.hostMem h bar off.toNat bs.length true bs, s.pending⟩ := by
  simp [exec_hostTlp, execHostTlp, State.run, isUp]

theorem exec_hostTlp_msix (enable fmask : Bool) (isUp : (s.dev.host h).linkUp = true) :
    exec (.hostTlp h (.msix enable fmask)) s = .next ⟨s.dev.msixCtl h enable fmask, s.pending⟩ := by
  simp [exec_hostTlp, execHostTlp, State.run, isUp]

theorem exec_hostAsleepRetry : exec (.hostAsleepRetry h) s = execHostAsleepRetry h s := rfl

theorem exec_hostAsleepRetry_nil (none : (s.dev.host h).retry = []) : exec (.hostAsleepRetry h) s = .next s := by
  simp [exec_hostAsleepRetry, execHostAsleepRetry, State.run, none]

theorem exec_hostAsleepRetry_cons {q : HostReq} {rest : List HostReq} (oldest : (s.dev.host h).retry = q :: rest) :
    exec (.hostAsleepRetry h) s =
      .next ⟨(s.dev.setHost h { s.dev.host h with retry := rest }).hostTry h q, s.pending⟩ := by
  simp [exec_hostAsleepRetry, execHostAsleepRetry, State.run, oldest]

theorem exec_flr : exec (.flr h) s = .next ⟨s.dev.flr h, s.pending⟩ := rfl

theorem exec_pcieLinkDown : exec (.pcieLinkDown h) s = .next ⟨s.dev.hostDown h, s.pending⟩ := rfl

theorem exec_pcieLinkUp : exec (.pcieLinkUp h) s = .next ⟨s.dev.hostUp h, s.pending⟩ := rfl

theorem exec_semAcquire (n : Fin 128) (src : BitVec 10) (core : Fin 8) : exec (.semAcquire n src core) s = .next
    ⟨(s.dev.semRead n src.toNat core).1.emit (.resp src.toNat (okInl (s.dev.semRead n src.toNat core).2)), s.pending⟩ := rfl

theorem exec_semRelease (n : Fin 128) (src : BitVec 10) (core : Fin 8) (v : Word) : exec (.semRelease n src core v) s = .next
    ⟨(s.dev.semWrite n src.toNat core v.toNat).emit (.resp src.toNat ok), s.pending⟩ := rfl

theorem exec_semLinkRelease : exec (.semLinkRelease h) s = execSemLinkRelease h s := rfl

theorem exec_semLinkRelease_of_up (isUp : (s.dev.host h).linkUp = true) : exec (.semLinkRelease h) s = .next s := by
  simp [exec_semLinkRelease, execSemLinkRelease, State.run, isUp]

theorem exec_semLinkRelease_of_down (down : (s.dev.host h).linkUp = false) :
    exec (.semLinkRelease h) s = .next ⟨s.dev.semForce h, s.pending⟩ := by
  simp [exec_semLinkRelease, execSemLinkRelease, State.run, down]

end

/-! ### The claims -/

/-- R25, R26, R17, R540, R541: requests of a host and their retries. -/
theorem hostRequests : Claims.HostRequests := by
  intro s h bar off len bs en fm a q rest t d x goes inBar outside lost left asleep fenced
  refine ⟨exec_hostTlp_of_down s h t, fun isUp => ⟨?_, ?_, ?_, ?_, ?_, ?_⟩, exec_hostAsleepRetry_nil s h, fun oldest => ?_⟩
  · rintro pos ⟨first, last⟩
    exact goes_of_eq (exec_hostTlp_memRd s h bar off len isUp) (hostMem_of_inside pos first last)
  · rintro pos ⟨first, last⟩
    exact goes_of_eq (exec_hostTlp_memWr s h bar off bs isUp) (hostMem_of_inside pos first last)
  · intro pos out
    exact goes_of_eq (exec_hostTlp_memRd s h bar off len isUp) (hostMem_of_outside pos out)
  · intro pos out
    exact goes_of_eq (exec_hostTlp_memWr s h bar off bs isUp) (hostMem_of_outside pos out)
  · exact goes_of_eq (exec_hostTlp_memRd s h bar off 0 isUp) hostMem_of_empty
  · intro off
    exact goes_of_eq (exec_hostTlp_msix s h en fm isUp) (msixCtl_of_off off)
  · have run : goes (.hostAsleepRetry h) (left.hostTry h q) := exec_hostAsleepRetry_cons s h oldest
    have port : left.host h = { x with retry := rest } := setHost_host d h _
    have retries : left.get HWD_HOST_CTRL_ASLEEP_RETRY = d.get HWD_HOST_CTRL_ASLEEP_RETRY := setHost_get d h _ _
    have again : ∀ p : HostPort, left.setHost h p = d.setHost h p := setHost_setHost d h _
    refine ⟨run, fun once hf => ?_, fun pass ha more => ?_, fun pass awake => ?_⟩
    · have e := hostTry_of_fenced once hf
      rw [port, again] at e
      exact goes_of_eq run e
    · have e := hostTry_of_asleep pass ha (retries.symm ▸ more)
      rw [port, again] at e
      exact ⟨_, goes_of_eq run e, (Device.Sets.refl _).pulse 269 (by decide) (by simp)⟩
    · have e := hostTry_of_runs pass (retries.symm ▸ awake)
      refine ⟨fun write => ?_, fun read => ?_⟩
      · exact goes_of_eq run (e.trans (if_pos write))
      · exact goes_of_eq run (e.trans (if_neg (Bool.eq_false_iff.mp read)))

/-- R542 to R545: resets and links of an endpoint, and the semaphores. -/
theorem hostLinksAndSemaphores : Claims.HostLinksAndSemaphores := by
  intro s h n src core v d x goes owner freed me answers up
  refine ⟨?_, ?_, ?_, ?_, ?_, fun hme => ⟨?_, ?_, ?_, ?_, ?_⟩, ?_, exec_semLinkRelease_of_up s h, fun down => ?_⟩
  · have rest := flr_rest d h.isLt
    obtain ⟨latchHi, latchSec⟩ := flr_latches d h.isLt
    obtain ⟨cause, pend⟩ := flr_event d h.isLt
    refine ⟨d.flr h, exec_flr s h, flr_msix d h.isLt, ?_, flr_freed d h.isLt, ?_, latchHi, latchSec, cause, pend, ?_⟩
    · rw [rest]; exact flrBase_host d h
    · rw [rest, flrBase_eq]
    · rw [rest, flrBase_eq]
      exact ⟨rfl, rfl, rfl, rfl⟩
  · exact fun down => goes_of_eq (exec_pcieLinkDown s h) (hostDown_of_down down)
  · exact fun isUp => ⟨_, exec_pcieLinkDown s h, hostDown_sets h.isLt isUp⟩
  · exact fun no => goes_of_eq (exec_pcieLinkUp s h) (hostUp_of_not no)
  · exact fun down allowed => ⟨_, exec_pcieLinkUp s h, hostUp_sets h.isLt down allowed⟩
  · intro own
    refine ⟨_, exec_semAcquire s n src core, ?_⟩
    rw [semRead_of_free hme own]
    exact (semPut_sets d (semOwner_lt _ _ core.isLt) (by decide)).emit _
  · intro own
    exact goes_of_eq (exec_semAcquire s n src core) (by rw [semRead_of_owner hme own])
  · intro taken other
    exact goes_of_eq (exec_semAcquire s n src core) (by rw [semRead_of_other hme taken other])
  · rintro rfl own
    refine ⟨_, exec_semRelease s n src core 0, ?_⟩
    rw [show (0 : Word).toNat = 0 from rfl, semWrite_of_owner hme own]
    exact (semPut_sets d (by decide) (by decide)).emit _
  · intro no
    have no' : v.toNat ≠ 0 ∨ owner n ≠ me := no.imp_left (fun hv e => hv (BitVec.eq_of_toNat_eq e))
    exact goes_of_eq (exec_semRelease s n src core v) (by rw [semWrite_of_not hme no'])
  · intro none
    exact goes_of_eq (exec_semAcquire s n src core) (by rw [semRead_of_none none])
  · exact ⟨_, exec_semLinkRelease_of_down s h down, semForce_freed d h, by rw [semForce_eq], by rw [semForce_eq],
      semForce_pend d h.isLt⟩

/-- Settles O55: the claims on a host's requests, and on resets, links and semaphores. -/
theorem hostCommands : Obligations.HostCommands := ⟨hostRequests, hostLinksAndSemaphores⟩

end Sys2Proof.Machine.HostProofs
